-- ==== Sys2Proof/Word.lean ====
section
/-! DEFINITION. The words the manual speaks of (R7): bytes, 32-bit register words and 64-bit qwords. -/

namespace Sys2Proof

/-- One byte. -/
abbrev Byte := BitVec 8

/-- A 32-bit register word (R49). -/
abbrev Word := BitVec 32

/-- A qword: memory structures are laid out in 64-bit qwords (R7). -/
abbrev Dword := BitVec 64

/-- A table by number: pairs (key, value), keys strictly rising (kept so by the operations of Machine/Ops). -/
abbrev Tbl (α : Type) := List (Nat × α)

end Sys2Proof
end

