-- ==== Sys2Proof/Syntax.lean ====
section
/-! DEFINITION. The commands of the block: one constructor per row of spec/opcode_table.json, with the
operands the row's rule names. Data that an agent outside the block brings (host memory read back, a packet,
a pin level) is an operand. -/

namespace Sys2Proof

/-- Who accesses a register page (R50, R66). -/
inductive Requester where
  | ctrlA | ctrlB | mgmt
  | hart (id : Fin 1024)
  deriving DecidableEq, Repr

/-- A page: block type code and number within the type (R47). -/
structure PageRef where
  blk  : BitVec 8
  inst : BitVec 9
  deriving DecidableEq, Repr

/-- Where a register access goes: a page register by its address (R47), or a register of a function's BAR0
(R68, R132, R265, R274), the function named by host port and selector (R104). -/
inductive Target where
  | page (addr : BitVec 29)
  | fn (port : Fin 128) (sel : BitVec 12) (off : BitVec 16)
  deriving DecidableEq, Repr

/-- A page command (R56): the write of PG_CMD, bits 31:8 in `hi` (the row gives the OPCODE), with the writes of
PG_CMD_ARG0, PG_CMD_ARG1 and PG_CMD_DATA that the requester makes just before it (none: the register stands).
`env` is what an agent outside the block answers while the command runs. `defer` says that the command is still
running when the next row comes: it then ends by COMMAND_END (log 5). -/
structure CmdIn where
  who   : Requester
  inst  : BitVec 9
  hi    : BitVec 24
  arg0  : Option Word
  arg1  : Option Word
  data  : List Dword
  env   : List Dword
  defer : Bool
  deriving DecidableEq, Repr

/-- A ring queue: of a function, a provider ring of a QMGR page, or a DMA channel (R106). -/
inductive QRef where
  | fn (port : Fin 128) (sel : BitVec 12) (q : BitVec 12)
  | prov (port : Fin 128) (q : BitVec 12)
  | dma (ch : Fin 256)
  deriving DecidableEq, Repr

/-- The time sources (R16, R41). -/
inductive Source where
  | ptp | pps | twin
  deriving DecidableEq, Repr

/-- The pages that take table commands (R212). -/
inductive TablePage where
  | htbl | tcam | flow | learn
  deriving DecidableEq, Repr

/-- How a device read of memory ends: data, a host read failure (R116), or an uncorrectable line (R351). -/
inductive ReadEnd where
  | data (bytes : List Byte)
  | failed
  | poisoned
  deriving DecidableEq, Repr

/-- A Kwegan instruction (R323): the hart, whether it runs in M, S or U mode (0, 1, 2), rd, the values of rs1 and
rs2, whether PMP forbids rs1 (R324), whether a register field that must be zero is not (R323), the nanoseconds of BREF
that passed since the row before, and the hart's own accesses to its Kwegan CSRs before the instruction, oldest first: a
value written in M mode, or none for a read (R322). -/
structure KwIn where
  hart   : Fin 1024
  mode   : Fin 3
  rd     : Fin 32
  rs1    : Dword
  rs2    : Dword
  pmpNo  : Bool
  badEnc : Bool
  dt     : Nat
  csrs   : List (BitVec 12 × Option Dword)
  deriving DecidableEq, Repr

/-- An RDMA packet as it reaches an engine (R228, R232, R233, R236): the host port and function of the vport it was
forwarded to (R229), its headers, and the verdict of its ICRC. -/
structure RdmaPkt where
  port    : Fin 128
  sel     : BitVec 12
  qpn     : BitVec 24
  opcode  : BitVec 8
  psn     : BitVec 24
  ackReq  : Bool
  se      : Bool
  msg     : BitVec 24
  offset  : Word
  rseq    : BitVec 24
  va      : Dword
  rkey    : Word
  dmaLen  : Word
  imm     : Word
  a       : Dword
  b       : Dword
  payload : List Byte
  ce      : Bool
  icrcOk  : Bool
  vers    : BitVec 4
  local_  : Bool
  deriving DecidableEq, Repr

/-- The header of a Sprinmen flit (R382), the verdict of its CRC (R384), and its payload qwords. -/
structure Flit where
  link    : Fin 16
  channel : BitVec 3
  replay  : Bool
  nak     : Bool
  ackOk   : Bool
  seq     : BitVec 16
  ackSeq  : BitVec 16
  crCh    : BitVec 3
  crN     : BitVec 12
  payload : List Dword
  crc     : Dword
  deriving DecidableEq, Repr

/-- The commands, one constructor per row of the table, in its order. -/
inductive Instr where
  /-- R8. A write to a register field that has no row of its own, with access-code, range, ACCESS-table and alignment checks, unpopulated-page handling and the counting of refused writes. -/
  | registerWrite (who : Requester) (tgt : Target) (whole : Bool) (value : Word)
  /-- R8. A write of 1 to a W1C bit such as PG_ISTAT, ER_STAT.OVERRUN, NR_STAT, PANIC_STAT or INTX_CAUSE clears it, and a same-cycle event keeps it set. -/
  | w1cWrite (who : Requester) (tgt : Target) (value event : Word)
  /-- R8. A read of an RC register returns its value and then clears it, with a same-cycle increment leaving 1. -/
  | rcRead (who : Requester) (tgt : Target) (event : Bool)
  /-- R50. A read of the LO word of a 64-bit register, or of NOW_LO or SHORT_LO, latches the high word for the same requester. -/
  | reg64LoRead (who : Requester) (tgt : Target)
  /-- R50. A write of the HI word of a 64-bit register commits all 64 bits with the staged LO word of the same requester. -/
  | reg64HiWrite (who : Requester) (tgt : Target) (value : Word)
  /-- R51. A write of 1 to a bit of PG_ITEST sets the same PG_ISTAT bit and nothing else. -/
  | pgItestWrite (who : Requester) (pg : PageRef) (value : Word)
  /-- R52. Setting PG_CTRL.LOCK locks every RWL field of the page until device reset. -/
  | pgCtrlLock (who : Requester) (pg : PageRef)
  /-- R52. Writing PG_CTRL.FREEZE snapshots the page's statistics counters for reads, or shows the live values again. -/
  | pgCtrlFreeze (who : Requester) (pg : PageRef) (on : Bool)
  /-- R52. Setting SOFT_RESET discards in-flight work, aborts a running command and returns the page's fields and held state to reset values. -/
  | pgCtrlSoftReset (who : Requester) (pg : PageRef)
  /-- R52. The soft reset of an page completes and SOFT_RESET reads 0 again. -/
  | softResetComplete (pg : PageRef)
  /-- R52. Writing PG_CTRL.ENABLE lets the block accept new work, or makes it stop taking new work and finish what it has. -/
  | pgCtrlEnableWrite (who : Requester) (pg : PageRef) (on : Bool)
  /-- R56. A running page command ends: returned data and PG_CMD_STAT are written, BUSY clears and PG_ISTAT bit 31 is set. -/
  | commandEnd (pg : PageRef)
  /-- R60. A command exceeds its CMD_LIMIT deadline and ends with 0x09 TIMEOUT, raising the block's first fault source. -/
  | cmdLimitExpiry (pg : PageRef)
  /-- R63. A write of a block type to INT_REARM sends one more message if that type is still pending. -/
  | intRearmWrite (who : Requester) (value : Word)
  /-- R65. A write of a ROUTE entry is checked against the target MSI-X table size and is taken or discarded. -/
  | routeWrite (who : Requester) (code : BitVec 8) (value : Word)
  /-- R39. A write of PTP_OFFSET_HI commits a PTP measurement, which the discipline judges for slew or step by R23. -/
  | ptpOffsetCommit (who : Requester) (hi : Word)
  /-- R16. No PTP_OFFSET write arrives for PTP_TIMEOUT, so the PTP source is lost. -/
  | ptpTimeoutExpiry
  /-- R16. A PPS_IN edge is compared with the whole second of Rack Time as a measurement of the PPS source. -/
  | ppsInEdge (dt : Nat)
  /-- R16. No PPS_IN edge arrives within 1.2 s, so the PPS source is lost. -/
  | ppsInMissing
  /-- R16. The TREF_IN frequency check finds TREF_IN outside ±100 ppm, or back inside it, changing PPS qualification. -/
  | trefInOutOfRange (out : Bool)
  /-- R19. A higher-ranked source has stayed qualified for QUAL_TIME and replaces the selected source. -/
  | qualTimeExpiry (src : Source)
  /-- R23. Setting or clearing SRC_CTRL.FORCE_HOLDOVER moves the discipline state by R23. -/
  | forceHoldoverWrite (who : Requester) (on : Bool)
  /-- R19. A write of SRC_CTRL.ENABLE enables or disables time sources, which may change the selection. -/
  | sourceEnableWrite (who : Requester) (en : BitVec 3)
  /-- R41. A write of the SRC_CTRL rank fields changes the ranking used in source selection. -/
  | sourceRankWrite (who : Requester) (ranks : BitVec 6)
  /-- R28. A write of MINUTE_OFFSET is taken, or rejected when above 59 or while the seal sequencer is armed. -/
  | minuteOffsetWrite (who : Requester) (value : Word)
  /-- R22. A pending step is applied in the next time-bus frame to all replicas, firing skipped calendar events with STEPPED. -/
  | stepApply
  /-- R368. Rack Time passes a minute boundary: the seal sequencer produces the seal and every METER page swaps banks. -/
  | minuteBoundary
  /-- R30. Command that arms the seal sequencer in FREERUN and sets LAST_SEALED to the current minute number. -/
  | armSeals (c : CmdIn)
  /-- R469. Command that starts loopback calibration of one lane alongside traffic. -/
  | laneCal (c : CmdIn)
  /-- R469. A lane calibration ends, updating LANE_OFFSET and LANE_CALSTAT, or failing with 0x47 CAL_FAILED. -/
  | laneCalComplete (ok : Bool) (offset : Word)
  /-- R38. PPS_OUT rises at each whole second shifted by PPS_OUT_OFFSET and falls after PPS_OUT_WIDTH. -/
  | ppsOutPulse (rise : Bool)
  /-- R45. Command that schedules a provider calendar event, refused by R35. -/
  | schedule (c : CmdIn)
  /-- R45. Command that removes every pending provider event of a UNIT and COOKIE. -/
  | cancel (c : CmdIn)
  /-- R45. Command that returns the earliest pending calendar event matching UNIT and COOKIE. -/
  | query (c : CmdIn)
  /-- R33. A calendar event reaches its deadline and fires to its unit with STEPPED and LATE set as due. -/
  | calEventFire (slice : Fin 64)
  /-- R31. Now enters a bucket and its events move down one level of the calendar wheel. -/
  | calLevelCascade (slice : Fin 64)
  /-- R34. A spilled event becomes near and is fetched back on chip, displacing a later non-near event or waiting for an entry. -/
  | calSpillReturn (slice : Fin 64)
  /-- R73. OCTET command that checks and applies the staged personality and starts calibration. -/
  | up (c : CmdIn)
  /-- R74. OCTET command that takes every port of the octet down, removing attached host ports. -/
  | down (c : CmdIn)
  /-- R74. OCTET command that runs a full SerDes recalibration and loopback calibration in DOWN. -/
  | recal (c : CmdIn)
  /-- R74. Loopback calibration of an octet ends and the octet moves from CAL to TRAINING. -/
  | octetCalComplete (octet : Fin 128) (good : BitVec 8) (offsets : List Word)
  /-- R74. A port of an octet comes up, moving the octet to UP on the first. -/
  | portLinkUp (octet : Fin 128) (k : Fin 8) (gen : BitVec 4) (width : BitVec 4)
  /-- R74. A port of an octet goes down, moving the octet back to TRAINING on the last. -/
  | portLinkDown (octet : Fin 128) (k : Fin 8)
  /-- R78. HPRSNT_N of a host port changes level and starts or cancels the presence debounce. -/
  | hprsntNChange (octet : Fin 128) (level : Bool)
  /-- R78. Presence has been stable for PRSNT_DEBOUNCE, so the host port is judged attached or removed. -/
  | prsntDebounceExpiry (octet : Fin 128)
  /-- R78. A host link leaves L0 and the LINK_GRACE wait begins. -/
  | hostLinkLeaveL0 (port : Fin 128)
  /-- R78. A host link has not returned within LINK_GRACE and the port is taken as removed. -/
  | linkGraceExpiry (port : Fin 128)
  /-- R78. A host link trains, attaching an x4 port or, within LINK_GRACE, acting as a hot reset. -/
  | hostLinkTrained (port : Fin 128) (gen : BitVec 4) (width : BitVec 5) (flit : Bool)
  /-- R94. PERST_N goes low and starts a fundamental reset of every function of the port. -/
  | perstNAssert (octet : Fin 128)
  /-- R96. PERST_N rises; the link retrains and the early endpoint answers until the functions are ready. -/
  | perstNDeassert (octet : Fin 128)
  /-- R80. The quarantine deadline fires and the port's quarantined contexts are purged. -/
  | quarantineExpiry (port : Fin 128)
  /-- R81. A refused quarantine expiry schedule is retried after 1 ms of Rack Time. -/
  | quarScheduleRetry (port : Fin 128)
  /-- R80. OCTET command that restores the quarantined queues of a port half in DECIDE. -/
  | reattachAccept (c : CmdIn)
  /-- R80. OCTET command that purges a port half in DECIDE and starts its functions fresh. -/
  | reattachRefuse (c : CmdIn)
  /-- R174. A frame arrives at an Ethernet port and is checked, parsed, classified and its action set carried out. -/
  | ethFrameRx (port : Fin 1024) (frame : List Byte) (fcsOk ovf : Bool) (dt : Nat)
  /-- R84. A downstream device's memory request is served inside its inbound windows or answered with Unsupported Request. -/
  | dportInboundRequest (octet : Fin 128) (k : Fin 4) (addr : Dword) (len : Nat) (write : Option (List Byte))
  /-- R96. A configuration request reaches a host port and is answered by the functions or with Retry Status. -/
  | configRequest (port : Fin 128) (rid : BitVec 16) (off : BitVec 12) (write : Option Word)
  /-- R91. A host moves a function between D0 and D3hot; the move to D0 resets the function as an FLR. -/
  | powerStateWrite (port : Fin 128) (sel : BitVec 12) (d3 : Bool)
  /-- R94. A host sets Initiate FLR and the function's drain and squash sequence starts. -/
  | initiateFlr (port : Fin 128) (sel : BitVec 12)
  /-- R94. An in-band hot reset resets every function of the host port. -/
  | hotReset (port : Fin 128)
  /-- R94. A function reset completes, Transactions Pending reads 0 and FLR completion is reported. -/
  | flrComplete (port : Fin 128) (sel : BitVec 12)
  /-- R363. A drain finishes its Levain writebacks, reports completion and lets a waiting drain start. -/
  | drainComplete (port : Fin 128) (sel : BitVec 12)
  /-- R96. The functions of a host port become ready after reset and the early endpoint stops answering with Retry Status. -/
  | functionsReady (port : Fin 128)
  /-- R99. A poisoned write from a host is discarded, reported as advisory non-fatal and counted. -/
  | poisonedWriteRx (port : Fin 128) (sel : BitVec 12)
  /-- R99. An unexpected completion from a host is discarded and reported. -/
  | unexpectedCompletionRx (port : Fin 128) (sel : BitVec 12)
  /-- R99. A device read of host memory times out and the requesting unit treats it as a failed read. -/
  | completionTimeout (q : QRef)
  /-- R92. HPORT command that reserves contiguous VF pool ranges for PF0 and PF1 of a port. -/
  | vfAlloc (c : CmdIn)
  /-- R93. HPORT command that sets MSI-X table sizes from the device-wide pool. -/
  | msixAlloc (c : CmdIn)
  /-- R94. HPORT command that resets a named function as an FLR does, ending when the reset completes. -/
  | funcReset (c : CmdIn)
  /-- R103. A BAR4 TLP is stamped with its epoch, translated and forwarded, or refused with a violation. -/
  | windowTlpRx (port : Fin 128) (addr : Dword) (len : Nat) (write : Option (List Byte)) (ro : Bool)
  /-- R101. A forwarded rack-window read completes or fails, returning data to the source and possibly clearing COMMIT_STAT.BUSY. -/
  | windowTargetCompletion (inst : Fin 16) (tlp : Nat) (reply : ReadEnd)
  /-- R105. WINDOW command that writes a shadow window entry. -/
  | winWrite (c : CmdIn)
  /-- R105. WINDOW command that returns a shadow or active window entry. -/
  | winRead (c : CmdIn)
  /-- R101. WINDOW command that checks the shadow table, copies it to the active table and increments EPOCH. -/
  | windowCommit (c : CmdIn)
  /-- R113. A write of DB_PROD is judged against C and D, updating D, being ignored, or putting the queue in ERROR. -/
  | doorbell (port : Fin 128) (sel : BitVec 12) (q : BitVec 12) (value : Word)
  /-- R133. A write of PROV_DB rings a provider ring, judged by R113. -/
  | provDb (who : Requester) (inst : Fin 128) (value : Word)
  /-- R114. A descriptor read returns and its entries are checked and started as work items. -/
  | descriptorReadComplete (q : QRef) (slots : Option (List (List Dword)))
  /-- R121. A tenant write of QC_RESUME resumes a queue in ERROR at a new consumer index. -/
  | qcResume (port : Fin 128) (sel : BitVec 12) (value : Word)
  /-- R126. A write of ER_CONS advances the event ring consumer, letting the backlog drain, or is ignored. -/
  | erConsWrite (port : Fin 128) (sel : BitVec 12) (ring : Fin 16) (value : Word)
  /-- R130. A write of ER_ARM sets ARMED and sends the vector at once if entries are pending. -/
  | erArmWrite (port : Fin 128) (sel : BitVec 12) (ring : Fin 16) (value : Word)
  /-- R133. QMGR command that creates a queue context bound to a ring. -/
  | qCreate (c : CmdIn)
  /-- R122. QMGR command that releases a queue in ERROR or STOPPED. -/
  | qDestroy (c : CmdIn)
  /-- R122. QMGR command that stops reading a queue after the work item being read. -/
  | qStop (c : CmdIn)
  /-- R122. QMGR command that resumes reading a STOPPED queue. -/
  | qStart (c : CmdIn)
  /-- R121. QMGR command that resumes a queue in ERROR at a new consumer index. -/
  | qResume (c : CmdIn)
  /-- R133. QMGR command that returns a queue's handle, indices, state and cause. -/
  | qQuery (c : CmdIn)
  /-- R126. QMGR command that creates an event ring for a function. -/
  | erCreate (c : CmdIn)
  /-- R133. QMGR command that destroys an event ring no queue names. -/
  | erDestroy (c : CmdIn)
  /-- R125. A waiting frame's RX_HOLD deadline fires and the frame is dropped with RX_HOLD_DROP. -/
  | rxHoldExpiry (q : QRef)
  /-- R117. The payload of an ETH_SEND is read in full and the packet enters classification. -/
  | payloadReadComplete (q : QRef) (payload : ReadEnd)
  /-- R117. A frame leaves the egress port, completing an ETH_SEND with TSTAMP. -/
  | frameSent (port : Fin 1024)
  /-- R142. DMA command that binds a ring to an INACTIVE channel. -/
  | setup (c : CmdIn)
  /-- R142. DMA command that starts a STOPPED channel reading at C. -/
  | start (c : CmdIn)
  /-- R142. DMA command that stops a channel reading further descriptors. -/
  | stop (c : CmdIn)
  /-- R142. DMA command that resumes a channel in ERROR at a new index. -/
  | resume (c : CmdIn)
  /-- R142. DMA command that unbinds a channel's ring. -/
  | release (c : CmdIn)
  /-- R142. A write of DB of a DMA page is judged by R113. -/
  | dmaDoorbell (who : Requester) (ch : Fin 256) (value : Word)
  /-- R137. Source data of a DMA descriptor returns and is written to the destination. -/
  | dmaReadDataReturn (ch : Fin 256) (data : ReadEnd)
  /-- R138. A DMA descriptor's writes are all issued and its completion is written, with end-of-count and STOPPED handling. -/
  | dmaDescriptorComplete (ch : Fin 256)
  /-- R139. The zero-length flushing read of a BARRIER descriptor returns and its completion is written. -/
  | dmaFlushReadReturn (ch : Fin 256) (ok : Bool)
  /-- R141. A new rate window begins and a throttled channel's budget is refilled. -/
  | dmaRateWindow (ch : Fin 256)
  /-- R157. PARSE command that writes a chunk of a node into the shadow bank. -/
  | nodeWrite (c : CmdIn)
  /-- R165. PARSE command that returns a chunk of a shadow or active node. -/
  | nodeRead (c : CmdIn)
  /-- R157. PARSE command that checks the shadow graph and exchanges the banks. -/
  | profCommit (c : CmdIn)
  /-- R158. Once the last walk on the old graph ends, the active bank is copied to the shadow and LOADED is set. -/
  | profCopyBack (pipe : Fin 32) (prof : Fin 8)
  /-- R159. PARSE command that selects a profile and COMPAT for a port or vport. -/
  | portProf (c : CmdIn)
  /-- R165. PARSE command that returns a port's profile and COMPAT bit. -/
  | portQuery (c : CmdIn)
  /-- R163. A fragment entry's park deadline fires and its parked fragments go to the exception queue. -/
  | fragParkExpiry (entry : Nat)
  /-- R163. A fragment entry's expiry fires and frees the entry or reschedules it from LAST. -/
  | fragLifeExpiry (entry : Nat)
  /-- R166. FRAG command that frees every fragment entry of an owner. -/
  | fragFlushTenant (c : CmdIn)
  /-- R186. CLASS command that writes a key profile. -/
  | keyprofWrite (c : CmdIn)
  /-- R170. CLASS command that writes a range comparator. -/
  | rangeWrite (c : CmdIn)
  /-- R172. CLASS command that writes an action record in all pipelines. -/
  | arecWrite (c : CmdIn)
  /-- R186. CLASS command that writes a chunk of an edit template. -/
  | tmplWrite (c : CmdIn)
  /-- R186. CLASS command that returns a key profile. -/
  | keyprofRead (c : CmdIn)
  /-- R186. CLASS command that returns a range comparator. -/
  | rangeRead (c : CmdIn)
  /-- R186. CLASS command that returns an action record. -/
  | arecRead (c : CmdIn)
  /-- R186. CLASS command that returns a template chunk. -/
  | tmplRead (c : CmdIn)
  /-- R187. SPREAD command that writes a hash profile device-wide. -/
  | hprofWrite (c : CmdIn)
  /-- R187. SPREAD command that writes an owner's Toeplitz key device-wide. -/
  | tkeyWrite (c : CmdIn)
  /-- R187. SPREAD command that writes a chunk of a path group device-wide. -/
  | pgrpWrite (c : CmdIn)
  /-- R187. SPREAD command that writes a chunk of a spread table. -/
  | stblWrite (c : CmdIn)
  /-- R187. SPREAD command that writes a vport entry of a port the pipeline owns. -/
  | vportWrite (c : CmdIn)
  /-- R187. SPREAD command that returns a hash profile. -/
  | hprofRead (c : CmdIn)
  /-- R187. SPREAD command that returns a Toeplitz key. -/
  | tkeyRead (c : CmdIn)
  /-- R187. SPREAD command that returns a path group chunk. -/
  | pgrpRead (c : CmdIn)
  /-- R187. SPREAD command that returns a spread table chunk. -/
  | stblRead (c : CmdIn)
  /-- R187. SPREAD command that returns a vport entry. -/
  | vportRead (c : CmdIn)
  /-- R184. A pacing class deadline fires and the held packet is released to egress. -/
  | paceRelease (pipe : Fin 32) (cls : Fin 256)
  /-- R212. Table command that returns the entry at a position with its side word. -/
  | tableRead (p : TablePage) (c : CmdIn)
  /-- R212. Table command that replaces or creates a whole entry. -/
  | tableWrite (p : TablePage) (c : CmdIn)
  /-- R191. Table command that creates an entry only if none exists, relocating or stashing exact-match entries. -/
  | insert (p : TablePage) (c : CmdIn)
  /-- R212. Table command that clears an entry. -/
  | delete (p : TablePage) (c : CmdIn)
  /-- R212. Table command that looks a key up without setting HIT. -/
  | search (p : TablePage) (c : CmdIn)
  /-- R212. Table command that replaces an entry if its CAS word matches. -/
  | cas (p : TablePage) (c : CmdIn)
  /-- R196. TCAM command that copies a block of rows to a new place. -/
  | move (p : TablePage) (c : CmdIn)
  /-- R215. Table command that deletes every entry of an owner, or puts it on the flow flush list. -/
  | tableFlushTenant (p : TablePage) (c : CmdIn)
  /-- R201. The TCAM background scan checks one row of each page every SCAN_INT ns. -/
  | tcamScanTick (bad : BitVec 32)
  /-- R202. The shadow record of a BAD entry is read and written back, or the scrub fails. -/
  | scrubRepair (table : BitVec 4) (pos : Nat)
  /-- R205. The flow scan deadline fires and starts a pass, or counts a skip. -/
  | flowScanStart
  /-- R215. A flow scan pass completes and removes owners from the flush list. -/
  | flowScanPassEnd
  /-- R204. A queued removal deletes a flow entry if it is still expired. -/
  | flowQueuedRemoval (pos : Nat)
  /-- R206. The sweep deadline fires and the MAC sweeper runs a pass over all entries. -/
  | macSweepStart
  /-- R207. A refused sweep or scan schedule is retried after 1 ms. -/
  | tableSchedRetry (sweep : Bool)
  /-- R208. The learning engine takes a queued learn request and creates, moves or refuses the entry. -/
  | learnRequest
  /-- R210. A write of NR_CONS advances the notification ring consumer or is ignored. -/
  | nrConsWrite (who : Requester) (value : Word)
  /-- R224. RDMA command that creates a QP in INIT with four contexts. -/
  | qpCreate (c : CmdIn)
  /-- R226. QP_MODIFY to RTR, which takes the receive attributes. -/
  | qpModifyRtr (c : CmdIn)
  /-- R226. QP_MODIFY to RTS, which starts SQ reading. -/
  | qpModifyRts (c : CmdIn)
  /-- R227. QP_MODIFY to ERROR, which flushes the QP's work requests. -/
  | qpModifyError (c : CmdIn)
  /-- R226. QP_MODIFY to INIT from ERROR, which clears transport state. -/
  | qpModifyInit (c : CmdIn)
  /-- R253. RDMA command that returns a QP's state and PSNs. -/
  | qpQuery (c : CmdIn)
  /-- R226. RDMA command that releases a QP with no ring bound. -/
  | qpDestroy (c : CmdIn)
  /-- R251. RDMA command that writes a memory key entry. -/
  | mkeyWrite (c : CmdIn)
  /-- R251. RDMA command that invalidates a memory key entry. -/
  | mkeyInvalidate (c : CmdIn)
  /-- R253. RDMA command that returns a memory key entry. -/
  | mkeyRead (c : CmdIn)
  /-- R236. A request packet reaches the responder and is key-checked, placed or treated as a duplicate. -/
  | rdmaRequestRx (p : RdmaPkt)
  /-- R241. An acknowledgement advances the requester, resets RTO and completes send work requests. -/
  | rdmaAckRx (qpn psn : BitVec 24) (sr : Bool) (blocks : List (Nat × Nat))
  /-- R226. A NAK Remote Access, Invalid Request, Operational Error or Sequence Error reaches the requester. -/
  | rdmaNakRx (qpn psn : BitVec 24) (code : BitVec 2) (sr : Bool)
  /-- R243. An RNR NAK makes the requester wait RNR_WAIT or enter ERROR. -/
  | rnrNakRx (qpn psn : BitVec 24)
  /-- R247. READ response data arrives and is placed at the local address. -/
  | readResponseRx (qpn psn : BitVec 24) (offset : Word) (last : Bool) (payload : List Byte)
  /-- R247. An atomic response arrives and its original value is written to the local result address. -/
  | atomicAckRx (qpn psn : BitVec 24) (orig : Dword)
  /-- R230. A Congestion Notification Packet is counted per page and QP. -/
  | cnpRx (qpn : BitVec 24)
  /-- R241. A QP's retransmit timer fires and outstanding packets are resent or the QP enters ERROR. -/
  | retransmitTimerFire (qpn : BitVec 24)
  /-- R243. The RNR wait ends and the named message is resent from its first PSN. -/
  | rnrWaitExpiry (qpn : BitVec 24)
  /-- R251. A refused QP timer schedule is retried after 1 µs. -/
  | rdmaTimerRetry (qpn : BitVec 24)
  /-- R244. A PCI Express AtomicOp to the host completes and the atomic response is sent and cached. -/
  | hostAtomicCompletion (qpn psn : BitVec 24) (reply : Option Dword)
  /-- R260. A unit demands a context that is not resident and a fetch starts or waits. -/
  | contextDemand (h : BitVec 25)
  /-- R264. A context fetch ends; the context becomes resident or LOST and waiting doorbells and packets are released. -/
  | contextFetchComplete (h : BitVec 25) (reply : ReadEnd)
  /-- R262. A context writeback completes and its slot is freed or a recorded fetch starts. -/
  | contextWritebackComplete (h : BitVec 25) (ok : Bool)
  /-- R258. LEVAIN command that writes an owner's store and PIN quotas. -/
  | tquotaWrite (c : CmdIn)
  /-- R272. LEVAIN command that returns an owner's quotas and use. -/
  | tquotaRead (c : CmdIn)
  /-- R272. LEVAIN command that returns a context's header and state. -/
  | ctxQuery (c : CmdIn)
  /-- R272. LEVAIN command that evicts a resident context, ending when HOME. -/
  | evict (c : CmdIn)
  /-- R259. LEVAIN command that changes a context's class. -/
  | setClass (c : CmdIn)
  /-- R265. A write of HB_CTRL.VALID = 1 makes a host-backing region ACTIVE. -/
  | hbRegister (port : Fin 128) (value : Word)
  /-- R265. A write of HB_CTRL.VALID = 0 starts moving every host-backed context to the store. -/
  | hbDrain (port : Fin 128) (value : Word)
  /-- R265. The last host-backed context has moved and VALID and DRAINING read 0. -/
  | hbDrainComplete (port : Fin 128)
  /-- R269. A context's PARK_TIME deadline fires and its parked packets are dropped. -/
  | parkTimeExpiry (h : BitVec 25)
  /-- R271. The 1 ms deadline charges store occupancy to each owner's meter. -/
  | storeChargeTick
  /-- R271. A refused occupancy deadline is retried after 100 µs. -/
  | levainSchedRetry
  /-- R275. A host write of CC.EN 0 to 1 makes the controller READY or FATAL. -/
  | ccEnable (port : Fin 128) (sel : BitVec 12) (value : Word)
  /-- R275. A host write of CC.EN 1 to 0 resets the controller to DISABLED. -/
  | ccDisable (port : Fin 128) (sel : BitVec 12) (value : Word)
  /-- R275. A host write of CC.SHN starts a shutdown of the controller. -/
  | ccShutdown (port : Fin 128) (sel : BitVec 12) (value : Word)
  /-- R274. A write of an NVMe SQ tail doorbell is judged exactly and makes commands available to fetch. -/
  | nvmeSqTailDoorbell (port : Fin 128) (sel : BitVec 12) (y : Nat) (value : Word)
  /-- R131. A write of an NVMe CQ head doorbell frees space and writes held completions in order. -/
  | nvmeCqHeadDoorbell (port : Fin 128) (sel : BitVec 12) (y : Nat) (value : Word)
  /-- R280. Arbitration grants a fetch turn and commands are fetched from an SQ. -/
  | nvmeFetchTurn (ctl : Fin 1024) (sqes : List (List Dword))
  /-- R282. An NVMe Flush command completes at once. -/
  | nvmeFlush (ctl : Fin 1024) (sq : Nat) (sqe : List Dword)
  /-- R282. An NVMe Write command takes its range lock and is carried out at the backing. -/
  | nvmeWrite (ctl : Fin 1024) (sq : Nat) (sqe : List Dword)
  /-- R282. An NVMe Read command takes its range lock and is served from cache or backing. -/
  | nvmeRead (ctl : Fin 1024) (sq : Nat) (sqe : List Dword)
  /-- R282. An NVMe Write Zeroes command is passed to the backing under a write lock. -/
  | nvmeWriteZeroes (ctl : Fin 1024) (sq : Nat) (sqe : List Dword)
  /-- R282. An NVMe Dataset Management deallocate takes one write lock per range and goes to the backing. -/
  | nvmeDatasetManagement (ctl : Fin 1024) (sq : Nat) (sqe : List Dword) (ranges : Option (List (Nat × Nat)))
  /-- R276. Admin command that creates an I/O submission queue. -/
  | createIoSq (ctl : Fin 1024) (sq : Nat) (sqe : List Dword)
  /-- R276. Admin command that creates an I/O completion queue. -/
  | createIoCq (ctl : Fin 1024) (sq : Nat) (sqe : List Dword)
  /-- R276. Admin command that deletes an I/O submission queue. -/
  | deleteIoSq (ctl : Fin 1024) (sq : Nat) (sqe : List Dword)
  /-- R276. Admin command that deletes an I/O completion queue with no SQ bound. -/
  | deleteIoCq (ctl : Fin 1024) (sq : Nat) (sqe : List Dword)
  /-- R293. Admin command that returns a supported log page. -/
  | getLogPage (ctl : Fin 1024) (sq : Nat) (sqe : List Dword)
  /-- R292. Admin command that returns namespace, controller or active namespace list data. -/
  | identify (ctl : Fin 1024) (sq : Nat) (sqe : List Dword)
  /-- R292. Admin command that always completes as not aborted. -/
  | abort (ctl : Fin 1024) (sq : Nat) (sqe : List Dword)
  /-- R294. Admin command that sets a supported feature. -/
  | setFeatures (ctl : Fin 1024) (sq : Nat) (sqe : List Dword)
  /-- R294. Admin command that returns a supported feature. -/
  | getFeatures (ctl : Fin 1024) (sq : Nat) (sqe : List Dword)
  /-- R292. Admin command that posts one of up to 4 outstanding event requests. -/
  | asynchronousEventRequest (ctl : Fin 1024) (sq : Nat) (sqe : List Dword)
  /-- R284. Every conflicting earlier command has released its lock and a waiting command starts. -/
  | rangeLockGrant (token : Nat)
  /-- R290. A backing request completes and the NVMe command is completed, cache updated and lock released. -/
  | backingCompletion (token : Nat) (reply : ReadEnd) (status : BitVec 16)
  /-- R290. A backing request waits longer than BK_TIMEOUT and the namespace loses its backing. -/
  | bkTimeoutExpiry (token : Nat)
  /-- R290. The BK_HOLD deadline fires and the namespace becomes FAILED. -/
  | bkHoldExpiry (ns : BitVec 13)
  /-- R291. A refused BK_HOLD or BK_TIMEOUT deadline is retried after 100 µs. -/
  | bkSchedRetry (hold : Bool) (key : Nat)
  /-- R294. An interrupt coalescing time deadline fires and the interrupt is sent. -/
  | coalescingTimeExpiry (ctl : Fin 1024)
  /-- R273. NVME command that creates a tenant controller on a PF1 function. -/
  | ctrlCreate (c : CmdIn)
  /-- R296. NVME command that destroys a DISABLED or FATAL controller. -/
  | ctrlDestroy (c : CmdIn)
  /-- R296. NVME command that returns a controller's CNTLID, state and queues. -/
  | ctrlQuery (c : CmdIn)
  /-- R286. NVME command that creates a namespace and binds its backing. -/
  | nsCreate (c : CmdIn)
  /-- R296. NVME command that destroys a detached namespace. -/
  | nsDestroy (c : CmdIn)
  /-- R286. NVME command that attaches a namespace to a controller as an NSID. -/
  | nsAttach (c : CmdIn)
  /-- R291. NVME command that detaches a namespace from a controller. -/
  | nsDetach (c : CmdIn)
  /-- R290. NVME command that binds a new backing and runs held commands. -/
  | nsRebind (c : CmdIn)
  /-- R288. NVME command that defines a backing queue. -/
  | bkqWrite (c : CmdIn)
  /-- R290. NVME command that declares a backing queue lost. -/
  | bkDown (c : CmdIn)
  /-- R295. Management controller Identify Controller through MGMT_ADMIN. -/
  | mgmtIdentify (c : CmdIn)
  /-- R295. Management controller Get Log Page 0x03 through MGMT_ADMIN. -/
  | mgmtGetLogPage (c : CmdIn)
  /-- R295. Management controller command that appends data to the staged image. -/
  | firmwareImageDownload (c : CmdIn)
  /-- R412. Firmware Commit action 0x0 verifies and writes the staged image to the slot. -/
  | firmwareCommitWrite (c : CmdIn)
  /-- R412. Firmware Commit action 0x1 writes the staged image and sets the slot to TRIAL. -/
  | firmwareCommitWriteActivate (c : CmdIn)
  /-- R412. Firmware Commit action 0x2 sets the slot's image to TRIAL for the next reset. -/
  | firmwareCommitActivate (c : CmdIn)
  /-- R297. RLOCK command that returns the oldest range-lock holder covering an LBA. -/
  | rlQuery (c : CmdIn)
  /-- R302. CIPHER command that submits a provider job, ending when the job ends. -/
  | job (c : CmdIn)
  /-- R303. A cipher job ends; a packet job continues to forwarding or a second pass, or the packet is dropped. -/
  | cipherJobComplete (e : Fin 16) (reply : ReadEnd)
  /-- R310. A key slot cache miss fetch returns and the waiting job may start, or the slot is corrupt. -/
  | slotFetchComplete (slot : BitVec 20) (good : Bool)
  /-- R306. The DRBG fails its health tests and every engine refuses to start jobs. -/
  | drbgHealthFailure
  /-- R306. The DRBG recovers and engines start jobs again. -/
  | drbgRecovery
  /-- R309. KEYS command that writes wrapped key bytes into the staging area. -/
  | keyStage (c : CmdIn)
  /-- R308. KEYS command that unwraps a key and writes a key slot. -/
  | slotWrite (c : CmdIn)
  /-- R309. KEYS command that returns a slot's control fields and SEQ. -/
  | slotRead (c : CmdIn)
  /-- R310. KEYS command that invalidates a key slot. -/
  | slotInvalidate (c : CmdIn)
  /-- R313. MACSEC command that writes a secure association. -/
  | saWrite (c : CmdIn)
  /-- R318. MACSEC command that returns a secure association without its key. -/
  | saRead (c : CmdIn)
  /-- R318. MACSEC command that disables a secure association. -/
  | saDisable (c : CmdIn)
  /-- R324. Kwegan instruction that ends the held item and takes the next dispatched item or waits. -/
  | wget (k : KwIn)
  /-- R324. A hart's WGET wait of rs2 ns ends without an item. -/
  | wgetWaitExpiry (hart : Fin 1024)
  /-- R324. Kwegan instruction that submits a work item to a queue. -/
  | wput (k : KwIn)
  /-- R324. Kwegan instruction that ends the held item, releasing ordered puts. -/
  | wdone (k : KwIn)
  /-- R325. Kwegan instruction that locks a context for the hart. -/
  | clock (k : KwIn)
  /-- R325. Kwegan instruction that releases a context lock. -/
  | cunlock (k : KwIn)
  /-- R326. Kwegan instruction that feeds 8 bytes into a CRC32C value. -/
  | crcc (k : KwIn)
  /-- R326. Kwegan instruction that performs one Toeplitz hash step. -/
  | tplz (k : KwIn)
  /-- R327. Kwegan instruction that allocates a chain of packet buffer cells. -/
  | calloc (k : KwIn)
  /-- R327. Kwegan instruction that frees a chain of packet buffer cells. -/
  | cfree (k : KwIn)
  /-- R328. Kwegan instruction that schedules a hart timer on the tile's calendar slice. -/
  | tset (k : KwIn)
  /-- R328. Kwegan instruction that cancels a hart timer. -/
  | tcancel (k : KwIn)
  /-- R322. A read of KRTIME returns the short stamp and latches KRTFRAC for the hart. -/
  | krtimeRead (k : KwIn)
  /-- R325. A context lock is held longer than LOCK_LIMIT and is reported. -/
  | lockLimitExpiry (h : BitVec 25)
  /-- R341. PROOFER command that configures a work queue. -/
  | qcfgWrite (c : CmdIn)
  /-- R341. PROOFER command that returns a queue's configuration and occupancy. -/
  | qcfgRead (c : CmdIn)
  /-- R341. PROOFER command that sets an owner's dispatch weight. -/
  | tweightWrite (c : CmdIn)
  /-- R337. PROOFER command that discards an owner's queued items, ending when none is held. -/
  | prooferFlushTenant (c : CmdIn)
  /-- R321. Stage 3 releases all harts at the entry point of the verified image. -/
  | hartRelease
  /-- R339. TILE command that drains the tile for self-test or queues the request. -/
  | selftest (c : CmdIn)
  /-- R339. A tile's DRAIN_LIMIT deadline fires and held items are redelivered before testing. -/
  | drainLimitExpiry (tile : Fin 32)
  /-- R339. A tile self-test ends; the tile returns to SERVICE or goes FAILED, and a queued test may start. -/
  | selftestComplete (tile : Fin 32) (result : BitVec 4) (where_ : BitVec 8)
  /-- R340. TILE command that writes a chunk of a canary record. -/
  | canaryWrite (c : CmdIn)
  /-- R340. After CANARY_INTERVAL packets a canary is walked and its SIG compared. -/
  | canaryRun (tile : Fin 32)
  /-- R343. CLUSTER command that ends a hart's held item and restarts it at RESTART_PC. -/
  | hartReset (c : CmdIn)
  /-- R349. A requester port presents a memory request, served by panic, weight and row-hit rules, with ECC and tag checks. -/
  | memoryRequest (port : Fin 48) (addr : Dword) (len : Nat) (write : Option (List Byte)) (hint : BitVec 2) (level : BitVec 10) (ecc : BitVec 2)
  /-- R352. MEMENC command that writes an encryption region entry. -/
  | regionWrite (c : CmdIn)
  /-- R357. MEMENC command that returns a region entry without keys. -/
  | regionRead (c : CmdIn)
  /-- R354. Controller command that initialises the PHY and DRAM for training. -/
  | trainStart (ddr : Bool) (c : CmdIn)
  /-- R354. Controller command that writes an active or shadow delay code of a lane. -/
  | dlyWrite (ddr : Bool) (c : CmdIn)
  /-- R356. Controller command that returns a lane's delay code. -/
  | dlyRead (ddr : Bool) (c : CmdIn)
  /-- R354. Controller command that runs a training pattern and returns a pass bitmap. -/
  | trainPattern (ddr : Bool) (c : CmdIn)
  /-- R354. Controller command that starts refresh and patrol scrub and accepts requests. -/
  | goActive (ddr : Bool) (c : CmdIn)
  /-- R354. Controller command that arms a delay-code swap at a deadline. -/
  | swap (ddr : Bool) (c : CmdIn)
  /-- R354. The first refresh of a rank at or after the swap deadline exchanges its code sets. -/
  | swapRankRefresh (ddr : Bool) (inst : Fin 8) (rank : BitVec 5)
  /-- R355. A patrol scrub deadline reads a line, correcting it or reporting it uncorrectable. -/
  | patrolScrubDeadline (ddr : Bool) (inst : Fin 8) (addr : Dword) (ecc : BitVec 2)
  /-- R361. TENANT command that opens a FREE tenant ID. -/
  | tenantOpen (c : CmdIn)
  /-- R361. TENANT command that flushes a tenant's entries and moves it to CLOSING. -/
  | tenantClose (c : CmdIn)
  /-- R375. TENANT command that returns a tenant's state and functions. -/
  | tenantQuery (c : CmdIn)
  /-- R359. TENANT command that assigns a function to an owner. -/
  | funcAssign (c : CmdIn)
  /-- R375. TENANT command that returns a function's owner. -/
  | funcQuery (c : CmdIn)
  /-- R365. A combining buffer adds its entries to the HBM meter banks within 10 µs. -/
  | combiningFlush (tile : Fin 32)
  /-- R376. METER command that returns a counter value from HBM. -/
  | mtrRead (c : CmdIn)
  /-- R376. METER command that returns a policer's tokens and last refill. -/
  | polRead (c : CmdIn)
  /-- R367. The 1 µs deadline refills the page's policers. -/
  | policerRefill (tile : Fin 32)
  /-- R367. A refused refill schedule is retried after 1 µs. -/
  | policerRefillRetry (tile : Fin 32)
  /-- R368. At boundary + SEAL_GRACE the bank is flushed, slices are built and the seal record hashed, or the minute is carried. -/
  | sealGraceExpiry
  /-- R368. Daxlia signs the seal record and the slices are copied to the ring. -/
  | sealSigned (r t : BitVec 384)
  /-- R372. Daxlia has not signed within 50 ms and the seal record is written UNSIGNED. -/
  | signTimeout
  /-- R377. A write of RING_CONS frees slice ring space and lets staged minutes be copied out. -/
  | ringConsWrite (who : Requester) (value : Word)
  /-- R379. An IDENT flit is checked and the twin link enters service or is REFUSED. -/
  | identRx (link : Fin 16) (pairId : Word) (rank : Bool) (num : BitVec 4) (credits : List Nat)
  /-- R379. A REFUSED link retries IDENT every 1 ms. -/
  | identRetry (link : Fin 16)
  /-- R385. A flit's header acknowledgements, NAKs and credits are taken, with replay and the retrain limit. -/
  | linkFlitRx (f : Flit)
  /-- R390. A MIRROR flit's records are applied in MSEQ order to the shadow or pages and MACK is sent. -/
  | mirrorRecordRx (f : Flit)
  /-- R389. A BULK flit's snapshot or handback records are applied. -/
  | bulkRecordRx (f : Flit)
  /-- R390. A MACK arrives and completions waiting for mirroring are made visible. -/
  | mackRx (mseq : BitVec 40)
  /-- R380. A BULK_DONE message moves the pair toward PAIRED. -/
  | bulkDoneRx
  /-- R380. A LEAVE message moves the pair to ALONE and discards the shadow. -/
  | leaveRx
  /-- R398. A HANDBACK message takes back objects handed over by the survivor. -/
  | handbackRx (port : BitVec 7)
  /-- R394. A TAKEOVER_DONE message from the survivor is received. -/
  | takeoverDoneRx
  /-- R388. A TIME flit of the time exchange is stamped, answered or used for the TWIN source offset. -/
  | timeFlitRx (link : Fin 16) (t1 t2 t3 t4 : Nat) (dt : Nat)
  /-- R387. A heartbeat is received, keeping the peer heard and giving its pair and time state. -/
  | heartbeatRx (link : Fin 16) (q0 q1 q2 : Dword) (dt : Nat)
  /-- R393. A TAKEOVER flit makes a PAIRED device take over. -/
  | takeoverFlitRx (link : Fin 16) (code : BitVec 8) (slots : List (List Dword))
  /-- R387. Every 250 ns a HEARTBEAT flit is sent on every link in service. -/
  | heartbeatTx
  /-- R388. Every 1 ms the rank 0 end sends the first TIME flit of an exchange. -/
  | timeExchangeStart
  /-- R392. Every MTR_SYNC the unsealed meter totals are sent as METER records. -/
  | mtrSyncTx
  /-- R393. No valid flit arrives for HB_LOSS, the peer is silent and takeover or fence is decided. -/
  | hbLossExpiry (slots : List (List Dword))
  /-- R387. No TWIN_LIVE_IN edge arrives for LIVE_LOSS and the pin is judged stopped. -/
  | liveLossExpiry
  /-- R387. An edge on TWIN_LIVE_IN restarts the LIVE_LOSS measurement. -/
  | twinLiveInEdge (dt : Nat)
  /-- R387. Every 500 ns the device toggles TWIN_LIVE_OUT while its safety island runs. -/
  | twinLiveOutToggle
  /-- R380. A twin's bulk copy ends and it sends BULK_DONE. -/
  | bulkCopyComplete
  /-- R401. TWIN command that leaves the pair. -/
  | leave (c : CmdIn)
  /-- R398. TWIN command that stops fetching for taken objects of a port to hand them back. -/
  | handback (c : CmdIn)
  /-- R398. In-flight work of handed-back objects has completed; they are sent over BULK and PAIR_CHANGE posted. -/
  | handbackDrained (port : BitVec 7)
  /-- R401. TWIN command that sends TAKEOVER flits so the peer takes over. -/
  | takeover (c : CmdIn)
  /-- R449. PWRGOOD rises: straps are sampled and stage 0 starts, or dies are held while a rail is low. -/
  | pwrgoodRise (bootSel : BitVec 3) (testMode : Bool)
  /-- R449. All rails have stayed above warning for 1 ms and the held dies leave reset. -/
  | pwrgoodHoldRelease
  /-- R449. PWRGOOD falls and every die except the safety island and Rack Time master resets. -/
  | pwrgoodFall
  /-- R449. VDD_AON is removed for 100 ms, clearing the safety island, sealed halts and THERMTRIP_N. -/
  | powerCycle
  /-- R402. Every 10 ms Daxlia re-reads the fuses and compares them with the shadow. -/
  | fuseRecheck (same : Bool)
  /-- R407. A 64 KiB stage block arrives, is hashed and made visible, or fails the slot. -/
  | loaderBlockRx (source : BitVec 3) (slotB : Bool) (stage : BitVec 3) (block : Nat) (bytes : List Byte)
  /-- R409. RECOV_DONE has not come within RECOV_WAIT and the push source fails. -/
  | recovWaitExpiry
  /-- R409. The twin has not started sending within 5 s and the twin source fails. -/
  | twinSourceWaitExpiry
  /-- R412. BOOT command that marks the running slot GOOD and completes outstanding raise and demotion. -/
  | slotGood (c : CmdIn)
  /-- R421. BOOT command that returns four boot log entries. -/
  | bootLogRead (c : CmdIn)
  /-- R410. BOOT command that writes 64 bytes of a pushed image. -/
  | recovWrite (c : CmdIn)
  /-- R410. BOOT command that closes a pushed image for checking. -/
  | recovDone (c : CmdIn)
  /-- R414. BOOT command that blows thermometer steps up to a count. -/
  | fuseSvn (c : CmdIn)
  /-- R419. DAXLIA command that returns a chunk of the device import public key. -/
  | importPub (c : CmdIn)
  /-- R419. DAXLIA command that takes the provider key and unwraps the import key. -/
  | importKey (c : CmdIn)
  /-- R420. DAXLIA command that returns a JTAG unlock nonce. -/
  | jtagChallenge (c : CmdIn)
  /-- R420. DAXLIA command that verifies a debug signature, zeroizes keys and unlocks JTAG. -/
  | jtagUnlock (c : CmdIn)
  /-- R422. DAXLIA command that returns a measurement. -/
  | measureRead (c : CmdIn)
  /-- R418. SPDM request over DOE. -/
  | getVersion (port : Fin 128)
  /-- R418. SPDM request over DOE. -/
  | getCapabilities (port : Fin 128)
  /-- R418. SPDM request over DOE. -/
  | negotiateAlgorithms (port : Fin 128) (p384 : Bool)
  /-- R418. SPDM request over DOE. -/
  | getDigests (port : Fin 128)
  /-- R418. SPDM request over DOE for certificate slot 0. -/
  | getCertificate (port : Fin 128) (slot : BitVec 8) (offset len : BitVec 16)
  /-- R418. SPDM challenge request over DOE. -/
  | challenge (port : Fin 128) (slot : BitVec 8) (nonce : List Byte)
  /-- R418. SPDM request that returns measurements in DMTF format; without a nonce, unsigned. -/
  | getMeasurements (port : Fin 128) (index : BitVec 8) (nonce : List Byte)
  /-- R420. JTAG instruction always available. -/
  | bypass
  /-- R420. JTAG instruction always available. -/
  | idcode
  /-- R420. JTAG instruction always available. -/
  | samplePreload
  /-- R420. JTAG instruction always available. -/
  | extest
  /-- R420. JTAG instruction always available. -/
  | extestPulse
  /-- R420. JTAG instruction always available. -/
  | extestTrain
  /-- R420. The tamper mesh or a glitch detector fires a sealed fault and Daxlia zeroizes its keys. -/
  | tamperDetect (cause : Fin 3)
  /-- R427. A fault source is raised and the collector records or merges it and takes its class's action. -/
  | faultRaise (fsn : BitVec 12) (cause : Word) (info : BitVec 16)
  /-- R430. A unit reset completes and the unit enters QUIET or waits for a quiet entry. -/
  | unitResetComplete (pg : PageRef)
  /-- R430. A quiet deadline fires and the unit returns to service or resets again. -/
  | quietExpiry (pg : PageRef)
  /-- R435. The lockstep collector copies disagree and the escalator fires. -/
  | collectorDisagreement
  /-- R435. The collector watchdog expires and the escalator fires. -/
  | collectorWatchdogExpiry
  /-- R435. One second after an escalation, ESC_STAT.RECENT clears. -/
  | recentExpiry
  /-- R426. FAULT command that writes a severity entry. -/
  | sevWrite (c : CmdIn)
  /-- R426. FAULT command that returns a severity entry. -/
  | sevRead (c : CmdIn)
  /-- R442. FAULT command that returns two fault log records. -/
  | faultLogRead (c : CmdIn)
  /-- R442. FAULT command that returns a unit's recovery state and recoveries. -/
  | unitQuery (c : CmdIn)
  /-- R430. FAULT command that restarts a DOWN unit or closes an OPEN class 2 record. -/
  | unitRestore (c : CmdIn)
  /-- R434. A write of PIN_CTRL.MODE sets how FAULT_N is driven, deferred until a pulse ends. -/
  | pinCtrlWrite (who : Requester) (value : Word)
  /-- R434. A write of PIN_CLR releases a held FAULT_N. -/
  | pinClrWrite (who : Requester) (value : Word)
  /-- R434. The FAULT_N pulse ends and PIN_CTRL.MODE governs the pin. -/
  | faultNPulseEnd
  /-- R442. A write of LOG_CONS advances the fault log consumer or is ignored. -/
  | logConsWrite (who : Requester) (value : Word)
  /-- R436. In test mode an ARM write of INJ_CTRL raises the named fault source as injected. -/
  | injCtrlArm (who : Requester) (value : Word)
  /-- R438. A rail falls below its warning level and the device enters or stays in brownout HOLD. -/
  | railBelowWarning (ch : Fin 32) (mv : BitVec 16)
  /-- R438. Every rail is back above warning and the hold-end deadline is scheduled. -/
  | railAboveWarning (ch : Fin 32) (mv : BitVec 16)
  /-- R438. The hold-end deadline fires and clocks and dispatch are restored. -/
  | holdEndExpiry
  /-- R437. A rail reaches its reset level and raises FSN 0x007. -/
  | railResetLevel (ch : Fin 32) (mv : BitVec 16)
  /-- R439. Every 100 µs the sensors are read and the throttle level set. -/
  | thermalSample (temps : List (Option (BitVec 16)))
  /-- R440. A sensor reaches 125 °C, latching THERMTRIP_N and raising FSN 0x008. -/
  | thermalTrip (sensor : Fin 64)
  /-- R456. An I3C private write of 8 bytes performs a register write for the management interface. -/
  | mgmtPrivateWrite (addr : Word) (value : Word) (busy : Bool)
  /-- R456. An I3C private write of an address followed by a read returns a register. -/
  | mgmtPrivateRead (addr : Word) (busy : Bool)
  /-- R466. MGMT command that reads 64 bytes from a DIMM's SPD hub. -/
  | spdRead (c : CmdIn)
  /-- R465. A GPIO input changes level and PG_ISTAT bit 0 is raised. -/
  | gpioInputChange (levels : BitVec 8)
  /-- R99. A malformed TLP, or one that fails its ECRC check, arrives at a host port; it is discarded, reported through AER on function 0 and counted in HPORT PG_ERRCNT2 or PG_ERRCNT3. -/
  | malformedTlpRx (port : Fin 128) (ecrc : Bool)
  deriving DecidableEq, Repr

end Sys2Proof
end

