-- ==== Sys2Proof/WellFormed.lean ====
section
/-! DEFINITION. The shapes a command must have, beyond what its types say. -/

namespace Sys2Proof

/-- A page command writes at most the 64 bytes of the data window (R51). -/
def CmdIn.wf (c : CmdIn) : Bool := c.data.length ≤ 8

/-- A flit carries 240 bytes of payload (R382). -/
def Flit.wf (f : Flit) : Bool := f.payload.length ≤ 30

/-- An NVMe submission queue entry is 64 bytes (R277). -/
def sqeWf (d : List Dword) : Bool := d.length == 8

/-- The command has the shape its rule gives it. -/
def WellFormed (i : Instr) : Bool :=
  match i with
  | .registerWrite _ _ _ _ => true
  | .w1cWrite _ _ _ _ => true
  | .rcRead _ _ _ => true
  | .reg64LoRead _ _ => true
  | .reg64HiWrite _ _ _ => true
  | .pgItestWrite _ _ _ => true
  | .pgCtrlLock _ _ => true
  | .pgCtrlFreeze _ _ _ => true
  | .pgCtrlSoftReset _ _ => true
  | .softResetComplete _ => true
  | .pgCtrlEnableWrite _ _ _ => true
  | .commandEnd _ => true
  | .cmdLimitExpiry _ => true
  | .intRearmWrite _ _ => true
  | .routeWrite _ _ _ => true
  | .ptpOffsetCommit _ _ => true
  | .ptpTimeoutExpiry => true
  | .ppsInEdge _ => true
  | .ppsInMissing => true
  | .trefInOutOfRange _ => true
  | .qualTimeExpiry _ => true
  | .forceHoldoverWrite _ _ => true
  | .sourceEnableWrite _ _ => true
  | .sourceRankWrite _ _ => true
  | .minuteOffsetWrite _ _ => true
  | .stepApply => true
  | .minuteBoundary => true
  | .armSeals c => c.wf
  | .laneCal c => c.wf
  | .laneCalComplete _ _ => true
  | .ppsOutPulse _ => true
  | .schedule c => c.wf
  | .cancel c => c.wf
  | .query c => c.wf
  | .calEventFire _ => true
  | .calLevelCascade _ => true
  | .calSpillReturn _ => true
  | .up c => c.wf
  | .down c => c.wf
  | .recal c => c.wf
  | .octetCalComplete _ _ offsets => offsets.length == 8
  | .portLinkUp _ _ _ _ => true
  | .portLinkDown _ _ => true
  | .hprsntNChange _ _ => true
  | .prsntDebounceExpiry _ => true
  | .hostLinkLeaveL0 _ => true
  | .linkGraceExpiry _ => true
  | .hostLinkTrained _ _ _ _ => true
  | .perstNAssert _ => true
  | .perstNDeassert _ => true
  | .quarantineExpiry _ => true
  | .quarScheduleRetry _ => true
  | .reattachAccept c => c.wf
  | .reattachRefuse c => c.wf
  | .ethFrameRx _ _ _ _ _ => true
  | .dportInboundRequest _ _ _ len _ => decide (0 < len)
  | .configRequest _ _ _ _ => true
  | .powerStateWrite _ _ _ => true
  | .initiateFlr _ _ => true
  | .hotReset _ => true
  | .flrComplete _ _ => true
  | .drainComplete _ _ => true
  | .functionsReady _ => true
  | .poisonedWriteRx _ _ => true
  | .unexpectedCompletionRx _ _ => true
  | .completionTimeout _ => true
  | .vfAlloc c => c.wf
  | .msixAlloc c => c.wf
  | .funcReset c => c.wf
  | .windowTlpRx _ _ len _ _ => decide (0 < len)
  | .windowTargetCompletion _ _ _ => true
  | .winWrite c => c.wf
  | .winRead c => c.wf
  | .windowCommit c => c.wf
  | .doorbell _ _ _ _ => true
  | .provDb _ _ _ => true
  | .descriptorReadComplete _ _ => true
  | .qcResume _ _ _ => true
  | .erConsWrite _ _ _ _ => true
  | .erArmWrite _ _ _ _ => true
  | .qCreate c => c.wf
  | .qDestroy c => c.wf
  | .qStop c => c.wf
  | .qStart c => c.wf
  | .qResume c => c.wf
  | .qQuery c => c.wf
  | .erCreate c => c.wf
  | .erDestroy c => c.wf
  | .rxHoldExpiry _ => true
  | .payloadReadComplete _ _ => true
  | .frameSent _ => true
  | .setup c => c.wf
  | .start c => c.wf
  | .stop c => c.wf
  | .resume c => c.wf
  | .release c => c.wf
  | .dmaDoorbell _ _ _ => true
  | .dmaReadDataReturn _ _ => true
  | .dmaDescriptorComplete _ => true
  | .dmaFlushReadReturn _ _ => true
  | .dmaRateWindow _ => true
  | .nodeWrite c => c.wf
  | .nodeRead c => c.wf
  | .profCommit c => c.wf
  | .profCopyBack _ _ => true
  | .portProf c => c.wf
  | .portQuery c => c.wf
  | .fragParkExpiry _ => true
  | .fragLifeExpiry _ => true
  | .fragFlushTenant c => c.wf
  | .keyprofWrite c => c.wf
  | .rangeWrite c => c.wf
  | .arecWrite c => c.wf
  | .tmplWrite c => c.wf
  | .keyprofRead c => c.wf
  | .rangeRead c => c.wf
  | .arecRead c => c.wf
  | .tmplRead c => c.wf
  | .hprofWrite c => c.wf
  | .tkeyWrite c => c.wf
  | .pgrpWrite c => c.wf
  | .stblWrite c => c.wf
  | .vportWrite c => c.wf
  | .hprofRead c => c.wf
  | .tkeyRead c => c.wf
  | .pgrpRead c => c.wf
  | .stblRead c => c.wf
  | .vportRead c => c.wf
  | .paceRelease _ _ => true
  | .tableRead _ c => c.wf
  | .tableWrite _ c => c.wf
  | .insert _ c => c.wf
  | .delete _ c => c.wf
  | .search _ c => c.wf
  | .cas _ c => c.wf
  | .move _ c => c.wf
  | .tableFlushTenant _ c => c.wf
  | .tcamScanTick _ => true
  | .scrubRepair _ _ => true
  | .flowScanStart => true
  | .flowScanPassEnd => true
  | .flowQueuedRemoval _ => true
  | .macSweepStart => true
  | .tableSchedRetry _ => true
  | .learnRequest => true
  | .nrConsWrite _ _ => true
  | .qpCreate c => c.wf
  | .qpModifyRtr c => c.wf
  | .qpModifyRts c => c.wf
  | .qpModifyError c => c.wf
  | .qpModifyInit c => c.wf
  | .qpQuery c => c.wf
  | .qpDestroy c => c.wf
  | .mkeyWrite c => c.wf
  | .mkeyInvalidate c => c.wf
  | .mkeyRead c => c.wf
  | .rdmaRequestRx _ => true
  | .rdmaAckRx _ _ _ _ => true
  | .rdmaNakRx _ _ _ _ => true
  | .rnrNakRx _ _ => true
  | .readResponseRx _ _ _ _ _ => true
  | .atomicAckRx _ _ _ => true
  | .cnpRx _ => true
  | .retransmitTimerFire _ => true
  | .rnrWaitExpiry _ => true
  | .rdmaTimerRetry _ => true
  | .hostAtomicCompletion _ _ _ => true
  | .contextDemand _ => true
  | .contextFetchComplete _ _ => true
  | .contextWritebackComplete _ _ => true
  | .tquotaWrite c => c.wf
  | .tquotaRead c => c.wf
  | .ctxQuery c => c.wf
  | .evict c => c.wf
  | .setClass c => c.wf
  | .hbRegister _ _ => true
  | .hbDrain _ _ => true
  | .hbDrainComplete _ => true
  | .parkTimeExpiry _ => true
  | .storeChargeTick => true
  | .levainSchedRetry => true
  | .ccEnable _ _ _ => true
  | .ccDisable _ _ _ => true
  | .ccShutdown _ _ _ => true
  | .nvmeSqTailDoorbell _ _ _ _ => true
  | .nvmeCqHeadDoorbell _ _ _ _ => true
  | .nvmeFetchTurn _ sqes => sqes.all sqeWf
  | .nvmeFlush _ _ sqe => sqeWf sqe
  | .nvmeWrite _ _ sqe => sqeWf sqe
  | .nvmeRead _ _ sqe => sqeWf sqe
  | .nvmeWriteZeroes _ _ sqe => sqeWf sqe
  | .nvmeDatasetManagement _ _ sqe _ => sqeWf sqe
  | .createIoSq _ _ sqe => sqeWf sqe
  | .createIoCq _ _ sqe => sqeWf sqe
  | .deleteIoSq _ _ sqe => sqeWf sqe
  | .deleteIoCq _ _ sqe => sqeWf sqe
  | .getLogPage _ _ sqe => sqeWf sqe
  | .identify _ _ sqe => sqeWf sqe
  | .abort _ _ sqe => sqeWf sqe
  | .setFeatures _ _ sqe => sqeWf sqe
  | .getFeatures _ _ sqe => sqeWf sqe
  | .asynchronousEventRequest _ _ sqe => sqeWf sqe
  | .rangeLockGrant _ => true
  | .backingCompletion _ _ _ => true
  | .bkTimeoutExpiry _ => true
  | .bkHoldExpiry _ => true
  | .bkSchedRetry _ _ => true
  | .coalescingTimeExpiry _ => true
  | .ctrlCreate c => c.wf
  | .ctrlDestroy c => c.wf
  | .ctrlQuery c => c.wf
  | .nsCreate c => c.wf
  | .nsDestroy c => c.wf
  | .nsAttach c => c.wf
  | .nsDetach c => c.wf
  | .nsRebind c => c.wf
  | .bkqWrite c => c.wf
  | .bkDown c => c.wf
  | .mgmtIdentify c => c.wf
  | .mgmtGetLogPage c => c.wf
  | .firmwareImageDownload c => c.wf
  | .firmwareCommitWrite c => c.wf
  | .firmwareCommitWriteActivate c => c.wf
  | .firmwareCommitActivate c => c.wf
  | .rlQuery c => c.wf
  | .job c => c.wf
  | .cipherJobComplete _ _ => true
  | .slotFetchComplete _ _ => true
  | .drbgHealthFailure => true
  | .drbgRecovery => true
  | .keyStage c => c.wf
  | .slotWrite c => c.wf
  | .slotRead c => c.wf
  | .slotInvalidate c => c.wf
  | .saWrite c => c.wf
  | .saRead c => c.wf
  | .saDisable c => c.wf
  | .wget _ => true
  | .wgetWaitExpiry _ => true
  | .wput _ => true
  | .wdone _ => true
  | .clock _ => true
  | .cunlock _ => true
  | .crcc _ => true
  | .tplz _ => true
  | .calloc _ => true
  | .cfree _ => true
  | .tset _ => true
  | .tcancel _ => true
  | .krtimeRead _ => true
  | .lockLimitExpiry _ => true
  | .qcfgWrite c => c.wf
  | .qcfgRead c => c.wf
  | .tweightWrite c => c.wf
  | .prooferFlushTenant c => c.wf
  | .hartRelease => true
  | .selftest c => c.wf
  | .drainLimitExpiry _ => true
  | .selftestComplete _ _ _ => true
  | .canaryWrite c => c.wf
  | .canaryRun _ => true
  | .hartReset c => c.wf
  | .memoryRequest _ _ len _ _ _ _ => decide (0 < len)
  | .regionWrite c => c.wf
  | .regionRead c => c.wf
  | .trainStart _ c => c.wf
  | .dlyWrite _ c => c.wf
  | .dlyRead _ c => c.wf
  | .trainPattern _ c => c.wf
  | .goActive _ c => c.wf
  | .swap _ c => c.wf
  | .swapRankRefresh _ _ _ => true
  | .patrolScrubDeadline _ _ _ _ => true
  | .tenantOpen c => c.wf
  | .tenantClose c => c.wf
  | .tenantQuery c => c.wf
  | .funcAssign c => c.wf
  | .funcQuery c => c.wf
  | .combiningFlush _ => true
  | .mtrRead c => c.wf
  | .polRead c => c.wf
  | .policerRefill _ => true
  | .policerRefillRetry _ => true
  | .sealGraceExpiry => true
  | .sealSigned _ _ => true
  | .signTimeout => true
  | .ringConsWrite _ _ => true
  | .identRx _ _ _ _ credits => credits.length == 8
  | .identRetry _ => true
  | .linkFlitRx f => f.wf
  | .mirrorRecordRx f => f.wf
  | .bulkRecordRx f => f.wf
  | .mackRx _ => true
  | .bulkDoneRx => true
  | .leaveRx => true
  | .handbackRx _ => true
  | .takeoverDoneRx => true
  | .timeFlitRx _ _ _ _ _ _ => true
  | .heartbeatRx _ _ _ _ _ => true
  | .takeoverFlitRx _ _ _ => true
  | .heartbeatTx => true
  | .timeExchangeStart => true
  | .mtrSyncTx => true
  | .hbLossExpiry _ => true
  | .liveLossExpiry => true
  | .twinLiveInEdge _ => true
  | .twinLiveOutToggle => true
  | .bulkCopyComplete => true
  | .leave c => c.wf
  | .handback c => c.wf
  | .handbackDrained _ => true
  | .takeover c => c.wf
  | .pwrgoodRise _ _ => true
  | .pwrgoodHoldRelease => true
  | .pwrgoodFall => true
  | .powerCycle => true
  | .fuseRecheck _ => true
  | .loaderBlockRx _ _ _ _ bytes => decide (bytes.length ≤ 131072)
  | .recovWaitExpiry => true
  | .twinSourceWaitExpiry => true
  | .slotGood c => c.wf
  | .bootLogRead c => c.wf
  | .recovWrite c => c.wf
  | .recovDone c => c.wf
  | .fuseSvn c => c.wf
  | .importPub c => c.wf
  | .importKey c => c.wf
  | .jtagChallenge c => c.wf
  | .jtagUnlock c => c.wf
  | .measureRead c => c.wf
  | .getVersion _ => true
  | .getCapabilities _ => true
  | .negotiateAlgorithms _ _ => true
  | .getDigests _ => true
  | .getCertificate _ _ _ _ => true
  | .challenge _ _ nonce => nonce.length == 32
  | .getMeasurements _ _ nonce => nonce.isEmpty || nonce.length == 32
  | .bypass => true
  | .idcode => true
  | .samplePreload => true
  | .extest => true
  | .extestPulse => true
  | .extestTrain => true
  | .tamperDetect _ => true
  | .faultRaise _ _ _ => true
  | .unitResetComplete _ => true
  | .quietExpiry _ => true
  | .collectorDisagreement => true
  | .collectorWatchdogExpiry => true
  | .recentExpiry => true
  | .sevWrite c => c.wf
  | .sevRead c => c.wf
  | .faultLogRead c => c.wf
  | .unitQuery c => c.wf
  | .unitRestore c => c.wf
  | .pinCtrlWrite _ _ => true
  | .pinClrWrite _ _ => true
  | .faultNPulseEnd => true
  | .logConsWrite _ _ => true
  | .injCtrlArm _ _ => true
  | .railBelowWarning _ _ => true
  | .railAboveWarning _ _ => true
  | .holdEndExpiry => true
  | .railResetLevel _ _ => true
  | .thermalSample temps => temps.length == 64
  | .thermalTrip _ => true
  | .mgmtPrivateWrite _ _ _ => true
  | .mgmtPrivateRead _ _ => true
  | .spdRead c => c.wf
  | .gpioInputChange _ => true
  | .malformedTlpRx _ _ => true

end Sys2Proof
end

