-- ==== Sys2Proof/Machine/RegMap.lean ====
section
/-! DEFINITION. The register pages of the manual, row by row: R39, R44, R51, R64, R85 to R87, R104, R105, R133, R146,
R165, R166, R186, R187, R216 to R220, R252, R272, R296 to R318, R341 to R343, R356, R357, R375 to R377, R400, R421,
R422, R442, R445, R446, R465. A row's `mask` holds the bits that the row names (log 4), `lo` and `hi` its range,
`err` the counter of a write outside it. -/

namespace Sys2Proof.Machine

/-- The access codes of R8. -/
inductive Acc where
  | rw | ro | w1c | rc | wo | rwl
  deriving DecidableEq, Repr

/-- One row of a page's register table: `n` registers from `off`, `stride` apart; `pair`: LO and HI words of R50;
`stat`: a 64-bit statistics counter (R7, R52). -/
structure RegRow where
  off    : Nat
  n      : Nat
  stride : Nat
  acc    : Acc
  reset  : Nat
  mask   : Nat
  lo     : Nat
  hi     : Nat
  err    : Nat
  pair   : Bool
  stat   : Bool
  deriving DecidableEq, Repr

/-- A register of the manual by block type code and offset. -/
abbrev RegId := Nat × Nat

/-- The first word of a 64-bit register, for a table row. -/
def RegRow.covers (r : RegRow) (off : Nat) : Bool :=
  r.off ≤ off && (off - r.off) / r.stride < r.n &&
    ((off - r.off) % r.stride == 0 || (r.pair && (off - r.off) % r.stride == 4)) ||
  (r.pair && r.n == 1 && off == r.off + 4)

/-- Registers of the TBLCOMMON pages HTBL, TCAM, FLOW and LEARN (R216). -/
def tblcommonRows : List RegRow :=
  [⟨0x100, 1, 4, .ro, 0x0, 0xFFFFFFFF, 0, 4294967295, 99, false, false⟩,
   ⟨0x104, 1, 4, .ro, 0x0, 0xFFFFFFFF, 0, 4294967295, 99, false, false⟩,
   ⟨0x108, 1, 4, .ro, 0x0, 0xFFFFFFFF, 0, 4294967295, 99, false, false⟩,
   ⟨0x10C, 1, 4, .ro, 0x0, 0xFFFFFFFF, 0, 4294967295, 99, false, false⟩]

/-- Registers of the HUB page. -/
def hubRows : List RegRow :=
  [⟨0x100, 8, 4, .ro, 0x0, 0xFFFFFFFF, 0, 4294967295, 99, false, false⟩,
   ⟨0x120, 1, 4, .rw, 0x0, 0xFF, 0, 4294967295, 99, false, false⟩,
   ⟨0x124, 1, 4, .wo, 0x0, 0xFF, 0, 4294967295, 99, false, false⟩,
   ⟨0x128, 1, 4, .rw, 0x2710, 0xFFFFFFFF, 0, 4294967295, 99, false, false⟩,
   ⟨0x12C, 1, 4, .rc, 0x0, 0xFFFFFFFF, 0, 4294967295, 99, false, false⟩,
   ⟨0x140, 16, 4, .ro, 0x0, 0xFFFFFFFF, 0, 4294967295, 99, false, false⟩,
   ⟨0x400, 256, 4, .rwl, 0x0, 0xB00007FF, 0, 4294967295, 99, false, false⟩,
   ⟨0x800, 256, 4, .rwl, 0x0, 0xFF, 0, 4294967295, 99, false, false⟩]

/-- Registers of the RTIME page. -/
def rtimeRows : List RegRow :=
  [⟨0x100, 1, 4, .ro, 0x0, 0xFFFFFFFF, 0, 4294967295, 99, false, false⟩,
   ⟨0x104, 1, 4, .ro, 0x0, 0xFFFFFFFF, 0, 4294967295, 99, false, false⟩,
   ⟨0x108, 1, 4, .ro, 0x0, 0xFFFFFFFF, 0, 4294967295, 99, false, false⟩,
   ⟨0x10C, 1, 4, .ro, 0x0, 0xFFFFFFFF, 0, 4294967295, 99, false, false⟩,
   ⟨0x110, 1, 4, .rw, 0x39, 0x8000073F, 0, 4294967295, 99, false, false⟩,
   ⟨0x114, 1, 4, .rw, 0x3E8, 0xFFFFFFFF, 1, 4294967295, 2, false, false⟩,
   ⟨0x118, 1, 4, .rw, 0x186A0, 0xFFFFFFFF, 0, 4294967295, 99, false, false⟩,
   ⟨0x11C, 1, 4, .rw, 0x0, 0x3F, 0, 59, 2, false, false⟩,
   ⟨0x120, 1, 4, .wo, 0x0, 0xFFFFFFFF, 0, 4294967295, 99, false, false⟩,
   ⟨0x124, 1, 4, .wo, 0x0, 0xFFFFFFFF, 0, 4294967295, 99, false, false⟩,
   ⟨0x128, 1, 4, .rw, 0xBB8, 0xFFFFFFFF, 0, 4294967295, 99, false, false⟩,
   ⟨0x12C, 1, 4, .rw, 0xA, 0xFFFFFFFF, 0, 4294967295, 99, false, false⟩,
   ⟨0x130, 1, 4, .rw, 0x32, 0xFFFFFFFF, 0, 4294967295, 99, false, false⟩,
   ⟨0x134, 1, 4, .rw, 0x0, 0x3F, 0, 4294967295, 99, false, false⟩,
   ⟨0x138, 1, 4, .rw, 0x5F5E100, 0xFFFFFFFF, 1000, 500000000, 2, false, false⟩,
   ⟨0x13C, 1, 4, .rw, 0x0, 0xFFFFFFFF, 0, 4294967295, 99, false, false⟩,
   ⟨0x140, 1, 4, .ro, 0x0, 0xFFFFFFFF, 0, 4294967295, 99, false, false⟩,
   ⟨0x144, 1, 4, .ro, 0x0, 0xFFFFFFFF, 0, 4294967295, 99, false, false⟩,
   ⟨0x148, 1, 4, .ro, 0x0, 0xFFFFFFFF, 0, 4294967295, 99, true, false⟩,
   ⟨0x150, 1, 4, .ro, 0x0, 0xFFFFFFFF, 0, 4294967295, 99, true, false⟩,
   ⟨0x158, 1, 4, .ro, 0x0, 0xFFFFFFFF, 0, 4294967295, 99, true, true⟩,
   ⟨0x160, 1, 4, .ro, 0x0, 0xFFFFFFFF, 0, 4294967295, 99, true, false⟩]

/-- Registers of the FAULT page. -/
def faultRows : List RegRow :=
  [⟨0x100, 1, 4, .rw, 0x0, 0x3, 0, 4294967295, 99, false, false⟩,
   ⟨0x104, 1, 4, .rw, 0x3, 0x7, 0, 4294967295, 99, false, false⟩,
   ⟨0x108, 1, 4, .wo, 0x0, 0x1, 0, 4294967295, 99, false, false⟩,
   ⟨0x10C, 1, 4, .ro, 0x0, 0xFFFFFFFF, 0, 4294967295, 99, false, false⟩,
   ⟨0x110, 1, 4, .ro, 0x0, 0xFFFFFFFF, 0, 4294967295, 99, false, false⟩,
   ⟨0x114, 1, 4, .rw, 0x0, 0xFFFFFFFF, 0, 4294967295, 99, false, false⟩,
   ⟨0x118, 1, 4, .ro, 0x0, 0xFFFFFFFF, 0, 4294967295, 99, false, false⟩,
   ⟨0x11C, 1, 4, .ro, 0x0, 0xFFFFFFFF, 0, 4294967295, 99, false, false⟩,
   ⟨0x120, 1, 4, .ro, 0x0, 0xFFFFFFFF, 0, 4294967295, 99, true, true⟩,
   ⟨0x128, 1, 4, .ro, 0x0, 0xFFFFFFFF, 0, 4294967295, 99, true, true⟩,
   ⟨0x180, 1, 4, .rw, 0x0, 0x80000FFF, 0, 4294967295, 99, false, false⟩,
   ⟨0x184, 1, 4, .rw, 0x0, 0xFFFFFFFF, 0, 4294967295, 99, false, false⟩]

/-- Registers of the BOOT page. -/
def bootRows : List RegRow :=
  [⟨0x100, 1, 4, .ro, 0x0, 0xFFFFFFFF, 0, 4294967295, 99, false, false⟩,
   ⟨0x104, 1, 4, .ro, 0x0, 0xFFFFFFFF, 0, 4294967295, 99, false, false⟩,
   ⟨0x108, 1, 4, .ro, 0x0, 0xFFFFFFFF, 0, 4294967295, 99, false, false⟩,
   ⟨0x10C, 1, 4, .ro, 0x0, 0xFFFFFFFF, 0, 4294967295, 99, false, false⟩,
   ⟨0x110, 1, 4, .ro, 0x0, 0xFFFFFFFF, 0, 4294967295, 99, false, false⟩,
   ⟨0x114, 4, 4, .ro, 0x0, 0xFFFFFFFF, 0, 4294967295, 99, false, false⟩,
   ⟨0x124, 1, 4, .ro, 0x0, 0xFFFFFFFF, 0, 4294967295, 99, false, false⟩,
   ⟨0x128, 1, 4, .ro, 0x0, 0xFFFFFFFF, 0, 4294967295, 99, false, false⟩,
   ⟨0x12C, 1, 4, .ro, 0x0, 0xFFFFFFFF, 0, 4294967295, 99, false, false⟩,
   ⟨0x130, 1, 4, .ro, 0x0, 0xFFFFFFFF, 0, 4294967295, 99, true, false⟩]

/-- Registers of the DAXLIA page. -/
def daxliaRows : List RegRow :=
  [⟨0x100, 1, 4, .ro, 0x0, 0xFFFFFFFF, 0, 4294967295, 99, false, false⟩,
   ⟨0x104, 1, 4, .ro, 0x0, 0xFFFFFFFF, 0, 4294967295, 99, false, false⟩,
   ⟨0x108, 1, 4, .ro, 0x0, 0xFFFFFFFF, 0, 4294967295, 99, true, false⟩,
   ⟨0x110, 1, 4, .ro, 0x0, 0xFFFFFFFF, 0, 4294967295, 99, false, false⟩]

/-- Registers of the CAL page. -/
def calRows : List RegRow :=
  [⟨0x100, 1, 4, .ro, 0x0, 0xFFFFFFFF, 0, 4294967295, 99, false, false⟩,
   ⟨0x104, 1, 4, .rc, 0x0, 0xFFFFFFFF, 0, 4294967295, 99, false, false⟩,
   ⟨0x108, 1, 4, .rw, 0xEA60, 0xFFFFFFFF, 0, 4294967295, 99, false, false⟩,
   ⟨0x10C, 1, 4, .rw, 0xBB80, 0xFFFFFFFF, 0, 4294967295, 99, false, false⟩,
   ⟨0x110, 1, 4, .rwl, 0x0, 0xFFFFFFFF, 0, 4294967295, 99, true, false⟩,
   ⟨0x118, 1, 4, .rwl, 0x0, 0xFFFFFFFF, 0, 4294967295, 99, false, false⟩,
   ⟨0x11C, 1, 4, .ro, 0x0, 0xFFFFFFFF, 0, 4294967295, 99, false, false⟩,
   ⟨0x120, 1, 4, .ro, 0x0, 0xFFFFFFFF, 0, 4294967295, 99, true, true⟩,
   ⟨0x128, 1, 4, .ro, 0x0, 0xFFFFFFFF, 0, 4294967295, 99, true, true⟩,
   ⟨0x130, 1, 4, .ro, 0x0, 0xFFFFFFFF, 0, 4294967295, 99, true, true⟩,
   ⟨0x138, 1, 4, .rc, 0x0, 0xFFFFFFFF, 0, 4294967295, 99, false, false⟩]

/-- Registers of the OCTET page. -/
def octetRows : List RegRow :=
  [⟨0x100, 1, 4, .rw, 0x0, 0x337, 0, 4294967295, 99, false, false⟩,
   ⟨0x104, 1, 4, .ro, 0x0, 0xFFFFFFFF, 0, 4294967295, 99, false, false⟩,
   ⟨0x108, 1, 4, .ro, 0x0, 0xFFFFFFFF, 0, 4294967295, 99, false, false⟩,
   ⟨0x10C, 1, 4, .ro, 0x0, 0xFFFFFFFF, 0, 4294967295, 99, false, false⟩,
   ⟨0x110, 1, 4, .rw, 0xEA60, 0xFFFFFFFF, 1, 4294967295, 5, false, false⟩,
   ⟨0x114, 1, 4, .rw, 0x1, 0x1, 0, 4294967295, 99, false, false⟩,
   ⟨0x118, 1, 4, .ro, 0x0, 0xFFFFFFFF, 0, 4294967295, 99, false, false⟩,
   ⟨0x11C, 1, 4, .rw, 0x2710, 0xFFFFFFFF, 0, 4294967295, 99, false, false⟩,
   ⟨0x120, 1, 4, .rw, 0x186A0, 0xFFFFFFFF, 0, 4294967295, 99, false, false⟩,
   ⟨0x124, 1, 4, .rw, 0x0, 0x1F, 0, 4294967295, 99, false, false⟩,
   ⟨0x140, 8, 4, .ro, 0x0, 0xFFFFFFFF, 0, 4294967295, 99, false, false⟩]

/-- Registers of the HPORT page. -/
def hportRows : List RegRow :=
  [⟨0x100, 1, 4, .rwl, 0x1, 0x31, 0, 4294967295, 99, false, false⟩,
   ⟨0x104, 1, 4, .rwl, 0x0, 0xFFFF, 0, 4294967295, 99, false, false⟩,
   ⟨0x108, 1, 4, .rw, 0x0, 0x3F, 0, 4294967295, 99, false, false⟩,
   ⟨0x10C, 1, 4, .ro, 0x0, 0xFFFFFFFF, 0, 4294967295, 99, false, false⟩,
   ⟨0x110, 1, 4, .ro, 0x0, 0xFFFFFFFF, 0, 4294967295, 99, false, false⟩,
   ⟨0x114, 1, 4, .ro, 0x0, 0xFFFFFFFF, 0, 4294967295, 99, false, false⟩,
   ⟨0x118, 1, 4, .ro, 0x0, 0xFFFFFFFF, 0, 4294967295, 99, false, false⟩,
   ⟨0x11C, 1, 4, .ro, 0x0, 0xFFFFFFFF, 0, 4294967295, 99, false, false⟩,
   ⟨0x120, 1, 4, .ro, 0x0, 0xFFFFFFFF, 0, 4294967295, 99, false, false⟩,
   ⟨0x124, 1, 4, .ro, 0x20000, 0xFFFFFFFF, 0, 4294967295, 99, false, false⟩,
   ⟨0x128, 1, 4, .ro, 0x0, 0xFFFFFFFF, 0, 4294967295, 99, false, false⟩,
   ⟨0x12C, 1, 4, .ro, 0x0, 0xFFFFFFFF, 0, 4294967295, 99, false, false⟩,
   ⟨0x130, 1, 4, .ro, 0x0, 0xFFFFFFFF, 0, 4294967295, 99, true, true⟩]

/-- Registers of the EMAC page. -/
def emacRows : List RegRow :=
  [⟨0x100, 1, 4, .rw, 0x0, 0xFF, 0, 4294967295, 99, false, false⟩,
   ⟨0x104, 1, 4, .rw, 0x0, 0xFFFFFFFF, 0, 4294967295, 99, false, false⟩,
   ⟨0x108, 1, 4, .rw, 0x0, 0xFFFF, 0, 4294967295, 99, false, false⟩,
   ⟨0x10C, 1, 4, .ro, 0x0, 0xFFFFFFFF, 0, 4294967295, 99, false, false⟩,
   ⟨0x110, 1, 4, .rw, 0x2580, 0xFFFFFFFF, 64, 9600, 0, false, false⟩,
   ⟨0x114, 1, 4, .rw, 0x0, 0xF07, 0, 4294967295, 99, false, false⟩,
   ⟨0x118, 1, 4, .ro, 0x0, 0xFFFFFFFF, 0, 4294967295, 99, true, true⟩]

/-- Registers of the TWIN page. -/
def twinRows : List RegRow :=
  [⟨0x100, 1, 4, .ro, 0x0, 0xFFFFFFFF, 0, 4294967295, 99, false, false⟩,
   ⟨0x104, 1, 4, .ro, 0x0, 0xFFFFFFFF, 0, 4294967295, 99, false, false⟩,
   ⟨0x108, 1, 4, .ro, 0x0, 0xFFFFFFFF, 0, 4294967295, 99, false, false⟩,
   ⟨0x10C, 1, 4, .rw, 0x0, 0xFFFFFFFF, 0, 4294967295, 99, false, false⟩,
   ⟨0x110, 1, 4, .ro, 0x0, 0xFFFFFFFF, 0, 4294967295, 99, true, true⟩,
   ⟨0x118, 1, 4, .ro, 0x0, 0xFFFFFFFF, 0, 4294967295, 99, true, true⟩,
   ⟨0x120, 1, 4, .ro, 0x0, 0xFFFFFFFF, 0, 4294967295, 99, true, true⟩,
   ⟨0x128, 1, 4, .ro, 0x0, 0xFFFFFFFF, 0, 4294967295, 99, true, true⟩,
   ⟨0x200, 1, 4, .rwl, 0x0, 0x3, 0, 4294967295, 99, false, false⟩,
   ⟨0x204, 1, 4, .rwl, 0x0, 0xFFFFFFFF, 0, 4294967295, 99, false, false⟩,
   ⟨0x208, 1, 4, .rw, 0x7D0, 0xFFFFFFFF, 1000, 64000, 3, false, false⟩,
   ⟨0x20C, 1, 4, .rw, 0x7D0, 0xFFFFFFFF, 1000, 64000, 3, false, false⟩,
   ⟨0x210, 1, 4, .rw, 0x64, 0xFFFFFFFF, 10, 1000, 3, false, false⟩,
   ⟨0x214, 1, 4, .ro, 0x0, 0xFFFFFFFF, 0, 4294967295, 99, false, false⟩,
   ⟨0x218, 1, 4, .rwl, 0x0, 0xFFFFFFFF, 0, 4294967295, 99, true, false⟩,
   ⟨0x220, 1, 4, .rwl, 0x0, 0xFFFFFFFF, 0, 4294967295, 99, false, false⟩,
   ⟨0x224, 1, 4, .rwl, 0x0, 0xFFFFFFFF, 0, 4294967295, 99, true, false⟩,
   ⟨0x22C, 1, 4, .rwl, 0xD, 0x1F, 8, 20, 3, false, false⟩,
   ⟨0x230, 1, 4, .ro, 0x0, 0xFFFFFFFF, 0, 4294967295, 99, false, false⟩,
   ⟨0x234, 1, 4, .rw, 0x0, 0xFFFFFFFF, 0, 4294967295, 99, false, false⟩,
   ⟨0x238, 1, 4, .ro, 0x0, 0xFFFFFFFF, 0, 4294967295, 99, true, false⟩,
   ⟨0x240, 1, 4, .ro, 0x0, 0xFFFFFFFF, 0, 4294967295, 99, true, false⟩,
   ⟨0x248, 1, 4, .rc, 0x0, 0xFFFFFFFF, 0, 4294967295, 99, false, false⟩,
   ⟨0x24C, 1, 4, .ro, 0x0, 0xFFFFFFFF, 0, 4294967295, 99, false, false⟩,
   ⟨0x250, 1, 4, .ro, 0x0, 0xFFFFFFFF, 0, 4294967295, 99, true, false⟩,
   ⟨0x400, 128, 4, .rw, 0x0, 0x8000007F, 0, 4294967295, 99, false, false⟩]

/-- Registers of the DPORT page. -/
def dportRows : List RegRow :=
  [⟨0x100, 1, 4, .rw, 0x6, 0xFFFFFFFF, 1, 6, 99, false, false⟩,
   ⟨0x104, 1, 4, .ro, 0x0, 0xFFFFFFFF, 0, 4294967295, 99, false, false⟩,
   ⟨0x110, 4, 4, .ro, 0x0, 0xFFFFFFFF, 0, 4294967295, 99, false, false⟩,
   ⟨0x200, 32, 8, .rw, 0x0, 0xFFFFFFFF, 0, 4294967295, 99, true, false⟩]

/-- Registers of the WINDOW page. -/
def windowRows : List RegRow :=
  [⟨0x100, 1, 4, .ro, 0x0, 0xFFFFFFFF, 0, 4294967295, 99, false, false⟩,
   ⟨0x104, 1, 4, .ro, 0x0, 0xFFFFFFFF, 0, 4294967295, 99, false, false⟩,
   ⟨0x108, 1, 4, .ro, 0x0, 0xFFFFFFFF, 0, 4294967295, 99, false, false⟩,
   ⟨0x10C, 1, 4, .ro, 0x0, 0xFFFFFFFF, 0, 4294967295, 99, false, false⟩,
   ⟨0x110, 1, 4, .ro, 0x0, 0xFFFFFFFF, 0, 4294967295, 99, true, false⟩,
   ⟨0x118, 1, 4, .ro, 0x0, 0xFFFFFFFF, 0, 4294967295, 99, true, true⟩]

/-- Registers of the PARSE page. -/
def parseRows : List RegRow :=
  [⟨0x100, 8, 4, .rw, 0x0, 0xFF0300, 0, 4294967295, 99, false, false⟩,
   ⟨0x120, 1, 4, .rw, 0x0, 0xF13FF, 0, 4294967295, 99, false, false⟩,
   ⟨0x124, 1, 4, .ro, 0x0, 0xFFFFFFFF, 0, 4294967295, 99, true, true⟩,
   ⟨0x130, 1, 4, .ro, 0x0, 0xFFFFFFFF, 0, 4294967295, 99, true, true⟩,
   ⟨0x138, 1, 4, .ro, 0x0, 0xFFFFFFFF, 0, 4294967295, 99, true, true⟩,
   ⟨0x140, 1, 4, .ro, 0x0, 0xFFFFFFFF, 0, 4294967295, 99, true, true⟩]

/-- Registers of the CLASS page. -/
def classRows : List RegRow :=
  [⟨0x100, 1, 4, .ro, 0x0, 0xFFFFFFFF, 0, 4294967295, 99, true, true⟩,
   ⟨0x108, 1, 4, .ro, 0x0, 0xFFFFFFFF, 0, 4294967295, 99, true, true⟩,
   ⟨0x110, 1, 4, .ro, 0x0, 0xFFFFFFFF, 0, 4294967295, 99, true, true⟩,
   ⟨0x118, 1, 4, .ro, 0x0, 0xFFFFFFFF, 0, 4294967295, 99, true, true⟩,
   ⟨0x120, 1, 4, .ro, 0x0, 0xFFFFFFFF, 0, 4294967295, 99, true, true⟩,
   ⟨0x128, 1, 4, .rw, 0x80, 0xFFFFFFFF, 64, 9600, 4, false, false⟩,
   ⟨0x12C, 1, 4, .rw, 0x100, 0xFFFFFFFF, 1, 1024, 4, false, false⟩,
   ⟨0x200, 32, 4, .rw, 0x0, 0x3FF03FF, 0, 4294967295, 99, false, false⟩,
   ⟨0x800, 256, 8, .rw, 0x0, 0xFFFFFFFF, 0, 4294967295, 99, false, false⟩,
   ⟨0x804, 256, 8, .rw, 0x0, 0xFFFFFFFF, 0, 4294967295, 99, false, false⟩]

/-- Registers of the HTBL page. -/
def htblRows : List RegRow :=
  [⟨0x110, 1, 4, .ro, 0x0, 0xFFFFFFFF, 0, 4294967295, 99, false, false⟩,
   ⟨0x114, 1, 4, .rw, 0x0, 0x1, 0, 4294967295, 99, false, false⟩,
   ⟨0x118, 1, 4, .rwl, 0x0, 0xFFFFFFFF, 0, 4294967295, 99, true, false⟩,
   ⟨0x120, 1, 4, .ro, 0x0, 0xFFFFFFFF, 0, 4294967295, 99, true, true⟩,
   ⟨0x128, 1, 4, .ro, 0x0, 0xFFFFFFFF, 0, 4294967295, 99, true, true⟩,
   ⟨0x130, 1, 4, .ro, 0x0, 0xFFFFFFFF, 0, 4294967295, 99, true, true⟩,
   ⟨0x138, 1, 4, .ro, 0x0, 0xFFFFFFFF, 0, 4294967295, 99, true, true⟩] ++ tblcommonRows

/-- Registers of the TCAM page. -/
def tcamRows : List RegRow :=
  [⟨0x110, 1, 4, .rwl, 0x10, 0xFFFFFFFF, 0, 32, 3, false, false⟩,
   ⟨0x114, 1, 4, .rw, 0x64, 0xFFFFFFFF, 10, 65535, 3, false, false⟩,
   ⟨0x118, 1, 4, .rw, 0x0, 0x1, 0, 4294967295, 99, false, false⟩,
   ⟨0x11C, 1, 4, .rwl, 0x0, 0xFFFFFFFF, 0, 4294967295, 99, true, false⟩,
   ⟨0x128, 1, 4, .ro, 0x0, 0xFFFFFFFF, 0, 4294967295, 99, true, true⟩,
   ⟨0x130, 1, 4, .ro, 0x0, 0xFFFFFFFF, 0, 4294967295, 99, true, true⟩,
   ⟨0x138, 1, 4, .ro, 0x0, 0xFFFFFFFF, 0, 4294967295, 99, true, true⟩] ++ tblcommonRows

/-- Registers of the FRAG page. -/
def fragRows : List RegRow :=
  [⟨0x100, 1, 4, .rw, 0x64, 0xFFFFFFFF, 1, 65535, 3, false, false⟩,
   ⟨0x104, 1, 4, .rw, 0x7D0, 0xFFFFFFFF, 1, 1048575, 3, false, false⟩,
   ⟨0x108, 1, 4, .ro, 0x0, 0xFFFFFFFF, 0, 4294967295, 99, false, false⟩,
   ⟨0x10C, 1, 4, .ro, 0x0, 0xFFFFFFFF, 0, 4294967295, 99, false, false⟩,
   ⟨0x110, 1, 4, .rw, 0x0, 0xFF, 0, 4294967295, 99, false, false⟩,
   ⟨0x118, 1, 4, .ro, 0x0, 0xFFFFFFFF, 0, 4294967295, 99, true, true⟩,
   ⟨0x120, 1, 4, .ro, 0x0, 0xFFFFFFFF, 0, 4294967295, 99, true, true⟩,
   ⟨0x128, 1, 4, .ro, 0x0, 0xFFFFFFFF, 0, 4294967295, 99, true, true⟩,
   ⟨0x130, 1, 4, .ro, 0x0, 0xFFFFFFFF, 0, 4294967295, 99, true, true⟩]

/-- Registers of the FLOW page. -/
def flowRows : List RegRow :=
  [⟨0x110, 1, 4, .rwl, 0x0, 0xFFFFFFFF, 0, 4294967295, 99, true, false⟩,
   ⟨0x118, 1, 4, .rwl, 0x0, 0x1F, 0, 4294967295, 99, false, false⟩,
   ⟨0x11C, 1, 4, .rw, 0x3E8, 0xFFFFFFFF, 100, 268435455, 3, false, false⟩,
   ⟨0x120, 1, 4, .ro, 0x0, 0xFFFFFFFF, 0, 4294967295, 99, false, false⟩,
   ⟨0x140, 16, 4, .rw, 0x0, 0xFFFFFFFF, 0, 1879048192, 3, false, false⟩,
   ⟨0x180, 1, 4, .ro, 0x0, 0xFFFFFFFF, 0, 4294967295, 99, true, true⟩,
   ⟨0x188, 1, 4, .ro, 0x0, 0xFFFFFFFF, 0, 4294967295, 99, true, true⟩,
   ⟨0x190, 1, 4, .ro, 0x0, 0xFFFFFFFF, 0, 4294967295, 99, true, true⟩] ++ tblcommonRows

/-- Registers of the LEARN page. -/
def learnRows : List RegRow :=
  [⟨0x110, 1, 4, .rw, 0x0, 0x801FFF3F, 0, 4294967295, 99, false, false⟩,
   ⟨0x114, 1, 4, .rw, 0x0, 0xFFFF, 0, 4294967295, 99, false, false⟩,
   ⟨0x118, 1, 4, .rw, 0x186A0, 0xFFFFFFFF, 1000, 4294967295, 5, false, false⟩,
   ⟨0x11C, 1, 4, .rwl, 0x0, 0xFFFFFFFF, 0, 4294967295, 99, true, false⟩,
   ⟨0x124, 1, 4, .rwl, 0x0, 0x1F, 0, 4294967295, 99, false, false⟩,
   ⟨0x128, 1, 4, .ro, 0x0, 0xFFFFFFFF, 0, 4294967295, 99, false, false⟩,
   ⟨0x12C, 1, 4, .rw, 0x0, 0xFFFFFFFF, 0, 4294967295, 99, false, false⟩,
   ⟨0x130, 1, 4, .w1c, 0x0, 0x1, 0, 4294967295, 99, false, false⟩,
   ⟨0x138, 1, 4, .ro, 0x0, 0xFFFFFFFF, 0, 4294967295, 99, true, true⟩,
   ⟨0x140, 1, 4, .ro, 0x0, 0xFFFFFFFF, 0, 4294967295, 99, true, true⟩,
   ⟨0x148, 1, 4, .ro, 0x0, 0xFFFFFFFF, 0, 4294967295, 99, true, true⟩,
   ⟨0x150, 1, 4, .ro, 0x0, 0xFFFFFFFF, 0, 4294967295, 99, true, true⟩] ++ tblcommonRows

/-- Registers of the SPREAD page. -/
def spreadRows : List RegRow :=
  [⟨0x100, 1, 4, .ro, 0x0, 0xFFFFFFFF, 0, 4294967295, 99, true, true⟩,
   ⟨0x108, 1, 4, .ro, 0x0, 0xFFFFFFFF, 0, 4294967295, 99, true, true⟩,
   ⟨0x110, 1, 4, .ro, 0x0, 0xFFFFFFFF, 0, 4294967295, 99, true, true⟩]

/-- Registers of the QMGR page. -/
def qmgrRows : List RegRow :=
  [⟨0x100, 1, 4, .rw, 0x32, 0xFFFFFFFF, 1, 65535, 4, false, false⟩,
   ⟨0x104, 1, 4, .ro, 0x0, 0xFFFFFFFF, 0, 4294967295, 99, false, false⟩,
   ⟨0x108, 1, 4, .ro, 0x0, 0xFFFFFFFF, 0, 4294967295, 99, false, false⟩,
   ⟨0x10C, 1, 4, .ro, 0x0, 0xFFFFFFFF, 0, 4294967295, 99, false, false⟩,
   ⟨0x110, 1, 4, .ro, 0x0, 0xFFFFFFFF, 0, 4294967295, 99, false, false⟩,
   ⟨0x118, 1, 4, .ro, 0x0, 0xFFFFFFFF, 0, 4294967295, 99, true, true⟩,
   ⟨0x120, 1, 4, .ro, 0x0, 0xFFFFFFFF, 0, 4294967295, 99, true, true⟩,
   ⟨0x128, 1, 4, .ro, 0x0, 0xFFFFFFFF, 0, 4294967295, 99, true, true⟩,
   ⟨0x130, 1, 4, .wo, 0x0, 0xFFFFFFFF, 0, 4294967295, 99, false, false⟩]

/-- Registers of the DMA page. -/
def dmaRows : List RegRow :=
  [⟨0x100, 1, 4, .ro, 0x0, 0xFFFFFFFF, 0, 4294967295, 99, true, false⟩,
   ⟨0x108, 1, 4, .ro, 0x0, 0xFFFFFFFF, 0, 4294967295, 99, false, false⟩,
   ⟨0x10C, 1, 4, .wo, 0x0, 0xFFFFFFFF, 0, 4294967295, 99, false, false⟩,
   ⟨0x110, 1, 4, .ro, 0x0, 0xFFFFFFFF, 0, 4294967295, 99, false, false⟩,
   ⟨0x114, 1, 4, .rw, 0x100, 0xFFFFFFFF, 1, 256, 5, false, false⟩,
   ⟨0x118, 1, 4, .ro, 0x0, 0xFFFFFFFF, 0, 4294967295, 99, false, false⟩,
   ⟨0x11C, 1, 4, .ro, 0x0, 0xFFFFFFFF, 0, 4294967295, 99, false, false⟩,
   ⟨0x120, 1, 4, .ro, 0x0, 0xFFFFFFFF, 0, 4294967295, 99, true, true⟩,
   ⟨0x128, 1, 4, .ro, 0x0, 0xFFFFFFFF, 0, 4294967295, 99, true, true⟩,
   ⟨0x130, 1, 4, .ro, 0x0, 0xFFFFFFFF, 0, 4294967295, 99, true, true⟩]

/-- Registers of the RDMA page. -/
def rdmaRows : List RegRow :=
  [⟨0x100, 1, 4, .ro, 0x0, 0xFFFFFFFF, 0, 4294967295, 99, true, true⟩,
   ⟨0x108, 1, 4, .ro, 0x0, 0xFFFFFFFF, 0, 4294967295, 99, true, true⟩,
   ⟨0x110, 1, 4, .ro, 0x0, 0xFFFFFFFF, 0, 4294967295, 99, true, true⟩,
   ⟨0x118, 1, 4, .ro, 0x0, 0xFFFFFFFF, 0, 4294967295, 99, true, true⟩,
   ⟨0x120, 1, 4, .ro, 0x0, 0xFFFFFFFF, 0, 4294967295, 99, true, true⟩,
   ⟨0x128, 1, 4, .ro, 0x0, 0xFFFFFFFF, 0, 4294967295, 99, true, true⟩,
   ⟨0x130, 1, 4, .ro, 0x0, 0xFFFFFFFF, 0, 4294967295, 99, true, true⟩,
   ⟨0x138, 1, 4, .ro, 0x0, 0xFFFFFFFF, 0, 4294967295, 99, true, true⟩,
   ⟨0x140, 1, 4, .ro, 0x0, 0xFFFFFFFF, 0, 4294967295, 99, false, false⟩,
   ⟨0x144, 1, 4, .ro, 0x0, 0xFFFFFFFF, 0, 4294967295, 99, false, false⟩,
   ⟨0x148, 1, 4, .rw, 0x32, 0xFFFFFFFF, 1, 65535, 7, false, false⟩,
   ⟨0x14C, 1, 4, .rw, 0x820, 0xFFFF, 0, 4294967295, 99, false, false⟩,
   ⟨0x150, 1, 4, .rwl, 0x0, 0xFFFFFFFF, 0, 4294967295, 99, true, false⟩,
   ⟨0x158, 1, 4, .rwl, 0x0, 0x1F, 0, 4294967295, 99, false, false⟩,
   ⟨0x160, 1, 4, .ro, 0x0, 0xFFFFFFFF, 0, 4294967295, 99, false, false⟩]

/-- Registers of the LEVAIN page. -/
def levainRows : List RegRow :=
  [⟨0x100, 1, 4, .rwl, 0x0, 0xFFFFFFFF, 0, 4294967295, 99, true, false⟩,
   ⟨0x108, 1, 4, .rwl, 0x0, 0xFFFFFFFF, 0, 33554432, 7, false, false⟩,
   ⟨0x10C, 1, 4, .rw, 0x400, 0xFFFFFFFF, 16, 16384, 7, false, false⟩,
   ⟨0x110, 1, 4, .rw, 0x1000, 0xFFFFFFFF, 16, 16384, 7, false, false⟩,
   ⟨0x114, 1, 4, .rw, 0x10000, 0xFFFFFFFF, 0, 114688, 7, false, false⟩,
   ⟨0x118, 1, 4, .rw, 0x32, 0xFFFFFFFF, 1, 65535, 7, false, false⟩,
   ⟨0x11C, 1, 4, .ro, 0x0, 0xFFFFFFFF, 0, 4294967295, 99, false, false⟩,
   ⟨0x120, 1, 4, .ro, 0x0, 0xFFFFFFFF, 0, 4294967295, 99, false, false⟩,
   ⟨0x124, 1, 4, .ro, 0x0, 0xFFFFFFFF, 0, 4294967295, 99, false, false⟩,
   ⟨0x128, 1, 4, .ro, 0x0, 0xFFFFFFFF, 0, 4294967295, 99, false, false⟩,
   ⟨0x12C, 1, 4, .ro, 0x0, 0xFFFFFFFF, 0, 4294967295, 99, false, false⟩,
   ⟨0x130, 1, 4, .rw, 0x0, 0x1F, 0, 4294967295, 99, false, false⟩,
   ⟨0x134, 1, 4, .ro, 0x0, 0xFFFFFFFF, 0, 4294967295, 99, false, false⟩,
   ⟨0x138, 1, 4, .rc, 0x0, 0xFFFFFFFF, 0, 4294967295, 99, false, false⟩,
   ⟨0x140, 1, 4, .ro, 0x0, 0xFFFFFFFF, 0, 4294967295, 99, true, true⟩,
   ⟨0x148, 1, 4, .ro, 0x0, 0xFFFFFFFF, 0, 4294967295, 99, true, true⟩,
   ⟨0x150, 1, 4, .ro, 0x0, 0xFFFFFFFF, 0, 4294967295, 99, true, true⟩,
   ⟨0x158, 1, 4, .ro, 0x0, 0xFFFFFFFF, 0, 4294967295, 99, true, true⟩,
   ⟨0x160, 1, 4, .ro, 0x0, 0xFFFFFFFF, 0, 4294967295, 99, true, true⟩,
   ⟨0x168, 1, 4, .ro, 0x0, 0xFFFFFFFF, 0, 4294967295, 99, true, true⟩,
   ⟨0x170, 4, 4, .rw, 0x0, 0xFFFFFFFF, 0, 4294967295, 99, false, false⟩,
   ⟨0x180, 1, 4, .ro, 0x0, 0xFFFFFFFF, 0, 4294967295, 99, true, true⟩]

/-- Registers of the NVME page. -/
def nvmeRows : List RegRow :=
  [⟨0x100, 1, 4, .ro, 0x0, 0xFFFFFFFF, 0, 4294967295, 99, false, false⟩,
   ⟨0x104, 1, 4, .ro, 0x0, 0xFFFFFFFF, 0, 4294967295, 99, false, false⟩,
   ⟨0x108, 1, 4, .rw, 0x7D0, 0xFFFFFFFF, 1, 1048575, 9, false, false⟩,
   ⟨0x10C, 1, 4, .rw, 0x3E8, 0xFFFFFFFF, 1, 1048575, 9, false, false⟩,
   ⟨0x110, 1, 4, .rw, 0x25, 0xFF, 0, 4294967295, 99, false, false⟩,
   ⟨0x114, 1, 4, .rwl, 0x0, 0xFFFFFFFF, 0, 4294967295, 99, true, false⟩,
   ⟨0x11C, 1, 4, .rwl, 0x0, 0xFFFFFFFF, 0, 16384, 9, false, false⟩,
   ⟨0x120, 1, 4, .rwl, 0x0, 0xFFFFFFFF, 0, 4294967295, 99, false, false⟩,
   ⟨0x128, 1, 4, .ro, 0x0, 0xFFFFFFFF, 0, 4294967295, 99, true, true⟩,
   ⟨0x130, 1, 4, .ro, 0x0, 0xFFFFFFFF, 0, 4294967295, 99, true, true⟩,
   ⟨0x138, 1, 4, .ro, 0x0, 0xFFFFFFFF, 0, 4294967295, 99, true, true⟩,
   ⟨0x140, 1, 4, .ro, 0x0, 0xFFFFFFFF, 0, 4294967295, 99, true, true⟩]

/-- Registers of the RLOCK page. -/
def rlockRows : List RegRow :=
  [⟨0x100, 1, 4, .ro, 0x0, 0xFFFFFFFF, 0, 4294967295, 99, false, false⟩,
   ⟨0x104, 1, 4, .rc, 0x0, 0xFFFFFFFF, 0, 4294967295, 99, false, false⟩,
   ⟨0x108, 1, 4, .ro, 0x0, 0xFFFFFFFF, 0, 4294967295, 99, true, true⟩,
   ⟨0x110, 1, 4, .ro, 0x0, 0xFFFFFFFF, 0, 4294967295, 99, true, true⟩,
   ⟨0x118, 1, 4, .rc, 0x0, 0xFFFFFFFF, 0, 4294967295, 99, false, false⟩]

/-- Registers of the CIPHER page. -/
def cipherRows : List RegRow :=
  [⟨0x100, 1, 4, .ro, 0x0, 0xFFFFFFFF, 0, 4294967295, 99, false, false⟩,
   ⟨0x104, 1, 4, .ro, 0x0, 0xFFFFFFFF, 0, 4294967295, 99, false, false⟩,
   ⟨0x108, 1, 4, .ro, 0x0, 0xFFFFFFFF, 0, 4294967295, 99, true, true⟩,
   ⟨0x110, 1, 4, .ro, 0x0, 0xFFFFFFFF, 0, 4294967295, 99, true, true⟩,
   ⟨0x118, 1, 4, .ro, 0x0, 0xFFFFFFFF, 0, 4294967295, 99, true, true⟩,
   ⟨0x120, 1, 4, .rc, 0x0, 0xFFFFFFFF, 0, 4294967295, 99, false, false⟩]

/-- Registers of the MACSEC page. -/
def macsecRows : List RegRow :=
  [⟨0x100, 8, 4, .rw, 0x0, 0xDFF, 0, 4294967295, 99, false, false⟩,
   ⟨0x120, 8, 4, .rw, 0x0, 0xFFFFFFFF, 0, 1073741824, 0, false, false⟩,
   ⟨0x140, 1, 4, .rw, 0x0, 0xF07, 0, 4294967295, 99, false, false⟩,
   ⟨0x144, 1, 4, .ro, 0x0, 0xFFFFFFFF, 0, 4294967295, 99, true, true⟩]

/-- Registers of the KEYS page. -/
def keysRows : List RegRow :=
  [⟨0x100, 1, 4, .rwl, 0x0, 0xFFFFFFFF, 0, 4294967295, 99, true, false⟩,
   ⟨0x108, 1, 4, .ro, 0x0, 0xFFFFFFFF, 0, 4294967295, 99, false, false⟩,
   ⟨0x10C, 1, 4, .rc, 0x0, 0xFFFFFFFF, 0, 4294967295, 99, false, false⟩,
   ⟨0x110, 1, 4, .ro, 0x0, 0xFFFFFFFF, 0, 4294967295, 99, true, true⟩]

/-- Registers of the TILE page. -/
def tileRows : List RegRow :=
  [⟨0x100, 1, 4, .rw, 0x0, 0x11F, 0, 4294967295, 99, false, false⟩,
   ⟨0x104, 1, 4, .rw, 0xF4240, 0xFFFFFFFF, 1000, 4294967295, 2, false, false⟩,
   ⟨0x108, 1, 4, .ro, 0x0, 0xFFFFFFFF, 0, 4294967295, 99, false, false⟩,
   ⟨0x110, 1, 4, .ro, 0x0, 0xFFFFFFFF, 0, 4294967295, 99, true, true⟩,
   ⟨0x118, 1, 4, .ro, 0x0, 0xFFFFFFFF, 0, 4294967295, 99, true, true⟩,
   ⟨0x120, 1, 4, .ro, 0x0, 0xFFFFFFFF, 0, 4294967295, 99, true, true⟩]

/-- Registers of the PROOFER page. -/
def prooferRows : List RegRow :=
  [⟨0x100, 1, 4, .ro, 0x40000, 0xFFFFFFFF, 0, 4294967295, 99, false, false⟩,
   ⟨0x104, 1, 4, .rc, 0x0, 0xFFFFFFFF, 0, 4294967295, 99, false, false⟩,
   ⟨0x108, 1, 4, .rw, 0x7D0, 0xFFFFFFFF, 1, 1048575, 6, false, false⟩,
   ⟨0x10C, 1, 4, .rw, 0x64, 0xFFFFFFFF, 1, 65535, 6, false, false⟩,
   ⟨0x110, 1, 4, .ro, 0x0, 0xFFFFFFFF, 0, 4294967295, 99, true, true⟩,
   ⟨0x118, 1, 4, .ro, 0x0, 0xFFFFFFFF, 0, 4294967295, 99, true, true⟩,
   ⟨0x120, 1, 4, .ro, 0x0, 0xFFFFFFFF, 0, 4294967295, 99, true, true⟩,
   ⟨0x128, 1, 4, .ro, 0x0, 0xFFFFFFFF, 0, 4294967295, 99, true, true⟩]

/-- Registers of the CLUSTER page. -/
def clusterRows : List RegRow :=
  [⟨0x100, 1, 4, .ro, 0x0, 0xFFFFFFFF, 0, 4294967295, 99, false, false⟩,
   ⟨0x104, 1, 4, .ro, 0x0, 0xFFFFFFFF, 0, 4294967295, 99, false, false⟩,
   ⟨0x108, 1, 4, .rwl, 0x0, 0xFFFFFFFF, 0, 4294967295, 99, true, false⟩,
   ⟨0x110, 1, 4, .ro, 0x0, 0xFFFFFFFF, 0, 4294967295, 99, true, true⟩,
   ⟨0x118, 1, 4, .ro, 0x0, 0xFFFFFFFF, 0, 4294967295, 99, true, true⟩]

/-- Registers of the MEMC page. -/
def memcRows : List RegRow :=
  [⟨0x100, 1, 4, .rw, 0x40, 0xFFFFFFFF, 1, 65535, 3, false, false⟩,
   ⟨0x104, 1, 4, .rw, 0x15180, 0xFFFFFFFF, 0, 4294967295, 99, false, false⟩,
   ⟨0x108, 1, 4, .ro, 0x0, 0xFFFFFFFF, 0, 4294967295, 99, false, false⟩,
   ⟨0x10C, 1, 4, .rw, 0x0, 0x7FF, 0, 4294967295, 99, false, false⟩,
   ⟨0x110, 1, 4, .ro, 0x0, 0xFFFFFFFF, 0, 4294967295, 99, false, false⟩,
   ⟨0x118, 1, 4, .ro, 0x0, 0xFFFFFFFF, 0, 4294967295, 99, true, true⟩,
   ⟨0x120, 1, 4, .ro, 0x0, 0xFFFFFFFF, 0, 4294967295, 99, true, true⟩,
   ⟨0x128, 1, 4, .ro, 0x0, 0xFFFFFFFF, 0, 4294967295, 99, true, false⟩,
   ⟨0x130, 1, 4, .ro, 0x0, 0xFFFFFFFF, 0, 4294967295, 99, false, false⟩,
   ⟨0x134, 1, 4, .rwl, 0x1900, 0xFFFFFFFF, 3200, 6400, 3, false, false⟩,
   ⟨0x138, 1, 4, .ro, 0x0, 0xFFFFFFFF, 0, 4294967295, 99, false, false⟩,
   ⟨0x180, 1, 4, .w1c, 0x0, 0xFFFFFFFF, 0, 4294967295, 99, true, false⟩,
   ⟨0x200, 48, 8, .rw, 0x100, 0xFF3, 0, 4294967295, 99, false, false⟩,
   ⟨0x204, 8, 8, .rw, 0x200030, 0x3FF03FF, 0, 4294967295, 99, false, false⟩]

/-- Registers of the MEMENC page. -/
def memencRows : List RegRow :=
  [⟨0x100, 1, 4, .ro, 0x0, 0xFFFFFFFF, 0, 4294967295, 99, true, false⟩,
   ⟨0x108, 1, 4, .ro, 0x3, 0xFFFFFFFF, 0, 4294967295, 99, false, false⟩,
   ⟨0x110, 1, 4, .ro, 0x0, 0xFFFFFFFF, 0, 4294967295, 99, true, true⟩]

/-- Registers of the TENANT page. -/
def tenantRows : List RegRow :=
  [⟨0x100, 1, 4, .ro, 0x0, 0xFFFFFFFF, 0, 4294967295, 99, false, false⟩,
   ⟨0x104, 1, 4, .ro, 0x0, 0xFFFFFFFF, 0, 4294967295, 99, false, false⟩,
   ⟨0x108, 1, 4, .rc, 0x0, 0xFFFFFFFF, 0, 4294967295, 99, false, false⟩,
   ⟨0x110, 1, 4, .ro, 0x0, 0xFFFFFFFF, 0, 4294967295, 99, true, true⟩]

/-- Registers of the METER page. -/
def meterRows : List RegRow :=
  [⟨0x100, 1, 4, .ro, 0x0, 0xFFFFFFFF, 0, 4294967295, 99, false, false⟩,
   ⟨0x104, 1, 4, .ro, 0x0, 0xFFFFFFFF, 0, 4294967295, 99, false, false⟩,
   ⟨0x108, 1, 4, .ro, 0x0, 0xFFFFFFFF, 0, 4294967295, 99, true, true⟩,
   ⟨0x110, 1, 4, .ro, 0x0, 0xFFFFFFFF, 0, 4294967295, 99, true, true⟩,
   ⟨0x118, 1, 4, .ro, 0x0, 0xFFFFFFFF, 0, 4294967295, 99, true, true⟩]

/-- Registers of the SLICE page. -/
def sliceRows : List RegRow :=
  [⟨0x100, 1, 4, .rwl, 0x0, 0xFFFFFFFF, 0, 4294967295, 99, true, false⟩,
   ⟨0x108, 1, 4, .rwl, 0x0, 0xFFFFFFFF, 0, 4294967295, 99, true, false⟩,
   ⟨0x110, 1, 4, .rwl, 0x4, 0xFFFFFFFF, 1, 16, 2, false, false⟩,
   ⟨0x114, 1, 4, .rwl, 0x0, 0xFFFFFFFF, 0, 4294967295, 99, true, false⟩,
   ⟨0x11C, 1, 4, .rwl, 0xD, 0x1F, 8, 20, 2, false, false⟩,
   ⟨0x120, 1, 4, .ro, 0x0, 0xFFFFFFFF, 0, 4294967295, 99, false, false⟩,
   ⟨0x124, 1, 4, .rw, 0x0, 0xFFFFFFFF, 0, 4294967295, 99, false, false⟩,
   ⟨0x128, 1, 4, .rw, 0xC8, 0xFFFFFFFF, 50, 10000, 2, false, false⟩,
   ⟨0x12C, 1, 4, .ro, 0x0, 0xFFFFFFFF, 0, 4294967295, 99, false, false⟩,
   ⟨0x130, 1, 4, .ro, 0x0, 0xFFFFFFFF, 0, 4294967295, 99, true, false⟩,
   ⟨0x138, 1, 4, .ro, 0x0, 0xFFFFFFFF, 0, 4294967295, 99, true, false⟩,
   ⟨0x140, 1, 4, .ro, 0x0, 0xFFFFFFFF, 0, 4294967295, 99, true, true⟩,
   ⟨0x148, 1, 4, .ro, 0x0, 0xFFFFFFFF, 0, 4294967295, 99, true, true⟩,
   ⟨0x150, 1, 4, .ro, 0x0, 0xFFFFFFFF, 0, 4294967295, 99, true, true⟩]

/-- Registers of the PWR page. -/
def pwrRows : List RegRow :=
  [⟨0x100, 1, 4, .ro, 0x0, 0xFFFFFFFF, 0, 4294967295, 99, false, false⟩,
   ⟨0x104, 1, 4, .rw, 0x0, 0x1F, 0, 4294967295, 99, false, false⟩,
   ⟨0x108, 1, 4, .ro, 0x0, 0xFFFFFFFF, 0, 4294967295, 99, false, false⟩,
   ⟨0x10C, 1, 4, .rc, 0xFFFF, 0xFFFFFFFF, 0, 4294967295, 99, false, false⟩,
   ⟨0x110, 1, 4, .ro, 0x0, 0xFFFFFFFF, 0, 4294967295, 99, true, true⟩,
   ⟨0x118, 1, 4, .ro, 0x0, 0xFFFFFFFF, 0, 4294967295, 99, false, false⟩,
   ⟨0x120, 8, 4, .rw, 0x0, 0xFFFFFFFF, 0, 4294967295, 99, false, false⟩]

/-- Registers of the THERM page. -/
def thermRows : List RegRow :=
  [⟨0x100, 64, 4, .ro, 0x0, 0xFFFFFFFF, 0, 4294967295, 99, false, false⟩,
   ⟨0x200, 1, 4, .rw, 0x69, 0xFFFFFFFF, 0, 4294967295, 99, false, false⟩,
   ⟨0x204, 1, 4, .ro, 0x0, 0xFFFFFFFF, 0, 4294967295, 99, false, false⟩,
   ⟨0x208, 1, 4, .rc, 0x0, 0xFFFFFFFF, 0, 4294967295, 99, false, false⟩,
   ⟨0x210, 1, 4, .ro, 0x0, 0xFFFFFFFF, 0, 4294967295, 99, true, true⟩]

/-- Registers of the MGMT page. -/
def mgmtRows : List RegRow :=
  [⟨0x100, 1, 4, .ro, 0x0, 0xFFFFFFFF, 0, 4294967295, 99, false, false⟩,
   ⟨0x104, 1, 4, .rwl, 0x14A, 0x17F, 0, 4294967295, 99, false, false⟩,
   ⟨0x108, 1, 4, .rw, 0x8001C200, 0x800FFFFF, 0, 4294967295, 99, false, false⟩,
   ⟨0x10C, 1, 4, .ro, 0x0, 0xFFFFFFFF, 0, 4294967295, 99, false, false⟩,
   ⟨0x110, 1, 4, .rw, 0x0, 0xFF, 0, 4294967295, 99, false, false⟩,
   ⟨0x114, 1, 4, .rw, 0x0, 0xFF, 0, 4294967295, 99, false, false⟩,
   ⟨0x118, 1, 4, .ro, 0x0, 0xFFFFFFFF, 0, 4294967295, 99, false, false⟩,
   ⟨0x120, 4, 4, .ro, 0x0, 0xFFFFFFFF, 0, 4294967295, 99, false, false⟩,
   ⟨0x130, 4, 4, .ro, 0x0, 0xFFFFFFFF, 0, 4294967295, 99, false, false⟩,
   ⟨0x140, 1, 4, .ro, 0x0, 0xFFFFFFFF, 0, 4294967295, 99, false, false⟩]

/-- The rows of a block type (R62); HBMC and DDRC share one table (R356). -/
def rowsOf (blk : Nat) : List RegRow :=
  match blk with
  | 0x01 => hubRows
  | 0x02 => rtimeRows
  | 0x03 => faultRows
  | 0x04 => bootRows
  | 0x05 => daxliaRows
  | 0x06 => calRows
  | 0x10 => octetRows
  | 0x11 => hportRows
  | 0x12 => emacRows
  | 0x13 => twinRows
  | 0x14 => dportRows
  | 0x15 => windowRows
  | 0x21 => parseRows
  | 0x22 => classRows
  | 0x23 => htblRows
  | 0x24 => tcamRows
  | 0x25 => fragRows
  | 0x26 => flowRows
  | 0x27 => learnRows
  | 0x28 => spreadRows
  | 0x30 => qmgrRows
  | 0x31 => dmaRows
  | 0x32 => rdmaRows
  | 0x33 => levainRows
  | 0x34 => nvmeRows
  | 0x35 => rlockRows
  | 0x40 => cipherRows
  | 0x41 => macsecRows
  | 0x42 => keysRows
  | 0x50 => tileRows
  | 0x51 => prooferRows
  | 0x52 => clusterRows
  | 0x60 => memcRows
  | 0x61 => memcRows
  | 0x62 => memencRows
  | 0x70 => tenantRows
  | 0x71 => meterRows
  | 0x72 => sliceRows
  | 0x80 => pwrRows
  | 0x81 => thermRows
  | 0x82 => mgmtRows
  | _ => []

/-- How many pages of each block type are populated (R62); 0: the code is not populated. -/
def pageCount (blk : Nat) : Nat :=
  match blk with
  | 0x01 => 1
  | 0x02 => 1
  | 0x03 => 1
  | 0x04 => 1
  | 0x05 => 1
  | 0x06 => 64
  | 0x10 => 128
  | 0x11 => 128
  | 0x12 => 128
  | 0x13 => 16
  | 0x14 => 128
  | 0x15 => 16
  | 0x20 => 32
  | 0x21 => 32
  | 0x22 => 32
  | 0x23 => 64
  | 0x24 => 32
  | 0x25 => 1
  | 0x26 => 1
  | 0x27 => 1
  | 0x28 => 32
  | 0x30 => 128
  | 0x31 => 256
  | 0x32 => 32
  | 0x33 => 1
  | 0x34 => 1
  | 0x35 => 1
  | 0x40 => 16
  | 0x41 => 128
  | 0x42 => 1
  | 0x50 => 32
  | 0x51 => 1
  | 0x52 => 64
  | 0x60 => 4
  | 0x61 => 8
  | 0x62 => 1
  | 0x70 => 1
  | 0x71 => 32
  | 0x72 => 1
  | 0x80 => 1
  | 0x81 => 1
  | 0x82 => 1
  | _ => 0

/-! The block type codes of R62. -/

abbrev blkHUB : Nat := 0x01
abbrev blkRTIME : Nat := 0x02
abbrev blkFAULT : Nat := 0x03
abbrev blkBOOT : Nat := 0x04
abbrev blkDAXLIA : Nat := 0x05
abbrev blkCAL : Nat := 0x06
abbrev blkOCTET : Nat := 0x10
abbrev blkHPORT : Nat := 0x11
abbrev blkEMAC : Nat := 0x12
abbrev blkTWIN : Nat := 0x13
abbrev blkDPORT : Nat := 0x14
abbrev blkWINDOW : Nat := 0x15
abbrev blkPIPE : Nat := 0x20
abbrev blkPARSE : Nat := 0x21
abbrev blkCLASS : Nat := 0x22
abbrev blkHTBL : Nat := 0x23
abbrev blkTCAM : Nat := 0x24
abbrev blkFRAG : Nat := 0x25
abbrev blkFLOW : Nat := 0x26
abbrev blkLEARN : Nat := 0x27
abbrev blkSPREAD : Nat := 0x28
abbrev blkQMGR : Nat := 0x30
abbrev blkDMA : Nat := 0x31
abbrev blkRDMA : Nat := 0x32
abbrev blkLEVAIN : Nat := 0x33
abbrev blkNVME : Nat := 0x34
abbrev blkRLOCK : Nat := 0x35
abbrev blkCIPHER : Nat := 0x40
abbrev blkMACSEC : Nat := 0x41
abbrev blkKEYS : Nat := 0x42
abbrev blkTILE : Nat := 0x50
abbrev blkPROOFER : Nat := 0x51
abbrev blkCLUSTER : Nat := 0x52
abbrev blkHBMC : Nat := 0x60
abbrev blkDDRC : Nat := 0x61
abbrev blkMEMENC : Nat := 0x62
abbrev blkTENANT : Nat := 0x70
abbrev blkMETER : Nat := 0x71
abbrev blkSLICE : Nat := 0x72
abbrev blkPWR : Nat := 0x80
abbrev blkTHERM : Nat := 0x81
abbrev blkMGMT : Nat := 0x82

/-! The registers by the manual's names. -/

abbrev HTBL.RES_POS : RegId := (0x23, 0x100)
abbrev TCAM.RES_POS : RegId := (0x24, 0x100)
abbrev FLOW.RES_POS : RegId := (0x26, 0x100)
abbrev LEARN.RES_POS : RegId := (0x27, 0x100)
abbrev HTBL.RES_SIDE : RegId := (0x23, 0x104)
abbrev TCAM.RES_SIDE : RegId := (0x24, 0x104)
abbrev FLOW.RES_SIDE : RegId := (0x26, 0x104)
abbrev LEARN.RES_SIDE : RegId := (0x27, 0x104)
abbrev HTBL.PAR_INFO : RegId := (0x23, 0x108)
abbrev TCAM.PAR_INFO : RegId := (0x24, 0x108)
abbrev FLOW.PAR_INFO : RegId := (0x26, 0x108)
abbrev LEARN.PAR_INFO : RegId := (0x27, 0x108)
abbrev HTBL.OCC : RegId := (0x23, 0x10C)
abbrev TCAM.OCC : RegId := (0x24, 0x10C)
abbrev FLOW.OCC : RegId := (0x26, 0x10C)
abbrev LEARN.OCC : RegId := (0x27, 0x10C)
abbrev HUB.TYPE_PEND : RegId := (0x01, 0x100)
abbrev HUB.INT_SEL : RegId := (0x01, 0x120)
abbrev HUB.INT_REARM : RegId := (0x01, 0x124)
abbrev HUB.CMD_LIMIT : RegId := (0x01, 0x128)
abbrev HUB.UNPOP_COUNT : RegId := (0x01, 0x12C)
abbrev HUB.INST_PEND : RegId := (0x01, 0x140)
abbrev HUB.ROUTE : RegId := (0x01, 0x400)
abbrev HUB.ACCESS : RegId := (0x01, 0x800)
abbrev RTIME.NOW_LO : RegId := (0x02, 0x100)
abbrev RTIME.NOW_HI : RegId := (0x02, 0x104)
abbrev RTIME.NOW_XHI : RegId := (0x02, 0x108)
abbrev RTIME.STATE : RegId := (0x02, 0x10C)
abbrev RTIME.SRC_CTRL : RegId := (0x02, 0x110)
abbrev RTIME.STEP_THRESH : RegId := (0x02, 0x114)
abbrev RTIME.SLEW_MAX : RegId := (0x02, 0x118)
abbrev RTIME.MINUTE_OFFSET : RegId := (0x02, 0x11C)
abbrev RTIME.PTP_OFFSET_LO : RegId := (0x02, 0x120)
abbrev RTIME.PTP_OFFSET_HI : RegId := (0x02, 0x124)
abbrev RTIME.PTP_TIMEOUT : RegId := (0x02, 0x128)
abbrev RTIME.QUAL_TIME : RegId := (0x02, 0x12C)
abbrev RTIME.LOCK_THRESH : RegId := (0x02, 0x130)
abbrev RTIME.PPS_CTRL : RegId := (0x02, 0x134)
abbrev RTIME.PPS_OUT_WIDTH : RegId := (0x02, 0x138)
abbrev RTIME.PPS_OUT_OFFSET : RegId := (0x02, 0x13C)
abbrev RTIME.FREQ_ADJ : RegId := (0x02, 0x140)
abbrev RTIME.PPS_PHASE : RegId := (0x02, 0x144)
abbrev RTIME.SHORT : RegId := (0x02, 0x148)
abbrev RTIME.LAST_STEP : RegId := (0x02, 0x150)
abbrev RTIME.STEP_COUNT : RegId := (0x02, 0x158)
abbrev RTIME.LAST_SEALED : RegId := (0x02, 0x160)
abbrev FAULT.PIN_CTRL : RegId := (0x03, 0x100)
abbrev FAULT.PIN_THRESH : RegId := (0x03, 0x104)
abbrev FAULT.PIN_CLR : RegId := (0x03, 0x108)
abbrev FAULT.PIN_STAT : RegId := (0x03, 0x10C)
abbrev FAULT.LOG_PROD : RegId := (0x03, 0x110)
abbrev FAULT.LOG_CONS : RegId := (0x03, 0x114)
abbrev FAULT.OPEN_RECS : RegId := (0x03, 0x118)
abbrev FAULT.ESC_STAT : RegId := (0x03, 0x11C)
abbrev FAULT.FAULTS : RegId := (0x03, 0x120)
abbrev FAULT.MERGES : RegId := (0x03, 0x128)
abbrev FAULT.INJ_CTRL : RegId := (0x03, 0x180)
abbrev FAULT.INJ_INFO : RegId := (0x03, 0x184)
abbrev BOOT.BOOT_STAT : RegId := (0x04, 0x100)
abbrev BOOT.RUN_SEQ : RegId := (0x04, 0x104)
abbrev BOOT.RUN_SVN : RegId := (0x04, 0x108)
abbrev BOOT.MIN_SVN : RegId := (0x04, 0x10C)
abbrev BOOT.FUSE_SVN : RegId := (0x04, 0x110)
abbrev BOOT.SLOTSTAT : RegId := (0x04, 0x114)
abbrev BOOT.BOOT_TIME : RegId := (0x04, 0x124)
abbrev BOOT.LOG_COUNT : RegId := (0x04, 0x128)
abbrev BOOT.RECOV_STAT : RegId := (0x04, 0x12C)
abbrev BOOT.REVISION : RegId := (0x04, 0x130)
abbrev DAXLIA.DAX_STAT : RegId := (0x05, 0x100)
abbrev DAXLIA.TAMPER_STAT : RegId := (0x05, 0x104)
abbrev DAXLIA.SERIAL : RegId := (0x05, 0x108)
abbrev DAXLIA.KEY_INDEX : RegId := (0x05, 0x110)
abbrev CAL.OCC : RegId := (0x06, 0x100)
abbrev CAL.OCC_HWM : RegId := (0x06, 0x104)
abbrev CAL.SPILL_HI : RegId := (0x06, 0x108)
abbrev CAL.SPILL_LO : RegId := (0x06, 0x10C)
abbrev CAL.SPILL_BASE : RegId := (0x06, 0x110)
abbrev CAL.SPILL_SIZE : RegId := (0x06, 0x118)
abbrev CAL.SPILL_OCC : RegId := (0x06, 0x11C)
abbrev CAL.FIRED : RegId := (0x06, 0x120)
abbrev CAL.LATE : RegId := (0x06, 0x128)
abbrev CAL.STEPPED : RegId := (0x06, 0x130)
abbrev CAL.MAX_LATE : RegId := (0x06, 0x138)
abbrev OCTET.PERS_CTRL : RegId := (0x10, 0x100)
abbrev OCTET.PERS_ACTIVE : RegId := (0x10, 0x104)
abbrev OCTET.LANE_STAT : RegId := (0x10, 0x108)
abbrev OCTET.LANE_CALSTAT : RegId := (0x10, 0x10C)
abbrev OCTET.QUAR_TIME : RegId := (0x10, 0x110)
abbrev OCTET.QUAR_CTRL : RegId := (0x10, 0x114)
abbrev OCTET.QUAR_STAT : RegId := (0x10, 0x118)
abbrev OCTET.PRSNT_DEBOUNCE : RegId := (0x10, 0x11C)
abbrev OCTET.LINK_GRACE : RegId := (0x10, 0x120)
abbrev OCTET.PIPE_MAP : RegId := (0x10, 0x124)
abbrev OCTET.LANE_OFFSET : RegId := (0x10, 0x140)
abbrev HPORT.FUNC_CTRL : RegId := (0x11, 0x100)
abbrev HPORT.SUBSYS_ID : RegId := (0x11, 0x104)
abbrev HPORT.BAR4_SIZE : RegId := (0x11, 0x108)
abbrev HPORT.VF_BASE0 : RegId := (0x11, 0x10C)
abbrev HPORT.VF_BASE1 : RegId := (0x11, 0x110)
abbrev HPORT.VF_TOTAL : RegId := (0x11, 0x114)
abbrev HPORT.VF_NUM : RegId := (0x11, 0x118)
abbrev HPORT.MSIX_PF : RegId := (0x11, 0x11C)
abbrev HPORT.MSIX_VF : RegId := (0x11, 0x120)
abbrev HPORT.MSIX_POOL_FREE : RegId := (0x11, 0x124)
abbrev HPORT.LINK : RegId := (0x11, 0x128)
abbrev HPORT.RESET_STAT : RegId := (0x11, 0x12C)
abbrev HPORT.FLR_COUNT : RegId := (0x11, 0x130)
abbrev EMAC.MODE : RegId := (0x12, 0x100)
abbrev EMAC.FEC_SEL : RegId := (0x12, 0x104)
abbrev EMAC.AN_CTRL : RegId := (0x12, 0x108)
abbrev EMAC.LINK_UP : RegId := (0x12, 0x10C)
abbrev EMAC.MAX_FRAME : RegId := (0x12, 0x110)
abbrev EMAC.STAT_SEL : RegId := (0x12, 0x114)
abbrev EMAC.STAT : RegId := (0x12, 0x118)
abbrev TWIN.LINK_STAT : RegId := (0x13, 0x100)
abbrev TWIN.LINK_SEQ : RegId := (0x13, 0x104)
abbrev TWIN.REPLAY_OCC : RegId := (0x13, 0x108)
abbrev TWIN.TIME_ASYM : RegId := (0x13, 0x10C)
abbrev TWIN.FLITS_TX : RegId := (0x13, 0x110)
abbrev TWIN.FLITS_RX : RegId := (0x13, 0x118)
abbrev TWIN.REPLAYS : RegId := (0x13, 0x120)
abbrev TWIN.CRC_ERR : RegId := (0x13, 0x128)
abbrev TWIN.PAIR_CFG : RegId := (0x13, 0x200)
abbrev TWIN.PAIR_ID : RegId := (0x13, 0x204)
abbrev TWIN.HB_LOSS : RegId := (0x13, 0x208)
abbrev TWIN.LIVE_LOSS : RegId := (0x13, 0x20C)
abbrev TWIN.MTR_SYNC : RegId := (0x13, 0x210)
abbrev TWIN.MIRROR_OCC : RegId := (0x13, 0x214)
abbrev TWIN.SHADOW_BASE : RegId := (0x13, 0x218)
abbrev TWIN.SHADOW_SLOTS : RegId := (0x13, 0x220)
abbrev TWIN.PEER_RING_BASE : RegId := (0x13, 0x224)
abbrev TWIN.PEER_RING_LOG2 : RegId := (0x13, 0x22C)
abbrev TWIN.PEER_RING_PROD : RegId := (0x13, 0x230)
abbrev TWIN.PEER_RING_CONS : RegId := (0x13, 0x234)
abbrev TWIN.MSEQ_TX : RegId := (0x13, 0x238)
abbrev TWIN.MACK_RX : RegId := (0x13, 0x240)
abbrev TWIN.MIRROR_LAG_MAX : RegId := (0x13, 0x248)
abbrev TWIN.PEER_STATE : RegId := (0x13, 0x24C)
abbrev TWIN.LAST_TAKE : RegId := (0x13, 0x250)
abbrev TWIN.PORT_PAIR : RegId := (0x13, 0x400)
abbrev DPORT.MAX_GEN : RegId := (0x14, 0x100)
abbrev DPORT.DLLA : RegId := (0x14, 0x104)
abbrev DPORT.LINK : RegId := (0x14, 0x110)
abbrev DPORT.IW : RegId := (0x14, 0x200)
abbrev WINDOW.EPOCH : RegId := (0x15, 0x100)
abbrev WINDOW.COMMIT_STAT : RegId := (0x15, 0x104)
abbrev WINDOW.OLDEST_EPOCH : RegId := (0x15, 0x108)
abbrev WINDOW.VIOL_INFO : RegId := (0x15, 0x10C)
abbrev WINDOW.VIOL_ADDR : RegId := (0x15, 0x110)
abbrev WINDOW.FWD : RegId := (0x15, 0x118)
abbrev PARSE.PROF_CFG : RegId := (0x21, 0x100)
abbrev PARSE.MAL_SEL : RegId := (0x21, 0x120)
abbrev PARSE.MAL_CNT : RegId := (0x21, 0x124)
abbrev PARSE.PKTS : RegId := (0x21, 0x130)
abbrev PARSE.L4BAD : RegId := (0x21, 0x138)
abbrev PARSE.EXC : RegId := (0x21, 0x140)
abbrev CLASS.CLS : RegId := (0x22, 0x100)
abbrev CLASS.NOFWD : RegId := (0x22, 0x108)
abbrev CLASS.POLDROP : RegId := (0x22, 0x110)
abbrev CLASS.PACEDROP : RegId := (0x22, 0x118)
abbrev CLASS.EDITDROP : RegId := (0x22, 0x120)
abbrev CLASS.MIRROR_TRUNC : RegId := (0x22, 0x128)
abbrev CLASS.PACE_DEPTH : RegId := (0x22, 0x12C)
abbrev CLASS.PROG : RegId := (0x22, 0x200)
abbrev CLASS.PACE_RATE : RegId := (0x22, 0x800)
abbrev CLASS.PACE_BURST : RegId := (0x22, 0x804)
abbrev HTBL.STASH_OCC : RegId := (0x23, 0x110)
abbrev HTBL.SCRUB_CTRL : RegId := (0x23, 0x114)
abbrev HTBL.SHADOW_BASE : RegId := (0x23, 0x118)
abbrev HTBL.LOOKUP : RegId := (0x23, 0x120)
abbrev HTBL.HIT : RegId := (0x23, 0x128)
abbrev HTBL.RELOC : RegId := (0x23, 0x130)
abbrev HTBL.SCRUBBED : RegId := (0x23, 0x138)
abbrev TCAM.LPM_BLOCKS : RegId := (0x24, 0x110)
abbrev TCAM.SCAN_INT : RegId := (0x24, 0x114)
abbrev TCAM.SCRUB_CTRL : RegId := (0x24, 0x118)
abbrev TCAM.SHADOW_BASE : RegId := (0x24, 0x11C)
abbrev TCAM.MOVED : RegId := (0x24, 0x128)
abbrev TCAM.SCAN_PASS : RegId := (0x24, 0x130)
abbrev TCAM.SCRUBBED : RegId := (0x24, 0x138)
abbrev FRAG.FRAG_PARK : RegId := (0x25, 0x100)
abbrev FRAG.FRAG_LIFE : RegId := (0x25, 0x104)
abbrev FRAG.OCC : RegId := (0x25, 0x108)
abbrev FRAG.PARKED : RegId := (0x25, 0x10C)
abbrev FRAG.EXC_GROUP : RegId := (0x25, 0x110)
abbrev FRAG.FOLLOWED : RegId := (0x25, 0x118)
abbrev FRAG.PARK_TO : RegId := (0x25, 0x120)
abbrev FRAG.FULL : RegId := (0x25, 0x128)
abbrev FRAG.EXPIRED : RegId := (0x25, 0x130)
abbrev FLOW.FLOW_BASE : RegId := (0x26, 0x110)
abbrev FLOW.FLOW_SIZE : RegId := (0x26, 0x118)
abbrev FLOW.FLOW_SCAN : RegId := (0x26, 0x11C)
abbrev FLOW.FLUSH_STAT : RegId := (0x26, 0x120)
abbrev FLOW.AGE_LIMIT : RegId := (0x26, 0x140)
abbrev FLOW.EXPIRED : RegId := (0x26, 0x180)
abbrev FLOW.LOOKUP : RegId := (0x26, 0x188)
abbrev FLOW.HIT : RegId := (0x26, 0x190)
abbrev LEARN.LRN_CFG : RegId := (0x27, 0x110)
abbrev LEARN.LRN_PTYPE : RegId := (0x27, 0x114)
abbrev LEARN.SWEEP_PERIOD : RegId := (0x27, 0x118)
abbrev LEARN.NR_BASE : RegId := (0x27, 0x11C)
abbrev LEARN.NR_SIZE : RegId := (0x27, 0x124)
abbrev LEARN.NR_PROD : RegId := (0x27, 0x128)
abbrev LEARN.NR_CONS : RegId := (0x27, 0x12C)
abbrev LEARN.NR_STAT : RegId := (0x27, 0x130)
abbrev LEARN.LEARNED : RegId := (0x27, 0x138)
abbrev LEARN.MOVES : RegId := (0x27, 0x140)
abbrev LEARN.AGED : RegId := (0x27, 0x148)
abbrev LEARN.LRN_DROP : RegId := (0x27, 0x150)
abbrev SPREAD.QDROP : RegId := (0x28, 0x100)
abbrev SPREAD.PDROP : RegId := (0x28, 0x108)
abbrev SPREAD.SKIP : RegId := (0x28, 0x110)
abbrev QMGR.RX_HOLD : RegId := (0x30, 0x100)
abbrev QMGR.QUEUES : RegId := (0x30, 0x104)
abbrev QMGR.ERR_QUEUES : RegId := (0x30, 0x108)
abbrev QMGR.LAST_ERR : RegId := (0x30, 0x10C)
abbrev QMGR.LAST_ERR_IDX : RegId := (0x30, 0x110)
abbrev QMGR.RXHOLD_DROP : RegId := (0x30, 0x118)
abbrev QMGR.DB : RegId := (0x30, 0x120)
abbrev QMGR.COMPL : RegId := (0x30, 0x128)
abbrev QMGR.PROV_DB : RegId := (0x30, 0x130)
abbrev DMA.RING_BASE : RegId := (0x31, 0x100)
abbrev DMA.RING_CFG : RegId := (0x31, 0x108)
abbrev DMA.DB : RegId := (0x31, 0x10C)
abbrev DMA.IDX : RegId := (0x31, 0x110)
abbrev DMA.RATE : RegId := (0x31, 0x114)
abbrev DMA.ERR_STAT : RegId := (0x31, 0x118)
abbrev DMA.DONE_IDX : RegId := (0x31, 0x11C)
abbrev DMA.BYTES : RegId := (0x31, 0x120)
abbrev DMA.DESC : RegId := (0x31, 0x128)
abbrev DMA.THROTTLE : RegId := (0x31, 0x130)
abbrev RDMA.TX : RegId := (0x32, 0x100)
abbrev RDMA.RX : RegId := (0x32, 0x108)
abbrev RDMA.RETX_TO : RegId := (0x32, 0x110)
abbrev RDMA.RETX_SACK : RegId := (0x32, 0x118)
abbrev RDMA.DUP_RX : RegId := (0x32, 0x120)
abbrev RDMA.OOO_RX : RegId := (0x32, 0x128)
abbrev RDMA.RNR_SENT : RegId := (0x32, 0x130)
abbrev RDMA.CNP_RX : RegId := (0x32, 0x138)
abbrev RDMA.QPS : RegId := (0x32, 0x140)
abbrev RDMA.QPS_ERR : RegId := (0x32, 0x144)
abbrev RDMA.CNP_INTERVAL : RegId := (0x32, 0x148)
abbrev RDMA.SR_CFG : RegId := (0x32, 0x14C)
abbrev RDMA.MKEY_BASE : RegId := (0x32, 0x150)
abbrev RDMA.MKEY_SIZE : RegId := (0x32, 0x158)
abbrev RDMA.LAST_ERR : RegId := (0x32, 0x160)
abbrev LEVAIN.STORE_BASE : RegId := (0x33, 0x100)
abbrev LEVAIN.STORE_SLOTS : RegId := (0x33, 0x108)
abbrev LEVAIN.BENCH_LOW : RegId := (0x33, 0x10C)
abbrev LEVAIN.BENCH_HIGH : RegId := (0x33, 0x110)
abbrev LEVAIN.PIN_MAX : RegId := (0x33, 0x114)
abbrev LEVAIN.PARK_TIME : RegId := (0x33, 0x118)
abbrev LEVAIN.BENCH_OCC : RegId := (0x33, 0x11C)
abbrev LEVAIN.STORE_OCC : RegId := (0x33, 0x120)
abbrev LEVAIN.HB_OCC : RegId := (0x33, 0x124)
abbrev LEVAIN.PEND_OCC : RegId := (0x33, 0x128)
abbrev LEVAIN.PIN_OCC : RegId := (0x33, 0x12C)
abbrev LEVAIN.PARK_SEL : RegId := (0x33, 0x130)
abbrev LEVAIN.PARK_OCC : RegId := (0x33, 0x134)
abbrev LEVAIN.FETCH_MAX : RegId := (0x33, 0x138)
abbrev LEVAIN.FETCH : RegId := (0x33, 0x140)
abbrev LEVAIN.WB : RegId := (0x33, 0x148)
abbrev LEVAIN.PARKED : RegId := (0x33, 0x150)
abbrev LEVAIN.PARKDROP : RegId := (0x33, 0x158)
abbrev LEVAIN.STALL : RegId := (0x33, 0x160)
abbrev LEVAIN.PEND_WAIT : RegId := (0x33, 0x168)
abbrev LEVAIN.HB_EN : RegId := (0x33, 0x170)
abbrev LEVAIN.OVER : RegId := (0x33, 0x180)
abbrev NVME.CTRLS : RegId := (0x34, 0x100)
abbrev NVME.NSS : RegId := (0x34, 0x104)
abbrev NVME.BK_HOLD : RegId := (0x34, 0x108)
abbrev NVME.BK_TIMEOUT : RegId := (0x34, 0x10C)
abbrev NVME.UTC_OFFSET : RegId := (0x34, 0x110)
abbrev NVME.STAGE_BASE : RegId := (0x34, 0x114)
abbrev NVME.STAGE_SIZE : RegId := (0x34, 0x11C)
abbrev NVME.STAGE_RKEY : RegId := (0x34, 0x120)
abbrev NVME.CMDS : RegId := (0x34, 0x128)
abbrev NVME.RD_BYTES : RegId := (0x34, 0x130)
abbrev NVME.WR_BYTES : RegId := (0x34, 0x138)
abbrev NVME.CACHE_HIT : RegId := (0x34, 0x140)
abbrev RLOCK.OCC : RegId := (0x35, 0x100)
abbrev RLOCK.OCC_HWM : RegId := (0x35, 0x104)
abbrev RLOCK.STALL : RegId := (0x35, 0x108)
abbrev RLOCK.FULL : RegId := (0x35, 0x110)
abbrev RLOCK.STALL_MAX : RegId := (0x35, 0x118)
abbrev CIPHER.QOCC : RegId := (0x40, 0x100)
abbrev CIPHER.SUSP_OCC : RegId := (0x40, 0x104)
abbrev CIPHER.JOBS : RegId := (0x40, 0x108)
abbrev CIPHER.BYTES : RegId := (0x40, 0x110)
abbrev CIPHER.SUSPEND : RegId := (0x40, 0x118)
abbrev CIPHER.PREEMPT_MAX : RegId := (0x40, 0x120)
abbrev MACSEC.PORT_CFG : RegId := (0x41, 0x100)
abbrev MACSEC.REPLAY_WIN : RegId := (0x41, 0x120)
abbrev MACSEC.STAT_SEL : RegId := (0x41, 0x140)
abbrev MACSEC.STAT : RegId := (0x41, 0x144)
abbrev KEYS.SLOT_BASE : RegId := (0x42, 0x100)
abbrev KEYS.CACHE_OCC : RegId := (0x42, 0x108)
abbrev KEYS.FETCH_MAX : RegId := (0x42, 0x10C)
abbrev KEYS.MISS : RegId := (0x42, 0x110)
abbrev TILE.TILE_CTRL : RegId := (0x50, 0x100)
abbrev TILE.CANARY_INTERVAL : RegId := (0x50, 0x104)
abbrev TILE.TEST_RESULT : RegId := (0x50, 0x108)
abbrev TILE.CANARY_RUN : RegId := (0x50, 0x110)
abbrev TILE.CANARY_MISS : RegId := (0x50, 0x118)
abbrev TILE.TESTS : RegId := (0x50, 0x120)
abbrev PROOFER.ITEMS_FREE : RegId := (0x51, 0x100)
abbrev PROOFER.ITEMS_HWM : RegId := (0x51, 0x104)
abbrev PROOFER.DRAIN_LIMIT : RegId := (0x51, 0x108)
abbrev PROOFER.LOCK_LIMIT : RegId := (0x51, 0x10C)
abbrev PROOFER.DISPATCH : RegId := (0x51, 0x110)
abbrev PROOFER.REFUSED : RegId := (0x51, 0x118)
abbrev PROOFER.REDELIV : RegId := (0x51, 0x120)
abbrev PROOFER.INJ_DROP : RegId := (0x51, 0x128)
abbrev CLUSTER.HART_RUN : RegId := (0x52, 0x100)
abbrev CLUSTER.HART_WAIT : RegId := (0x52, 0x104)
abbrev CLUSTER.RESTART_PC : RegId := (0x52, 0x108)
abbrev CLUSTER.L2_CORR : RegId := (0x52, 0x110)
abbrev CLUSTER.L1_REFETCH : RegId := (0x52, 0x118)
abbrev HBMC.PAGE_IDLE : RegId := (0x60, 0x100)
abbrev HBMC.SCRUB_PERIOD : RegId := (0x60, 0x104)
abbrev HBMC.DLY_ACTIVE : RegId := (0x60, 0x108)
abbrev HBMC.DRIFT_SEL : RegId := (0x60, 0x10C)
abbrev HBMC.DRIFT : RegId := (0x60, 0x110)
abbrev HBMC.CE : RegId := (0x60, 0x118)
abbrev HBMC.UE : RegId := (0x60, 0x120)
abbrev HBMC.UE_ADDR : RegId := (0x60, 0x128)
abbrev HBMC.CAPACITY : RegId := (0x60, 0x130)
abbrev HBMC.SPEED : RegId := (0x60, 0x134)
abbrev HBMC.DIMM_CFG : RegId := (0x60, 0x138)
abbrev HBMC.PANIC_STAT : RegId := (0x60, 0x180)
abbrev HBMC.PORT_CFG : RegId := (0x60, 0x200)
abbrev HBMC.PANIC : RegId := (0x60, 0x204)
abbrev DDRC.PAGE_IDLE : RegId := (0x61, 0x100)
abbrev DDRC.SCRUB_PERIOD : RegId := (0x61, 0x104)
abbrev DDRC.DLY_ACTIVE : RegId := (0x61, 0x108)
abbrev DDRC.DRIFT_SEL : RegId := (0x61, 0x10C)
abbrev DDRC.DRIFT : RegId := (0x61, 0x110)
abbrev DDRC.CE : RegId := (0x61, 0x118)
abbrev DDRC.UE : RegId := (0x61, 0x120)
abbrev DDRC.UE_ADDR : RegId := (0x61, 0x128)
abbrev DDRC.CAPACITY : RegId := (0x61, 0x130)
abbrev DDRC.SPEED : RegId := (0x61, 0x134)
abbrev DDRC.DIMM_CFG : RegId := (0x61, 0x138)
abbrev MEMENC.DDR_USABLE : RegId := (0x62, 0x100)
abbrev MEMENC.REGIONS : RegId := (0x62, 0x108)
abbrev MEMENC.TAGFAIL : RegId := (0x62, 0x110)
abbrev TENANT.OPEN : RegId := (0x70, 0x100)
abbrev TENANT.DRAINS : RegId := (0x70, 0x104)
abbrev TENANT.DRAIN_MAX : RegId := (0x70, 0x108)
abbrev TENANT.DRAINED : RegId := (0x70, 0x110)
abbrev METER.ACTIVE_BANK : RegId := (0x71, 0x100)
abbrev METER.CMB_OCC : RegId := (0x71, 0x104)
abbrev METER.LATE_FOLD : RegId := (0x71, 0x108)
abbrev METER.CONFORM : RegId := (0x71, 0x110)
abbrev METER.EXCEED : RegId := (0x71, 0x118)
abbrev SLICE.BANK_BASE : RegId := (0x72, 0x100)
abbrev SLICE.STAGE_BASE : RegId := (0x72, 0x108)
abbrev SLICE.STAGE_MINUTES : RegId := (0x72, 0x110)
abbrev SLICE.RING_BASE : RegId := (0x72, 0x114)
abbrev SLICE.RING_LOG2 : RegId := (0x72, 0x11C)
abbrev SLICE.RING_PROD : RegId := (0x72, 0x120)
abbrev SLICE.RING_CONS : RegId := (0x72, 0x124)
abbrev SLICE.SEAL_GRACE : RegId := (0x72, 0x128)
abbrev SLICE.STAGE_OCC : RegId := (0x72, 0x12C)
abbrev SLICE.LAST_MINUTE : RegId := (0x72, 0x130)
abbrev SLICE.CHAIN_ID : RegId := (0x72, 0x138)
abbrev SLICE.SLICES : RegId := (0x72, 0x140)
abbrev SLICE.CARRIED : RegId := (0x72, 0x148)
abbrev SLICE.ORPHAN : RegId := (0x72, 0x150)
abbrev PWR.RAIL_WARN : RegId := (0x80, 0x100)
abbrev PWR.RAIL_SEL : RegId := (0x80, 0x104)
abbrev PWR.RAIL_MV : RegId := (0x80, 0x108)
abbrev PWR.RAIL_MIN : RegId := (0x80, 0x10C)
abbrev PWR.BO_COUNT : RegId := (0x80, 0x110)
abbrev PWR.BO_LAST : RegId := (0x80, 0x118)
abbrev PWR.BO_PAUSE : RegId := (0x80, 0x120)
abbrev THERM.TEMP : RegId := (0x81, 0x100)
abbrev THERM.THROT_TEMP : RegId := (0x81, 0x200)
abbrev THERM.THROT_STAT : RegId := (0x81, 0x204)
abbrev THERM.MAX_TEMP : RegId := (0x81, 0x208)
abbrev THERM.THROT_US : RegId := (0x81, 0x210)
abbrev MGMT.STRAPS : RegId := (0x82, 0x100)
abbrev MGMT.MI3C_CFG : RegId := (0x82, 0x104)
abbrev MGMT.UART_CTRL : RegId := (0x82, 0x108)
abbrev MGMT.SPD_STAT : RegId := (0x82, 0x10C)
abbrev MGMT.GPIO_OUT : RegId := (0x82, 0x110)
abbrev MGMT.GPIO_OE : RegId := (0x82, 0x114)
abbrev MGMT.GPIO_IN : RegId := (0x82, 0x118)
abbrev MGMT.HPRSNT : RegId := (0x82, 0x120)
abbrev MGMT.PERST : RegId := (0x82, 0x130)
abbrev MGMT.LIVE_STAT : RegId := (0x82, 0x140)

/-- ENABLE resets to 1 in eight block types (R52). -/
def enableReset (blk : Nat) : Bool :=
  blk == 0x01 || blk == 0x02 || blk == 0x03 || blk == 0x04 || blk == 0x05 || blk == 0x80 || blk == 0x81 || blk == 0x82

/-- The reset value of the register at an address (R47, R51, R66, and each page's table). SRC_CTRL: the field table of
R41 (log 8); THROT_TEMP by ordering code (R446). -/
def resetOf (codeE : Bool) (addr : Nat) : Word :=
  let blk := addr / 2097152
  let inst := addr / 4096 % 512
  let off := addr % 4096
  if off < 0x100 then
    match off with
    | 0x000 => BitVec.ofNat 32 (blk * 65536 + inst)
    | 0x004 => 0x100
    | 0x008 => if enableReset blk then 1 else 0
    | _ => 0
  else if blk == 0x10 && off == 0x124 then BitVec.ofNat 32 (inst % 32)
  else if blk == 0x01 && 0x800 ≤ off && off < 0xC00 then
    let t := (off - 0x800) / 4
    if t == 0x01 || t == 0x03 || t == 0x80 || t == 0x81 || t == 0x82 then 0x7F else 0x3F
  else if (blk == 0x60 || blk == 0x61) && 0x200 ≤ off && off < 0x240 && off % 8 == 0 then 0x1100
  else if blk == 0x80 && 0x130 ≤ off && off < 0x140 then 0xFFFFFFFF
  else if blk == 0x81 && off == 0x200 then (if codeE then 0x6E else 0x69)
  else
    match (rowsOf blk).find? (·.covers off) with
    | some r => BitVec.ofNat 32 r.reset
    | none => 0

/-- The table row of a register, by block type and offset. -/
def rowOf? (blk off : Nat) : Option RegRow :=
  (rowsOf blk).find? (·.covers off)


end Sys2Proof.Machine
end

