-- ==== Sys2Proof/Config.lean ====
section
/-! DEFINITION. What one device fixes, and the free values: opaque constants that nothing can evaluate.
A statement about a free value holds for every value of it. -/

namespace Sys2Proof.Config

/-- A fresh value the manual leaves open (log 1): the n-th one, w bits wide. -/
opaque freeValue (w : Nat) (n : Nat) : BitVec w

/-- SHA-384, named by R371, R373, R406, R417 and defined outside the manual (log 6). -/
opaque sha384 (bytes : List Byte) : BitVec 384

/-- The verdict of the signature checks of R406 and R420, by standards outside the manual (log 6). -/
opaque signatureGood (key msg sig : List Byte) : Bool

/-- AES Key Wrap's unwrapping (R309, R419): `none` when its integrity check fails (log 6). -/
opaque aesUnwrap (key : BitVec 256) (wrapped : List Byte) : Option (List Byte)

/-- Ciphertext and tag of a cipher job (R299), by mode, key, nonce, AAD and data (log 6). -/
opaque encrypt (mode : Nat) (key : List Byte) (nonce : BitVec 128) (aad data : List Byte) : List Byte × BitVec 128

/-- Plaintext of a cipher job and the tag its ciphertext has (log 6). -/
opaque decrypt (mode : Nat) (key : List Byte) (nonce : BitVec 128) (aad data : List Byte) : List Byte × BitVec 128

/-- The first 32 bytes of SHA-384 over the ECDH shared secret of R419 (log 6). -/
opaque importWrapKey (devicePriv : Nat) (providerPub : List Byte) : BitVec 256

/-- The device's public import key of one boot (R419), 97 bytes (log 6). -/
opaque importPub (devicePriv : Nat) : List Byte

/-- The fused debug key's public half (R420) and the DeviceID certificate chain (R417, R418) (log 6). -/
opaque debugKey : List Byte
opaque certChain : List Byte

/-- The attestation public key (R373, R417) (log 6). -/
opaque attestPub : List Byte

/-- The ICRC of an RDMA packet (R221, R228), by the RoCEv2 standard (log 6). -/
opaque icrc (bytes : List Byte) : BitVec 32

/-- The AES-GMAC tag of a minimum-version record copy, under Daxlia's derived key (R413) (log 6). -/
opaque gmacVersion (q0 : Dword) : BitVec 128

/-- The DIMM in a slot of a DDR5 channel, as its SPD says (R347): GiB (0: none answers) and whether its devices are x8. -/
opaque dimm (channel slot : Nat) : Nat × Bool

/-- The HBM of the device trains (R353, R416 code 0x20). -/
opaque hbmTrains : Bool

/-- The device serial (R422), fused. DESIGN CHOICE 0 (log 3). -/
def serial : Dword := 0

/-- The ordering code: true for MH4096-A1-E, false for MH4096-A1-C (R6). DESIGN CHOICE -C (log 3). -/
def codeE : Bool := false

/-- What a byte of device memory that nothing has written reads as. DESIGN CHOICE 0 (log 2). -/
def memDefault : Byte := 0

/-- The provider's packet buffer cell quota (R327), which the manual does not size. DESIGN CHOICE (log 7). -/
def cellQuota : Nat := 655360

end Sys2Proof.Config
end

