-- ==== Sys2Proof/Machine/State.lean ====
section
/-! DEFINITION. The state of the block: every register page, table, queue, buffer, mode and pin the manual gives
it, as plain data, the queue of waiting commands, and what the block has sent out. -/

namespace Sys2Proof.Machine

/-- Why the machine stops. -/
inductive Fault where
  /-- Rack Time has reached 2^64 ns (TAI year 2554): the device does not define behaviour beyond that point (R14).
  Raised by the idle step alone. Safe: the model stops where the manual gives no effect. -/
  | beyond2554
  deriving DecidableEq, Repr

/-- Why a command has no meaning here. -/
inductive Refusal where
  /-- A row of the table whose meaning is not written. Raised by an arm of `exec`. Safe. -/
  | notModelled (mnemonic : String)
  deriving DecidableEq, Repr

/-- What leaves the block: read data to a requester, TLPs to a host, frames, flits, pins. -/
inductive Out where
  /-- Register read data (R48 to R50); `none` is an Unsupported Request or a load access fault. -/
  | regData (who : Requester) (value : Option Word)
  /-- Read data of a function's BAR0 (R68). -/
  | barData (port sel : Nat) (value : Option Word)
  /-- A posted write to a host's memory, as qwords or as bytes (R98, R117, R127). -/
  | hostWrite (port sel addr : Nat) (qws : List Dword)
  | hostBytes (port sel addr : Nat) (bytes : List Byte) (ro : Bool)
  /-- A read of host or device memory: what for (1 descriptors, 2 payload, 3 DMA data, 4 flush, 5 context,
  6 atomic, 7 window, 8 backing, 9 slot check of R394), address, length, Relaxed Ordering (R98). -/
  | memRead (port sel why addr len : Nat) (ro : Bool)
  /-- An MSI-X message of a function (R63, R130), and the INTx wire of a port (R97). -/
  | msix (port sel vec : Nat)
  | intx (port : Nat) (asserted : Bool)
  /-- A completion to a host request: 0 data, 1 Unsupported Request, 2 Completer Abort, 3 Retry Status (R96, R103); a port
  from 128 on is a root port of a D octet, 128 + 4 × octet + port (R84). -/
  | completion (port kind : Nat) (bytes : List Byte)
  /-- An error reported through AER on a function (R99): the error's name by the row of R99, 1 to 7. -/
  | aer (port sel err : Nat)
  /-- A frame to an Ethernet port, with its egress stamp in ns (R26). -/
  | frame (port : Nat) (bytes : List Byte) (stamp : Nat)
  /-- An RDMA packet from an engine: destination QPN, opcode, PSN, entropy port, headers and payload (R228). -/
  | rdma (qpn peer opcode psn sport : Nat) (hdr : List Nat) (payload : List Byte)
  /-- A flit on a twin link: its header, payload and CRC (R382, R384). -/
  | flit (link : Nat) (header : Dword) (payload : List Dword) (crc : Dword)
  /-- A request to a backing queue (R287): token, queue, operation, LBA, blocks. -/
  | backing (token queue op lba blocks : Nat)
  /-- A Kwegan result in rd, or an exception the hart takes: 2 illegal, 4 and 6 misaligned, 5 and 7 access (R323). -/
  | hartRd (hart rd : Nat) (value : Dword)
  | hartTrap (hart cause : Nat)
  /-- What a hart reads from one of its Kwegan CSRs (R322). -/
  | hartCsr (hart csr : Nat) (value : Dword)
  /-- Answers over DOE (R418), JTAG (R420) and from a memory controller to a requester port (R349). -/
  | spdm (port code : Nat) (bytes : List Byte)
  | jtag (code : Nat)
  | memData (port : Nat) (bytes : Option (List Byte))
  /-- A pin or lane act: 1 PPS_OUT, 2 TWIN_LIVE_OUT, 3 FAULT_N, 4 HALT_CODE, 5 THERMTRIP_N, 6 link held down,
  7 link training starts, 8 NACK of the management bus, 9 requested block of the loader, 10 TREF_OUT in MHz. -/
  | pin (which index level : Nat)
  deriving DecidableEq, Repr

/-- A page command that is running (R56), with the arguments it took. -/
structure Running where
  who  : Requester
  tag  : BitVec 8
  op   : BitVec 8
  rsvd : Bool
  arg0 : Word
  arg1 : Word
  data : List Dword
  env  : List Dword
  /-- When it started, in ns (R60). -/
  start : Nat
  /-- It has had its judgement and waits for an event of its own to end. -/
  wait : Bool
  /-- The result and data it will end with, once it waits only for mirroring (R212). -/
  res  : BitVec 8
  ret  : Option (List Dword)
  deriving DecidableEq, Repr

/-- A calendar event (R32). -/
structure CalEvent where
  deadline : Nat
  unit     : Nat
  kind     : Nat
  cookie   : Nat
  deriving DecidableEq, Repr

/-- A calendar slice: events on chip and spilled, each in the order they were scheduled (R31, R34). -/
structure Slice where
  chip  : List CalEvent := []
  spill : List CalEvent := []
  deriving DecidableEq, Repr

/-- The discipline states (R40). -/
inductive DState where
  | freerun | acquiring | locked | holdover
  deriving DecidableEq, Repr

/-- A source's qualification: whether it holds, since when, and when it was last measured, in BREF ns (R16, R19). -/
structure Qual where
  ok    : Bool := false
  since : Nat := 0
  last  : Nat := 0
  deriving DecidableEq, Repr

/-- Rack Time's discipline and the seal sequencer (R16 to R30). -/
structure Clock where
  dstate      : DState := .freerun
  source      : Option Source := none
  armed       : Bool := false
  lastSealed  : Int := 0
  /-- A step that awaits the next time-bus frame, in 2^-16 ns (R22). -/
  stepPending : Option Int := none
  /-- The pending step is the initial step on leaving FREERUN (R23, R30). -/
  initialStep : Bool := false
  /-- The next measurement is applied as the initial step (R23). -/
  awaitInit   : Bool := false
  lockCount   : Nat := 0
  everLocked  : Bool := false
  /-- Frequency adjustment and the one of the last LOCKED period, in 2^-8 ppb (R39). -/
  freqAdj     : Int := 0
  heldAdj     : Int := 0
  /-- Adjustments of the last 16 s in LOCKED, with the BREF time from which each held (R23). -/
  hist        : List (Nat × Int) := []
  ptp         : Qual := {}
  pps         : Qual := {}
  twin        : Qual := {}
  trefOk      : Bool := true
  /-- The next seal carries STEPPED (R30). -/
  sealStepped : Bool := false
  ppsOut      : Bool := false
  /-- What TREF_OUT drives, in MHz; 0 is held low (R38). -/
  trefOut     : Nat := 0
  deriving DecidableEq, Repr

/-- A contiguous range of VF pool indices or MSI-X sizes of a port (R92, R93). -/
structure Alloc where
  base0 : Nat := 0
  n0    : Nat := 0
  base1 : Nat := 0
  n1    : Nat := 0
  pf0   : Nat := 0
  pf1   : Nat := 0
  vf0   : Nat := 0
  vf1   : Nat := 0
  deriving DecidableEq, Repr

/-- A host port (R75 to R105, R265). -/
structure HPort where
  /-- A running debounce or LINK_GRACE deadline in ns (R78). -/
  debounce  : Option Nat := none
  grace     : Option Nat := none
  /-- 0 ABSENT, 1 ATTACHED, 2 QUARANTINED, 3 DECIDE (R80). -/
  quar      : Nat := 0
  /-- A refused expiry schedule: its deadline, and when it is tried again, in ns (R81). -/
  quarRetry : Option (Nat × Nat) := none
  l0        : Bool := false
  gen       : Nat := 0
  width     : Nat := 0
  flit      : Bool := false
  /-- As presented to the host, and as allocated for the next fresh start (R92, R93). -/
  shown     : Alloc := {}
  next      : Alloc := {}
  nvf0      : Nat := 0
  nvf1      : Nat := 0
  pf1       : Bool := false
  cf        : Nat := 0
  bar4      : Nat := 0
  inReset   : Bool := false
  intxWire  : Bool := false
  /-- Host backing: VALID, draining, slots in use (R265); doorbells held for contexts not resident (R268). -/
  hbDrain   : Bool := false
  hbSlots   : List Nat := []
  deriving DecidableEq, Repr

/-- A function, keyed by host port and selector (R89, R104, R359). -/
structure Func where
  owner     : Nat := 4096
  d3        : Bool := false
  inReset   : Bool := false
  draining  : Bool := false
  transPend : Bool := false
  msixEn    : Bool := false
  intDis    : Bool := false
  intxCause : Word := 0
  subsumed  : Bool := false
  /-- The configuration words the host has written, by offset (R91). -/
  cfg       : Tbl Word := []
  qcSel     : Word := 0
  qcResult  : Word := 0
  hbBaseLo  : Word := 0
  hbBaseHi  : Word := 0
  hbPages   : Word := 0
  hbValid   : Bool := false
  deriving DecidableEq, Repr

/-- A rack-window TLP forwarded and not yet complete (R101). -/
structure WinTlp where
  id    : Nat
  epoch : Nat
  src   : Nat
  write : Bool
  deriving DecidableEq, Repr

/-- A WINDOW page: shadow table and the live epochs with their tables, newest first (R101). -/
structure WinUnit where
  shadow : Tbl (List Dword) := []
  epochs : List (Nat × Tbl (List Dword)) := [(0, [])]
  tlps   : List WinTlp := []
  nextId : Nat := 0
  deriving DecidableEq, Repr

/-- A work item read from a ring and not yet completed (R110, R114, R117). -/
structure WorkItem where
  idx     : BitVec 16
  slots   : Nat
  entries : List (List Dword)
  payload : List Byte := []
  /-- The STATUS and byte count once the item's fate is known. -/
  fate    : Option (Nat × Nat) := none
  stamp   : Nat := 0
  trace   : Bool := false
  portStamp : Bool := false
  /-- It waits for a frame sent with TSTAMP on this Ethernet port (R117). -/
  waitPort : Option Nat := none
  aux     : Word := 0
  /-- Qword 1 bits 31:8 of the completion: flags and VLAN TCI (R115), and PTYPE. -/
  flags   : Nat := 0
  ptype   : Nat := 0
  /-- RDMA: first PSN, PSN count, message number, receive-consuming count; receive: bytes placed. -/
  psn0    : Nat := 0
  npsn    : Nat := 0
  msg     : Nat := 0
  rseq    : Nat := 0
  placed  : Nat := 0
  sent    : Bool := false
  /-- READ: PSNs whose response data is placed (R247). -/
  rgot    : List Nat := []
  deriving DecidableEq, Repr

/-- A frame for a vport with its receive metadata (R115, R124, R125). -/
structure RxFrame where
  bytes : List Byte
  stamp : Nat
  trace : Bool
  tsOk  : Bool
  hash  : Word
  ptype : Nat
  l3ok  : Bool
  l4ok  : Bool
  deadline : Option Nat := none
  /-- The send work item whose frame it is, if a queue of the device sent it (R177). -/
  src      : Option (Nat × BitVec 16) := none
  deriving DecidableEq, Repr

/-- A ring queue (R107, R122, R257). -/
structure Queue where
  kind   : Nat
  log2   : Nat
  base   : Nat
  bind   : Nat
  ering  : Nat
  devmem : Bool
  handle : Nat
  owner  : Nat
  c      : BitVec 16 := 0
  d      : BitVec 16 := 0
  /-- The next unread index (R114). -/
  u      : BitVec 16 := 0
  /-- 0 NONE, 1 ACTIVE, 2 ERROR, 3 STOPPED, 4 QUARANTINED; the state before quarantine (R122). -/
  state  : Nat := 1
  prior  : Nat := 1
  cause  : Nat := 0
  fidx   : BitVec 16 := 0
  /-- A malformed cause was found: ERROR shows once C reaches this index (R120). -/
  stopAt : Option (BitVec 16) := none
  stopping : Bool := false
  reading  : Bool := false
  /-- Slots read that do not yet make a whole work item (R110, R111). -/
  chain  : List (List Dword) := []
  items  : List WorkItem := []
  rxWait : List RxFrame := []
  deriving DecidableEq, Repr

/-- An event (R127, R128). -/
structure Event where
  type  : Nat
  queue : Nat
  index : Nat
  cause : Nat
  count : Nat
  stamp : Nat
  deriving DecidableEq, Repr

/-- An event ring (R126, R129). -/
structure EvRing where
  base    : Nat
  log2    : Nat
  vector  : Nat
  ep      : Word := 0
  cons    : Word := 0
  armed   : Bool := false
  overrun : Bool := false
  ovrDue  : Bool := false
  backlog : List Event := []
  deriving DecidableEq, Repr

/-- A DMA channel (R134 to R146). -/
structure Dma where
  base   : Nat := 0
  log2   : Nat := 0
  space  : Nat := 0
  fn     : Nat := 0
  c      : BitVec 16 := 0
  d      : BitVec 16 := 0
  u      : BitVec 16 := 0
  doneIdx : BitVec 16 := 0
  cause  : Nat := 0
  fidx   : BitVec 16 := 0
  reading : Bool := false
  /-- Descriptors read and not yet completed, oldest first: the first is in execution while `stage` is not 0. -/
  work   : List (List Dword) := []
  /-- A malformed cause was found: ERROR shows once C reaches this index (R120). -/
  stop   : Option (BitVec 16) := none
  /-- 0 nothing in execution, 1 a read outstanding, 2 its writes all issued or it failed, 3 flushing reads outstanding,
  4 a read waits for budget, 5 a write waits for budget (R137 to R141). -/
  stage  : Nat := 0
  status : Nat := 0
  moved  : Nat := 0
  /-- Bytes read and not yet written. -/
  held   : List Byte := []
  /-- Host ports whose flushing read is outstanding (R139). -/
  flushing : List Nat := []
  /-- Host ports written since the last barrier, with the last address written there (R139). -/
  wrote  : Tbl Nat := []
  /-- Budget and 1 + the window of the last request, 0 before the first (R141). -/
  budget : Int := 0
  window : Nat := 0
  deriving DecidableEq, Repr

/-- A group of an action set: the owner of the entry and the record that supplied it (R173). -/
structure Grp where
  owner : Nat
  recd  : List Dword
  deriving DecidableEq, Repr

/-- An action set (R173). -/
structure ActSet where
  fwd    : Option Grp := none
  police : Option Grp := none
  count  : Option Grp := none
  learn  : Option Grp := none
  mirror : Option Grp := none
  cores  : Option Grp := none
  cipher : Option Grp := none
  edit   : Option Grp := none
  pace   : Option Grp := none
  ptype  : Nat := 0
  deriving DecidableEq, Repr

/-- A packet in a pipeline: its bytes, where it came from, its stamps, its parse vector and metadata (R147, R167). -/
structure Pkt where
  bytes  : List Byte
  /-- Source word 80 and 81 (R167). -/
  inPort : Nat
  inHost : Nat
  owner  : Nat
  stamp  : Nat
  trace  : Bool
  tsOk   : Bool
  second : Bool := false
  rdma   : Bool := false
  /-- The pacing class of an RDMA packet (R228). -/
  cls    : Nat := 0
  pv     : List Byte := []
  hash   : Word := 0
  l4ok   : Bool := false
  /-- The send work item it belongs to (R177). -/
  src    : Option (Nat × BitVec 16) := none
  deriving DecidableEq, Repr

/-- A fragment table entry (R162). -/
structure Frag where
  owner  : Nat
  key    : List Byte
  decided : Option (ActSet × Word) := none
  last   : Nat := 0
  parked : List Pkt := []
  pipe   : Nat := 0
  deriving DecidableEq, Repr

/-- A table entry with its side word (R211). -/
structure Entry where
  data   : List Dword
  owner  : Nat
  wide   : Bool := false
  static : Bool := false
  ageClass : Nat := 0
  bad    : Bool := false
  old    : Bool := false
  hit    : Bool := false
  valid  : Bool := true
  deriving DecidableEq, Repr

/-- A learn request (R208). -/
structure LearnReq where
  key   : List Dword
  src   : Nat
  owner : Nat
  deriving DecidableEq, Repr

/-- A pacing class (R184): NEXT in 2^-16 ns and the packets it holds with their release times in ns. -/
structure Pace where
  next : Nat := 0
  held : List (Nat × Pkt × ActSet) := []
  deriving DecidableEq, Repr

/-- A message the responder is receiving (R237): its MSG, its class (0 SEND, 1 WRITE, 2 READ or atomic), what the first
packet or RETH says, bytes placed in order, and what the last packet says: length, first and last PSN, immediate. -/
structure RMsg where
  msg    : Nat
  kind   : Nat
  rseq   : Nat := 0
  va     : Nat := 0
  rkey   : Nat := 0
  dmaLen : Nat := 0
  placed : Nat := 0
  length : Option Nat := none
  psn0   : Nat := 0
  lastPsn : Nat := 0
  imm    : Option Word := none
  stamp  : Nat := 0
  trace  : Bool := false
  deriving DecidableEq, Repr

/-- A queue pair (R224 to R248). -/
structure Qp where
  /-- 1 INIT, 2 RTR, 3 RTS, 4 ERROR, 5 QUARANTINED (R226). -/
  state  : Nat := 1
  prior  : Nat := 1
  attr   : List Dword
  handle : Nat
  /-- Requester: next PSN to send, oldest unacknowledged, next MSG and RSEQ, PSNs reported received. -/
  nextPsn : Nat := 0
  una    : Nat := 0
  /-- The PSN after the last one acknowledged in order, and READs and atomics done beyond it: first PSN and count. -/
  ackTo  : Nat := 0
  readDone : List (Nat × Nat) := []
  nextMsg : Nat := 0
  nextRseq : Nat := 0
  sacked : List Nat := []
  /-- Send time in ns and attempts of each request PSN sent and not acknowledged. -/
  attempts : Tbl (Nat × Nat) := []
  sackResent : List Nat := []
  srSend : Bool := false
  srRecv : Bool := false
  rto    : Nat := 0
  retry  : Nat := 0
  /-- Consecutive RNR NAKs, and the first PSN of the message they named (R243). -/
  rnr    : Nat := 0
  rnrPsn : Option Nat := none
  timer  : Option Nat := none
  timerRetry : Bool := false
  rnrWait : Option (Nat × Nat) := none
  /-- Responder: ePSN, bitmap of PSNs beyond it, next RSEQ base, open messages, next MSG to complete. -/
  epsn   : Nat := 0
  got    : List Nat := []
  rqBase : Nat := 0
  /-- Receive-consuming messages met so far (R238). -/
  rxSeq  : Nat := 0
  msgs   : List RMsg := []
  doneMsg : Nat := 0
  nakAt  : Option Nat := none
  ackCnt : Nat := 0
  cache  : List (Nat × Dword) := []
  /-- READs being executed (PSN, MSG, host address, bytes) and atomics at the host (PSN, MSG, address, op, a, b). -/
  reads  : List (Nat × Nat × Nat × Nat) := []
  atoms  : List (Nat × Nat × Nat × Nat × Dword × Dword) := []
  /-- Request packets that wait for a receive entry that is posted and not yet read. -/
  stalled : List RdmaPkt := []
  cnpRx  : Nat := 0
  cnpAt  : Option Nat := none
  deriving DecidableEq, Repr

/-- A Levain context's header and state (R256, R264). -/
structure Ctx where
  unit   : Nat
  cls    : Nat
  hb     : Bool := false
  quar   : Bool := false
  owner  : Nat
  port   : Nat
  hbSlot : Nat := 0
  /-- 1 HOME, 2 FETCHING, 3 RESIDENT, 4 WRITEBACK, 5 QUARANTINED, 6 LOST (R264). -/
  state  : Nat := 3
  dirty  : Bool := true
  ref    : Bool := true
  /-- The hart that holds its Kwegan lock and since when (R325). -/
  lock   : Option (Nat × Nat) := none
  /-- LOCK_LIMIT has been reported for this lock. -/
  lockOver : Bool := false
  demand : Bool := false
  quarDue : Bool := false
  destroyDue : Bool := false
  clsDue : Option Nat := none
  evictCmd : Bool := false
  started : Nat := 0
  bells  : List (Nat × Word) := []
  parked : List (Nat × RxFrame × Nat) := []
  rparked : List RdmaPkt := []
  parkStep : Bool := false
  waitSlot : Bool := false
  deriving DecidableEq, Repr

/-- An NVMe completion: its SQ and slot, command ID, status field, Dword 0, and the token of its command. -/
structure NvCpl where
  sq     : Nat
  slot   : Nat
  cid    : Nat
  status : Nat
  dw0    : Nat
  token  : Option Nat
  deriving DecidableEq, Repr

/-- An NVMe queue of a controller (R276, R277). -/
structure NvQ where
  base   : Nat
  size   : Nat
  handle : Nat
  head   : Nat := 0
  tail   : Nat := 0
  cq     : Nat := 0
  prio   : Nat := 0
  iv     : Nat := 0
  ien    : Bool := false
  phase  : Bool := true
  /-- SQ: next entry to fetch and completed entries of the window. CQ: held completions (R131). -/
  fetch  : Nat := 0
  done   : List Nat := []
  held   : List NvCpl := []
  coal   : Nat := 0
  deriving DecidableEq, Repr

/-- An NVMe controller (R273, R275). -/
structure NvCtl where
  port   : Nat
  sel    : Nat
  owner  : Nat
  maxq   : Nat
  mqes   : Nat
  pin    : Nat
  weight : Nat
  /-- 0 DISABLED, 1 READY, 2 SHUTTING, 3 SHUTDOWN, 4 FATAL, 5 QUARANTINED. -/
  state  : Nat := 0
  prior  : Nat := 0
  cc     : Word := 0
  aqa    : Word := 0
  asq    : Nat := 0
  acq    : Nat := 0
  intms  : Word := 0
  sqs    : Tbl NvQ := []
  cqs    : Tbl NvQ := []
  nsids  : Tbl Nat := []
  feats  : Tbl Word := []
  nq     : Option (Nat × Nat) := none
  aers   : List Nat := []
  aerDue : List Nat := []
  aerMask : List Nat := []
  errLog : List (List Nat) := []
  changed : List Nat := []
  coalAt : Option Nat := none
  rrPtr  : Nat := 0
  /-- Turns left to high, medium and low priority (R280). -/
  wrr    : List Nat := [0, 0, 0]
  deriving DecidableEq, Repr

/-- A namespace (R286, R290). -/
structure NvNs where
  data   : List Dword
  /-- 0 ACTIVE, 1 LOST, 2 FAILED. -/
  state  : Nat := 0
  /-- The BK_HOLD deadline, and when a refused schedule of it is tried again, in ns (R290, R291). -/
  hold   : Option Nat := none
  holdRetry : Option Nat := none
  /-- Read cache: the block that each slot holds (R289). -/
  cache  : Tbl Nat := []
  deriving DecidableEq, Repr

/-- An I/O command fetched and not yet complete, with its range-lock entries (R283, R284). -/
structure NvCmd where
  token  : Nat
  ctl    : Nat
  sq     : Nat
  slot   : Nat
  cid    : Nat
  op     : Nat
  nsid   : Nat
  ns     : Nat
  ranges : List (Nat × Nat)
  sqe    : List Dword
  /-- 0 waiting by R284, 1 at the backing, 2 held by R290. -/
  phase  : Nat := 0
  pieces : Nat := 0
  since  : Nat := 0
  /-- The BK_TIMEOUT deadline, and when a refused schedule of it is tried again, in ns (R290, R291). -/
  timeout : Option Nat := none
  bkq    : Nat := 0
  timeoutRetry : Option Nat := none
  status : Nat := 0
  /-- Pieces whose NVME_MAP item has no reply yet: first LBA and blocks (R285, R288). -/
  unmapped : List (Nat × Nat) := []
  deriving DecidableEq, Repr

/-- A cipher job: a provider job (the descriptor) or a packet job (R302, R304). -/
structure Job where
  qws   : List Dword
  prio  : Nat
  slot  : Nat
  pipe  : Option Nat := none
  pkt   : Option (Pkt × ActSet) := none
  decrypt : Bool := false
  /-- The key and control it started with (R301, R310). -/
  key   : Option (List Dword × List Byte) := none
  fetching : Bool := false
  /-- Its slot was written or invalidated since it started (R310). -/
  old   : Bool := false
  deriving DecidableEq, Repr

/-- A cipher engine (R300, R301). -/
structure Engine where
  queue : List Job := []
  run   : Option Job := none
  susp  : List Job := []
  deriving DecidableEq, Repr

/-- A key slot (R307 to R311): control qwords, key bytes, SEQ and the end of the reserved block. -/
structure KeySlot where
  ctl     : List Dword
  key     : List Byte
  seq     : Nat
  resv    : Nat
  corrupt : Bool := false
  deriving DecidableEq, Repr

/-- A work item: four qwords (R329). -/
abbrev Item := List Dword

/-- A work item held by a hart, with the puts it holds for ordering (R335). -/
structure Held where
  item  : Item
  queue : Nat
  num   : Nat
  puts  : List Item := []
  ended : Bool := false
  hart  : Nat
  start : Nat
  deriving DecidableEq, Repr

/-- A hart (R320 to R325, R343). -/
structure Hart where
  running : Bool := false
  /-- Restarted at: pc, and x registers as far as this chapter's rules write them. -/
  pc    : Dword := 0
  x     : Tbl Dword := []
  ksub  : List Dword := [0, 0, 0, 0]
  kctrl : Dword := 0
  krtf  : BitVec 17 := 0
  /-- Waiting in WGET: the address the item goes to, rd, and until when in ns. -/
  wait  : Option (Nat × Nat × Nat) := none
  rrPtr : Nat := 0
  /-- Since when, in ns, the hart has run outside any item (R336). -/
  outSince : Nat := 0
  deriving DecidableEq, Repr

/-- A work queue of the Proofer: its configuration and the items queued (R333, R341). -/
structure WorkQ where
  cfg   : Dword := 0
  items : List Item := []
  nextNum : Nat := 0
  deriving DecidableEq, Repr

/-- A DRAM controller: delay codes by 2 × lane + set, the armed swap and the ranks still to exchange (R353, R354). -/
structure MemCtl where
  codes : Tbl Dword := []
  swap  : Option Nat := none
  ranks : List Nat := []
  deriving DecidableEq, Repr

/-- A minute staged for the slice ring: its number, slices and seal record (R368, R370). -/
structure Staged where
  minute  : Int
  slices  : List (Nat × List Dword)
  sealRec : List Dword
  signed  : Bool := false
  deriving DecidableEq, Repr

/-- A seal produced at a boundary whose grace has not passed (R368). -/
structure SealDue where
  minute   : Int
  boundary : Nat
  stepped  : Bool
  trace    : Bool
  /-- Tenants that were CLOSING at the boundary: their slices carry FINAL (R361, R374). -/
  closing  : List Nat
  /-- A step of Rack Time passed the whole minute: its slices are all zero (R374). -/
  skipped  : Bool := false
  deriving DecidableEq, Repr

/-- A tenant (R361). -/
structure Tenant where
  /-- 0 FREE, 1 ACTIVE, 2 CLOSING. -/
  state : Nat := 0
  first : Bool := true
  seq   : Nat := 0
  prev  : BitVec 384 := 0
  folded : Bool := false
  /-- TENANT_CLOSE waits for room on the flow flush list (R215, R361). -/
  flowDue : Bool := false
  deriving DecidableEq, Repr

/-- Meters, banks, policers and slices (R364 to R373). -/
structure Meters where
  /-- Combining buffers: per METER page, (key, amount), key = (bank × 4097 + owner index) × 64 + counter. -/
  comb    : Tbl (List (Nat × Nat)) := []
  /-- Policers: tokens in 2^-8 B and the short stamp of the last refill. -/
  pol     : Tbl (Nat × Nat) := []
  /-- Refused refill schedules: when each is tried again, in ns (R367). -/
  refillRetry : Tbl Nat := []
  /-- The last minute whose grace has passed, for late folds (R369). -/
  graceOver : Option Int := none
  due     : List SealDue := []
  carried : List (Nat × Nat) := []
  staged  : List Staged := []
  chainId : Dword := 0
  sealSeq : Nat := 0
  sealPrev : BitVec 384 := 0
  takeover : Bool := false
  deriving DecidableEq, Repr

/-- A twin link (R379, R385, R386). -/
structure Link where
  /-- 0 down, 1 flit lock, 2 IDENT, 3 in service, 4 REFUSED. -/
  stat   : Nat := 0
  txSeq  : BitVec 16 := 0
  rxSeq  : BitVec 16 := 0
  replay : List (BitVec 16 × Nat × List Dword) := []
  replays : Nat := 0
  nakSent : Bool := false
  credits : List Nat := [0, 0, 0, 0, 0, 0, 0, 0]
  /-- Credited flits that wait for a credit or for room in the replay buffer: channel and payload (R385, R386). -/
  queued : List (Nat × List Dword) := []
  heard  : Bool := false
  deriving DecidableEq, Repr

/-- A completion that waits for mirroring (R390): the MSEQ it waits for and what becomes visible then: what leaves,
the queue whose C advances, the events of event rings, the page whose command ends, the RING_PROD it reaches. -/
structure Waiting where
  mseq : Nat
  outs : List Out := []
  cTo  : Option (Nat × Nat) := none
  evs  : List (Nat × Event) := []
  nv   : List (Nat × NvCpl) := []
  /-- RDMA packets that wait: QPN, MSG, opcode, PSN, extension headers and payload. -/
  rdma : List (Nat × Nat × Nat × Nat × List Byte) := []
  page : Option Nat := none
  ringProd : Option Nat := none
  since : Nat := 0
  deriving DecidableEq, Repr

/-- The twin pair (R378 to R399). -/
structure Twin where
  links   : Tbl Link := []
  mseqTx  : Nat := 0
  mackRx  : Nat := 0
  mseqRx  : Nat := 0
  group   : List (List Dword) := []
  unacked : List (Nat × Nat × List Dword) := []
  waiting : List Waiting := []
  rr      : Nat := 0
  /-- The peer's handles whose contexts the shadow holds (R390). -/
  shadow  : List Nat := []
  /-- COMPL records applied: handle, index, UNIT. -/
  compl   : List (Nat × Nat × Nat) := []
  totals  : Tbl Dword := []
  /-- Records that arrived ahead of their turn, by MSEQ (R390). -/
  early   : Tbl (List Dword) := []
  /-- TAKEOVER flits were sent since the pair state last changed (R399). -/
  sentTake : Bool := false
  peerQ0  : Dword := 0
  bulkMine : Bool := false
  bulkPeer : Bool := false
  /-- Handles the peer hands back, received over BULK while PAIRED (R398). -/
  handed  : List Nat := []
  taken   : List Nat := []
  handing : List Nat := []
  lastHeard : Nat := 0
  liveLast : Nat := 0
  liveStopped : Bool := true
  liveIn  : Bool := false
  liveOut : Bool := false
  deriving DecidableEq, Repr

/-- A flash slot: header fields and the image (R405). -/
structure FSlot where
  state    : Nat := 0xFF
  attempts : Nat := 0
  seq      : Nat := 0
  svn      : Nat := 0
  len      : Nat := 0
  image    : List Byte := []
  deriving DecidableEq, Repr

/-- Boot: fuses, flashes, stage, log and push (R402 to R415, R421). -/
structure Boot where
  bootList : List Nat := [0, 0, 0, 0, 0]
  keyHash  : List (BitVec 384) := [0, 0, 0, 0]
  revoked  : BitVec 4 := 0
  fuseSvn  : Nat := 0
  testFuse : Bool := false
  slots    : List FSlot := [{}, {}, {}, {}]
  records  : List (Nat × Nat) := [(0, 0), (0, 0)]
  /-- 0 not running, 1 to 4 the stage reached, 5 harts released. -/
  stage    : Nat := 0
  source   : Nat := 0
  sources  : List Nat := []
  slot     : Nat := 0
  failed   : List Nat := []
  trial    : Bool := false
  manifest : List Byte := []
  blocks   : List (Nat × Nat) := []
  pushOpen : Bool := false
  push     : Tbl (List Dword) := []
  staged   : List Byte := []
  firstFail : Nat := 0
  log      : List (List Dword) := []
  measures : Tbl (BitVec 384) := []
  /-- The rise of PWRGOOD that started the boot, and the start of the present source, in ns (R409, R415). -/
  riseAt   : Nat := 0
  srcAt    : Nat := 0
  /-- CF_MSIX of the configuration record (R93, R415). -/
  cfMsix   : Nat := 0
  deriving DecidableEq, Repr

/-- Daxlia (R306, R417 to R422). -/
structure Daxlia where
  drbgOk    : Bool := true
  priv      : Nat := 0
  importKey : Option (BitVec 256) := none
  /-- The import key has been set this boot (R419). -/
  imported  : Bool := false
  chunks    : Tbl (List Dword) := []
  nonce     : Option (BitVec 256) := none
  sigPart   : List Dword := []
  debug     : Bool := false
  attested  : Bool := false
  storage   : Bool := false
  spdm      : Tbl Nat := []
  deriving DecidableEq, Repr

/-- A fault record (R428). -/
structure FRec where
  fsn     : Nat
  cls     : Nat
  inj     : Bool
  merges  : Nat := 0
  /-- 1 OPEN, 2 CLOSED, 3 GAVE_UP. -/
  state   : Nat
  trace   : Bool
  seq     : Nat
  first   : Nat
  last    : Nat
  cause   : Word
  info    : BitVec 16
  recov   : Nat := 0
  /-- The page it belongs to (page key), or none for a hub source (R472). -/
  page    : Option Nat
  /-- The first fault merged since the unit's reset completed: its source, the cause bits since, its detail (R430). -/
  after   : Option (Nat × Word × BitVec 16) := none
  /-- It is in the log ring at this index; none when the log was all OPEN (R428). -/
  at_     : Option Nat := none
  deriving DecidableEq, Repr

/-- A unit's recovery (R430): 0 IN_SERVICE, 1 RESETTING, 2 QUIET, 3 DOWN, its quiet deadline in ns, the starts of
its recoveries, and the source that headed the latest. -/
structure UnitRec where
  state   : Nat := 0
  quiet   : Option Nat := none
  waitQ   : Bool := false
  direct  : Bool := false
  starts  : List Nat := []
  head    : Nat := 0
  deriving DecidableEq, Repr

/-- The Fault Collector, the escalator and the halt (R416, R423 to R436). -/
structure Faults where
  recs   : List FRec := []
  nextSeq : Nat := 0
  sev    : Tbl Dword := []
  units  : Tbl UnitRec := []
  pulseEnd : Option Nat := none
  pinHeld : Bool := false
  /-- PIN_CTRL.MODE in force: a write during a pulse waits for its end (R434). -/
  mode   : BitVec 2 := 0
  halt   : Bool := false
  haltSealed : Bool := false
  haltCode : Nat := 0
  escAt  : Nat := 0
  /-- Between PWRGOOD and the collector's start FAULT_N is asserted (R454). -/
  started : Bool := false
  /-- FAULT_N as last driven: asserted (R434). -/
  pinShown : Bool := true
  deriving DecidableEq, Repr

/-- Supply and thermal state, straps and side pins (R437 to R440, R449, R454). -/
structure Power where
  pwrgood : Bool := false
  held    : Bool := false
  holdEnd : Option Nat := none
  holdSince : Nat := 0
  clearAt : Option Nat := none
  cycled  : Bool := true
  /-- A rail reached its reset level while the hub held the dies: FSN 0x007 once the collector runs (R449). -/
  railPend : Bool := false
  thermTrip : Bool := false
  straps  : BitVec 4 := 0
  hprsnt  : List Nat := []
  perst   : List Nat := []
  railMv  : Tbl Nat := []
  railMin : Tbl Nat := []
  level   : Nat := 0
  throtAt : Nat := 0
  deriving DecidableEq, Repr

/-- A drain of a function or of a removal (R362, R363). -/
structure Drain where
  port  : Nat
  sel   : Nat
  /-- 0 reset, 1 removal. -/
  removal : Bool
  start : Nat
  running : Bool
  deriving DecidableEq, Repr

/-- The whole block. -/
structure State where
  pending  : List Instr := []
  /-- Rack Time since the PTP epoch, in 2^-16 ns (R13), and the local clock from BREF, in ns (R19). -/
  now      : Nat := 0
  bref     : Nat := 0
  /-- Selects the next free value: the model's own field, not the manual's (log 1). -/
  free     : Nat := 0
  /-- What has left the block, newest first. -/
  out      : List Out := []
  /-- Bytes of device memory (R344), canonical. -/
  mem      : List Host.Cell := []
  /-- Page registers (R47), canonical: no entry equal to the register's reset value. -/
  regs     : Tbl Word := []
  latches  : Tbl Word := []
  stages   : Tbl Word := []
  snaps    : Tbl (Tbl Word) := []
  running  : Tbl Running := []
  typePend : List Nat := []
  pgState  : Tbl Nat := []
  faulted  : List Nat := []
  degraded : List Nat := []
  resetting : List Nat := []
  clk      : Clock := {}
  cal      : Tbl Slice := []
  hports   : Tbl HPort := []
  funcs    : Tbl Func := []
  octUp    : Tbl (List Nat) := []
  emacStat : Tbl Dword := []
  windows  : Tbl WinUnit := []
  queues   : Tbl Queue := []
  rings    : Tbl EvRing := []
  dma      : Tbl Dma := []
  nodes    : Tbl (List Dword) := []
  banks    : List Nat := []
  portProf : Tbl Nat := []
  malCnt   : Tbl Dword := []
  frags    : Tbl Frag := []
  keyProf  : Tbl (List Byte) := []
  ranges   : Tbl Dword := []
  arecs    : Tbl (List Dword) := []
  tmpls    : Tbl (List Dword) := []
  hprofs   : Tbl (List Byte) := []
  tkeys    : Tbl (List Byte) := []
  pgrps    : Tbl Nat := []
  stbls    : Tbl Nat := []
  vports   : Tbl (List Dword) := []
  paces    : Tbl Pace := []
  /-- Frames released to an Ethernet port and not yet sent, with the send work item of each (R117). -/
  txq      : Tbl (List (List Byte × Option (Nat × BitVec 16))) := []
  tables   : Tbl Entry := []
  flushing : List Nat := []
  scanning : Bool := false
  /-- Owners of the flush list whose entries the running pass removes. -/
  scanPos  : Nat := 0
  /-- Refused scan (0) and sweep (1) schedules: when the retry is due, in ns (R207). -/
  tableRetry : Tbl Nat := []
  /-- The next row of the TCAM background scan (R201), under key 0. -/
  scanAt   : Tbl Nat := []
  learnQ   : List LearnReq := []
  nrOvr    : Bool := false
  removeQ  : List Nat := []
  qps      : Tbl Qp := []
  ctxs     : Tbl Ctx := []
  quotas   : Tbl (Nat × Nat) := []
  hand     : Nat := 0
  lastCharge : Nat := 0
  /-- A refused occupancy deadline: when it is tried again, in ns (R271). -/
  chargeRetry : Option Nat := none
  ctls     : Tbl NvCtl := []
  nss      : Tbl NvNs := []
  bkqs     : Tbl (List Dword) := []
  nvCmds   : List NvCmd := []
  nextToken : Nat := 0
  engines  : Tbl Engine := []
  slots    : Tbl KeySlot := []
  cached   : List Nat := []
  keyStage : List Dword := []
  sas      : Tbl (List Dword) := []
  macStat  : Tbl Dword := []
  harts    : Tbl Hart := []
  workqs   : Tbl WorkQ := []
  heldBy   : List Held := []
  weights  : Tbl Nat := []
  deficits : Tbl Int := []
  cells    : Tbl Nat := []
  tests    : List Nat := []
  drainAt  : Tbl Nat := []
  canaries : Tbl (List Dword) := []
  canNext  : Tbl Nat := []
  canMiss  : Tbl Nat := []
  memctl   : Tbl MemCtl := []
  regions  : Tbl (List Dword) := []
  panic    : List Nat := []
  tenants  : Tbl Tenant := []
  drains   : List Drain := []
  /-- Reads of a queue that a drain squashed and whose completions have not come (R362). -/
  lateReads : Tbl Nat := []
  met      : Meters := {}
  twin     : Twin := {}
  boot     : Boot := {}
  dax      : Daxlia := {}
  flt      : Faults := {}
  pwr      : Power := {}
  deriving DecidableEq, Repr

/-- The block right after reset (R415, R449): FREERUN, Rack Time 0, every register at its reset value (the sparse
register list is empty), no object made, no command waiting. What the manual gives no reset value is named in
log 3. -/
def State.reset : State := {}

end Sys2Proof.Machine
end

