-- ==== Sys2Proof/Machine/Ops.lean ====
section
/-! DEFINITION. The named operations over tables, memory, registers, counters and outputs that every meaning uses. -/

namespace Sys2Proof

/-! ## Tables by number -/

/-- The entry of a key. -/
def Tbl.get? {α : Type} : List (Nat × α) → Nat → Option α
  | [], _ => none
  | (k', v) :: t, k => if k' = k then some v else Tbl.get? t k

/-- The entry of a key, or a default. -/
def Tbl.getD {α : Type} (t : List (Nat × α)) (k : Nat) (d : α) : α := (Tbl.get? t k).getD d

/-- Set a key, keeping the keys rising. -/
def Tbl.put {α : Type} : List (Nat × α) → Nat → α → List (Nat × α)
  | [], k, v => [(k, v)]
  | (k', v') :: t, k, v =>
    if k < k' then (k, v) :: (k', v') :: t
    else if k = k' then (k, v) :: t
    else (k', v') :: Tbl.put t k v

/-- Remove a key. -/
def Tbl.del {α : Type} (t : List (Nat × α)) (k : Nat) : List (Nat × α) := t.filter (fun p => decide (p.1 ≠ k))

/-- Change the entry of a key that is present. -/
def Tbl.upd {α : Type} (t : List (Nat × α)) (k : Nat) (f : α → α) : List (Nat × α) :=
  match Tbl.get? t k with
  | some v => Tbl.put t k (f v)
  | none => t

/-- Change every entry. -/
def Tbl.mapV {α : Type} (t : List (Nat × α)) (f : Nat → α → α) : List (Nat × α) := t.map (fun p => (p.1, f p.1 p.2))

/-- The keys are strictly rising. -/
def Tbl.wf {α : Type} (t : List (Nat × α)) : Prop := (t.map Prod.fst).Pairwise (· < ·)

/-! ## Bits and bytes -/

/-- Bits `hi` down to `lo` of a number. -/
def bits (v : Nat) (hi lo : Nat) : Nat := v / 2 ^ lo % 2 ^ (hi + 1 - lo)

/-- Bit `i` of a number. -/
def bit (v i : Nat) : Bool := v / 2 ^ i % 2 == 1

/-- The low `n` bytes of a number, least significant first (R7). -/
def leBytes (n v : Nat) : List Byte := (List.range n).map (fun i => BitVec.ofNat 8 (v / 256 ^ i))

/-- The number a list of bytes holds, least significant first. -/
def leNat : List Byte → Nat
  | [] => 0
  | b :: t => b.toNat + 256 * leNat t

/-- The number a list of bytes holds, most significant first (network headers, R7). -/
def beNat (bs : List Byte) : Nat := bs.foldl (fun a b => a * 256 + b.toNat) 0

/-- The low `n` bytes of a number, most significant first. -/
def beBytes (n v : Nat) : List Byte := (leBytes n v).reverse

/-- Qword `i` of a structure (0 where the list ends). -/
def qw (d : List Dword) (i : Nat) : Nat := (d.getD i 0).toNat

/-- Bits of qword `i`. -/
def qb (d : List Dword) (i hi lo : Nat) : Nat := bits (qw d i) hi lo

/-- A qword from a number. -/
def dw (v : Nat) : Dword := BitVec.ofNat 64 v

/-- A 32-bit word from a number. -/
def w32 (v : Nat) : Word := BitVec.ofNat 32 v

/-- The bytes of a list of qwords, and back. -/
def qwBytes (d : List Dword) : List Byte := d.flatMap (fun q => leBytes 8 q.toNat)

/-- The first `n` qwords that a list of bytes holds. -/
def bytesQw (bs : List Byte) (n : Nat) : List Dword := (List.range n).map (fun i => dw (leNat ((bs.drop (8 * i)).take 8)))

/-- A list of qwords cut or padded with 0 to `n`. -/
def padQ (d : List Dword) (n : Nat) : List Dword := (List.range n).map (fun i => d.getD i 0)

/-- Two's complement of a `w`-bit number. -/
def signed (w v : Nat) : Int := if v % 2 ^ w < 2 ^ (w - 1) then (v % 2 ^ w : Nat) else ((v % 2 ^ w : Nat) : Int) - (2 ^ w : Nat)

/-- A number from an integer, wrapped to `w` bits. -/
def unsigned (w : Nat) (v : Int) : Nat := (v % (2 ^ w : Nat)).toNat

/-- A Bool as a bit. -/
def b2n (b : Bool) : Nat := if b then 1 else 0

/-- Put an item at the end, remove an item, test membership: lists that serve as sets of numbers. -/
def setAdd (l : List Nat) (n : Nat) : List Nat := if l.contains n then l else l ++ [n]
def setDel (l : List Nat) (n : Nat) : List Nat := l.filter (· != n)

/-- Element `i` of a list replaced. -/
def listSet {α : Type} : List α → Nat → α → List α
  | [], _, _ => []
  | _ :: t, 0, v => v :: t
  | a :: t, i + 1, v => a :: listSet t i v

namespace Machine

/-! ## Device memory (R344) -/

/-- The byte at an address. -/
def Memory.read (m : List Host.Cell) (a : Nat) : Byte := Tbl.getD m a Config.memDefault

/-- Write one byte; an entry equal to what an unlisted address reads as is removed. -/
def Memory.write (m : List Host.Cell) (a : Nat) (b : Byte) : List Host.Cell :=
  if b = Config.memDefault then Tbl.del m a else Tbl.put m a b

/-- Write bytes from an address upward. -/
def Memory.writeBytes (m : List Host.Cell) (a : Nat) : List Byte → List Host.Cell
  | [] => m
  | b :: t => Memory.writeBytes (Memory.write m a b) (a + 1) t

/-- Read bytes from an address upward. -/
def Memory.readBytes (m : List Host.Cell) (a n : Nat) : List Byte := (List.range n).map (fun i => Memory.read m (a + i))

/-- The canonical form: addresses strictly rising, no entry that an unlisted address reads as. -/
abbrev Memory.wf (m : List Host.Cell) : Prop := Tbl.wf m ∧ ∀ c ∈ m, c.2 ≠ Config.memDefault

namespace State

/-- Write bytes to device memory. -/
def memPut (s : State) (a : Nat) (bs : List Byte) : State := { s with mem := Memory.writeBytes s.mem a bs }

/-- Write qwords to device memory. -/
def memPutQ (s : State) (a : Nat) (d : List Dword) : State := s.memPut a (qwBytes d)

/-- Read qwords from device memory. -/
def memGetQ (s : State) (a n : Nat) : List Dword := bytesQw (Memory.readBytes s.mem a (8 * n)) n

/-! ## Outputs, free values, time -/

/-- Something leaves the block. -/
def emit (s : State) (o : Out) : State := { s with out := o :: s.out }

/-- Several things leave the block, the first of the list first. -/
def emits (s : State) (os : List Out) : State := { s with out := os.reverse ++ s.out }

/-- A fresh free value (log 1). -/
def fresh (w : Nat) (s : State) : BitVec w × State := (Config.freeValue w s.free, { s with free := s.free + 1 })

/-- Rack Time in whole ns: the short stamp as a number (R14). -/
def ns (s : State) : Nat := s.now / 65536

/-- The short stamp (R14). -/
def stamp (s : State) : Dword := dw s.ns

/-- Rack Time reaches at least a deadline given in ns, BREF passing with it (log 9). -/
def reach (s : State) (deadline : Nat) : State :=
  if s.ns < deadline then { s with now := deadline * 65536, bref := s.bref + (deadline - s.ns) } else s

/-- `dt` ns of BREF pass; Rack Time advances with them, corrected by the frequency adjustment (R21, R24). -/
def pass (s : State) (dt : Nat) : State :=
  { s with bref := s.bref + dt,
           now := ((s.now : Int) + (dt * 65536 : Nat) +
             ((dt * 65536 : Nat) : Int) * s.clk.freqAdj / 256000000000).toNat }

/-! ## Registers (R47) -/

/-- The address of a register of a page, `k` bytes on from its first word. -/
def addr (r : RegId) (inst k : Nat) : Nat := r.1 * 2097152 + inst * 4096 + (r.2 + k)

/-- The stored value of a register. -/
def rdA (s : State) (a : Nat) : Word := (Tbl.get? s.regs a).getD (resetOf Config.codeE a)

/-- Store a register's value; the list keeps no entry equal to the reset value. -/
def wrA (s : State) (a : Nat) (v : Word) : State :=
  { s with regs := if v = resetOf Config.codeE a then Tbl.del s.regs a else Tbl.put s.regs a v }

/-- Read and write a register by its name, and the k-th of a row of registers. -/
def rd (s : State) (r : RegId) (inst : Nat := 0) (k : Nat := 0) : Nat := (s.rdA (addr r inst (4 * k))).toNat
def wr (s : State) (r : RegId) (inst : Nat) (v : Nat) (k : Nat := 0) : State := s.wrA (addr r inst (4 * k)) (w32 v)

/-- A 64-bit register (R50). -/
def rd64 (s : State) (r : RegId) (inst : Nat := 0) (k : Nat := 0) : Nat :=
  s.rd r inst k + 4294967296 * s.rd r inst (k + 1)
def wr64 (s : State) (r : RegId) (inst : Nat) (v : Nat) (k : Nat := 0) : State :=
  (s.wr r inst v k).wr r inst (v / 4294967296) (k + 1)

/-- A header register of a page by block type and number (R51). -/
def hd (s : State) (blk inst off : Nat) : Nat := s.rd (blk, off) inst
def hdw (s : State) (blk inst off v : Nat) : State := s.wr (blk, off) inst v

/-- The key of a page: block type code and number within the type. -/
def pk (blk inst : Nat) : Nat := blk * 512 + inst

/-- The block type and number of a page key. -/
def pkBlk (p : Nat) : Nat := p / 512
def pkInst (p : Nat) : Nat := p % 512

/-- Set bits of PG_ISTAT (R54); a page's interrupt follows from it (R63). -/
def istat (s : State) (blk inst n : Nat) : State := s.hdw blk inst 0x10 (s.hd blk inst 0x10 ||| 2 ^ n)

/-- Count in PG_ERRCNTn: 32 bits, saturating (R7); reaching the top raises PG_ISTAT bit 28 (R54). -/
def bumpErr (s : State) (blk inst n : Nat) (by_ : Nat := 1) : State :=
  let old := s.hd blk inst (0x80 + 4 * n)
  let new := if old + by_ ≥ 4294967295 then 4294967295 else old + by_
  let s := s.hdw blk inst (0x80 + 4 * n) new
  if new = 4294967295 ∧ old ≠ 4294967295 then s.istat blk inst 28 else s

/-- Count in a statistics counter: 64 bits, wrapping (R7). -/
def bumpStat (s : State) (r : RegId) (inst : Nat) (by_ : Nat := 1) : State := s.wr64 r inst (s.rd64 r inst + by_)

/-- Keep the greatest value of a high-water register. -/
def raiseMax (s : State) (r : RegId) (inst v : Nat) : State := if s.rd r inst < v then s.wr r inst v else s

/-- PG_CTRL bits (R52). -/
def enabled (s : State) (blk inst : Nat) : Bool := bit (s.hd blk inst 0x08) 0
def locked (s : State) (blk inst : Nat) : Bool := bit (s.hd blk inst 0x08) 31

/-- PG_STAT.STATE (R53) as the page's block keeps it; PARSE and the pages that are always on read 1 in their own
chapters (R165, R339, R354, R438). -/
def stateOf (s : State) (blk inst : Nat) : Nat :=
  (Tbl.get? s.pgState (pk blk inst)).getD (if blk == 0x50 || blk == 0x60 || blk == 0x61 || blk == 0x80 then 1 else 0)
def setState (s : State) (blk inst st : Nat) : State := { s with pgState := Tbl.put s.pgState (pk blk inst) st }

/-- An error is reported through AER on a function: PG_ISTAT bit 4 of its HPORT page (R99, R104). -/
def aer (s : State) (port sel err : Nat) : State := (s.istat blkHPORT port 4).emit (.aer port sel err)

/-- Mark a page FAULTED or DEGRADED, raising bits 30 and 29 when they rise (R54). -/
def setFaulted (s : State) (p : Nat) : State :=
  if s.faulted.contains p then s else { s with faulted := s.faulted ++ [p] }.istat (pkBlk p) (pkInst p) 30
def setDegraded (s : State) (p : Nat) : State :=
  if s.degraded.contains p then s else { s with degraded := s.degraded ++ [p] }.istat (pkBlk p) (pkInst p) 29

/-- TRACEABLE (R15); time taken from a twin carries the twin's bit (R18). -/
def traceable (s : State) : Bool :=
  s.clk.dstate == .locked && (s.clk.source != some .twin || bit s.twin.peerQ0.toNat 12)

end State

/-- The key of a function: host port and selector (R89, R104). -/
def fkey (port sel : Nat) : Nat := port * 4096 + sel

namespace State

/-- The function whose Device Control rules for a function: of a VF, its PF's (R91). -/
def controlOf (sel : Nat) : Nat := if sel < 0x400 then sel else if sel < 0x800 then 0 else 1

/-- Device Control as the host wrote it; untouched it holds the value of PCI Express at reset (R88, log 32). -/
def devCtl (s : State) (port sel : Nat) : Nat :=
  (Tbl.getD (Tbl.getD s.funcs (fkey port (controlOf sel)) {}).cfg 0x58 0x2010).toNat

/-- Enable Relaxed Ordering, Max_Payload_Size of a port, Max_Read_Request_Size (R88, R98). -/
def relaxed (s : State) (port sel : Nat) : Bool := bit (devCtl s port sel) 4
def maxPayload (s : State) (port : Nat) : Nat := min 512 (128 * 2 ^ bits (devCtl s port 0) 7 5)
def maxRead (s : State) (port sel : Nat) : Nat := min 4096 (128 * 2 ^ bits (devCtl s port sel) 14 12)

/-- The requests that carry bytes to an address, or that read bytes: each at most `most` long and within a page of
4 KiB (R88, R102, log 32). The first argument bounds their number. -/
def writeTlps (most : Nat) : Nat → Nat → List Byte → List (Nat × List Byte)
  | 0, _, _ => []
  | f + 1, a, bs =>
    let n := min most (4096 - a % 4096)
    (a, bs.take n) :: (if bs.length ≤ n then [] else writeTlps most f (a + n) (bs.drop n))
def readTlps (most : Nat) : Nat → Nat → Nat → List (Nat × Nat)
  | 0, _, _ => []
  | f + 1, a, len =>
    let n := min most (4096 - a % 4096)
    (a, min n len) :: (if len ≤ n then [] else readTlps most f (a + n) (len - n))

/-- Bytes written to a host, and bytes of it read, in requests its Device Control allows. -/
def hostWrites (s : State) (port sel a : Nat) (bs : List Byte) (ro : Bool) : State :=
  s.emits ((writeTlps (maxPayload s port) (bs.length + 1) a bs).map (fun p => .hostBytes port sel p.1 p.2 ro))
def hostReads (s : State) (port sel why a n : Nat) (ro : Bool) : State :=
  s.emits ((readTlps (maxRead s port sel) (n + 1) a n).map (fun p => .memRead port sel why p.1 p.2 ro))

/-- A payload write to a host's memory, and a payload read of it, with Relaxed Ordering if enabled (R98). -/
def hostPayload (s : State) (port sel a : Nat) (bs : List Byte) : State := hostWrites s port sel a bs (relaxed s port sel)
def readPayload (s : State) (port sel a n : Nat) : State := hostReads s port sel 2 a n (relaxed s port sel)

end State

/-- The key of a ring queue (R106): queues of functions, provider rings, DMA channels. -/
def qkey : QRef → Nat
  | .fn p sel q => (p.val * 4096 + sel.toNat) * 4096 + q.toNat
  | .prov p q => 2 ^ 32 + p.val * 4096 + q.toNat
  | .dma ch => 2 ^ 33 + ch.val

end Machine

end Sys2Proof
end

