-- ==== Sys2Proof/Machine/Flits.lean ====
section
/-! DEFINITION. Flits of the twin links: header, CRC, what is sent (R382 to R386). -/

namespace Sys2Proof.Machine

/-- CRC-64 with polynomial 0x42F0E1EBA9EA3693, not reflected (R384): eight steps for each byte. -/
def crc64Step (c : BitVec 64) : BitVec 64 := if c.msb then (c <<< 1) ^^^ 0x42F0E1EBA9EA3693 else c <<< 1
def crc64Byte (c : BitVec 64) (b : Byte) : BitVec 64 :=
  crc64Step (crc64Step (crc64Step (crc64Step (crc64Step (crc64Step (crc64Step (crc64Step (c ^^^ (b.setWidth 64 <<< 56)))))))))
def crc64 (bs : List Byte) : Dword := ~~~ (bs.foldl crc64Byte (BitVec.allOnes 64))

/-- A flit header (R382): channel, REPLAY, NAK, ACK_VALID, SEQ, ACK_SEQ, CREDIT_CH, CREDIT_N, and the units of payload. -/
def flitHeader (ch : Nat) (replay nak ackOk : Bool) (seq ackSeq crCh crN words : Nat) : Dword :=
  dw (ch + b2n replay * 2 ^ 3 + b2n nak * 2 ^ 4 + b2n ackOk * 2 ^ 5 + seq * 2 ^ 8 + ackSeq * 2 ^ 24 + crCh * 2 ^ 40 + crN * 2 ^ 43 +
      (words + 1) / 2 * 2 ^ 55)

/-- The CRC of a flit: over its header and its payload of 240 bytes. -/
def flitCrc (header : Dword) (payload : List Dword) : Dword := crc64 (qwBytes (header :: padQ payload 30))

/-- A twin link; one never touched is down. -/
def linkOf (s : State) (l : Nat) : Link := Tbl.getD s.twin.links l {}

/-- A flit leaves on a link, with the acknowledgement the link is at, and a credit returned (R385, R386). -/
def putFlit (s : State) (l ch : Nat) (replay nak : Bool) (seq crCh crN : Nat) (pl : List Dword) : State :=
  let h := flitHeader ch replay nak true seq (linkOf s l).rxSeq.toNat crCh crN pl.length
  (s.bumpStat TWIN.FLITS_TX l).emit (.flit l h pl (flitCrc h pl))

end Sys2Proof.Machine
end

