-- ==== Sys2Proof/Machine/Faults.lean ====
section
/-! DEFINITION. The fault log, the classes and their actions, unit recovery, the device reset, the halt, and how
stage 0 starts (R402 to R411, R416, R423 to R436, R471, R472). -/

namespace Sys2Proof.Machine

/-! ## Fault source numbers (R423, R471) -/

/-- The populated block types with their page counts and sources per page (R62, R471), ascending. -/
def sourceTable : List (Nat × Nat × Nat) :=
  [(0x01, 1, 1), (0x02, 1, 1), (0x03, 1, 1), (0x04, 1, 1), (0x05, 1, 1), (0x06, 64, 2), (0x10, 128, 1), (0x11, 128, 1),
   (0x12, 128, 1), (0x13, 16, 2), (0x14, 128, 1), (0x15, 16, 1), (0x20, 32, 2), (0x21, 32, 1), (0x22, 32, 1),
   (0x23, 64, 4), (0x24, 32, 3), (0x25, 1, 1), (0x26, 1, 2), (0x27, 1, 2), (0x28, 32, 1), (0x30, 128, 1),
   (0x31, 256, 1), (0x32, 32, 1), (0x33, 1, 1), (0x34, 1, 1), (0x35, 1, 1), (0x40, 16, 1), (0x41, 128, 1),
   (0x42, 1, 2), (0x50, 32, 3), (0x51, 1, 1), (0x52, 64, 3), (0x60, 4, 3), (0x61, 8, 3), (0x62, 1, 1), (0x70, 1, 1),
   (0x71, 32, 1), (0x72, 1, 1), (0x80, 1, 1), (0x81, 1, 1), (0x82, 1, 1)]

/-- Sources per page of a block type. -/
def sourcesOf (blk : Nat) : Nat := ((sourceTable.find? (fun r => r.1 == blk)).map (fun r => r.2.2)).getD 0

/-- The FSN of source 0 of a page (R423). -/
def fsnBase (blk inst : Nat) : Nat :=
  0x40 + ((sourceTable.filter (fun r => decide (r.1 < blk))).map (fun r => r.2.1 * r.2.2)).sum + inst * sourcesOf blk

/-- Find the page and source of an FSN among the rows left, given the first FSN of those rows. -/
def fsnFind : List (Nat × Nat × Nat) → Nat → Nat → Option (Nat × Nat × Nat)
  | [], _, _ => none
  | (blk, n, k) :: t, base, fsn =>
    if fsn < base + n * k then some (blk, (fsn - base) / k, (fsn - base) % k) else fsnFind t (base + n * k) fsn

/-- The page and the number of the source within it; `none` for hub sources and for numbers without a source. -/
def fsnPage (fsn : Nat) : Option (Nat × Nat × Nat) := if fsn < 0x40 then none else fsnFind sourceTable 0x40 fsn

/-- The FSN has a source (R423, R424). -/
def fsnValid (fsn : Nat) : Bool := (1 ≤ fsn && fsn ≤ 0xE) || (fsnPage fsn).isSome

/-- PG_FSRC_BASE of a page (R51). -/
def fsrcWord (blk inst : Nat) : Nat := fsnBase blk inst + sourcesOf blk * 65536

/-- A severity entry (R426): CLASS, GIVEUP_N, GIVEUP_WIN, QUIET, LOG, MIN_CLASS. The default window of the last kind
of R425, 600 s, does not fit the entry's 8-bit field; it stands here as R425 gives it (log 10). -/
structure Sev where
  cls     : Nat
  giveN   : Nat
  giveWin : Nat
  quiet   : Nat
  log     : Bool
  min     : Nat
  deriving DecidableEq, Repr

/-- The default of a hub source (R424, R425). -/
def hubSev (fsn : Nat) : Sev :=
  match fsn with
  | 0x007 => ⟨4, 3, 60, 10, false, 4⟩
  | 0x009 => ⟨4, 3, 60, 10, false, 4⟩
  | 0x00A => ⟨4, 3, 60, 10, false, 4⟩
  | 0x00B => ⟨1, 3, 60, 10, false, 0⟩
  | 0x00C => ⟨0, 3, 60, 10, false, 0⟩
  | 0x00D => ⟨2, 3, 60, 10, false, 0⟩
  | 0x00E => ⟨0, 3, 60, 10, true, 0⟩
  | _ => ⟨5, 3, 60, 10, false, 5⟩

/-- The default of a page source by its kind (R425, R471). -/
def pageSev (blk k : Nat) : Sev :=
  match blk, k with
  | 0x10, _ => ⟨3, 3, 600, 100, false, 0⟩
  | 0x06, 1 => ⟨0, 3, 60, 10, false, 0⟩
  | 0x13, 1 => ⟨2, 3, 60, 10, false, 0⟩
  | 0x20, 1 => ⟨3, 3, 600, 100, false, 0⟩
  | 0x23, 1 => ⟨1, 3, 60, 10, false, 0⟩
  | 0x23, 2 => ⟨0, 3, 60, 10, true, 0⟩
  | 0x23, 3 => ⟨0, 3, 60, 10, true, 0⟩
  | 0x24, 1 => ⟨1, 3, 60, 10, false, 0⟩
  | 0x24, 2 => ⟨0, 3, 60, 10, true, 0⟩
  | 0x26, 1 => ⟨1, 3, 60, 10, false, 0⟩
  | 0x27, 1 => ⟨1, 3, 60, 10, false, 0⟩
  | 0x42, 1 => ⟨1, 3, 60, 10, false, 0⟩
  | 0x50, 1 => ⟨2, 3, 60, 10, false, 0⟩
  | 0x50, 2 => ⟨3, 3, 600, 100, false, 0⟩
  | 0x52, 1 => ⟨2, 3, 60, 10, false, 0⟩
  | 0x52, 2 => ⟨1, 3, 60, 10, false, 0⟩
  | 0x60, 1 => ⟨1, 3, 60, 10, false, 0⟩
  | 0x60, 2 => ⟨2, 3, 60, 10, false, 0⟩
  | 0x61, 1 => ⟨1, 3, 60, 10, false, 0⟩
  | 0x61, 2 => ⟨2, 3, 60, 10, false, 0⟩
  | _, _ => ⟨3, 3, 60, 10, false, 0⟩

/-- The severity entry of a source: what SEV_WRITE left, or its default. -/
def sevOf (s : State) (fsn : Nat) : Sev :=
  let d := match fsnPage fsn with
    | some (blk, _, k) => pageSev blk k
    | none => hubSev fsn
  match Tbl.get? s.flt.sev fsn with
  | some q => ⟨bits q.toNat 2 0, bits q.toNat 7 4, bits q.toNat 15 8, bits q.toNat 31 16, bit q.toNat 32, d.min⟩
  | none => d

/-! ## Halt, flits of takeover, the start of boot -/

/-- TAKEOVER flits on every link in service, 8 in succession, their payload the HALT_CODE (R383). -/
def sendTakeover (s : State) (code : Nat) : State :=
  (s.twin.links.filter (fun p => p.2.stat == 3)).foldl (fun (s : State) (p : Nat × Link) =>
    (List.range 8).foldl (fun (s : State) (_ : Nat) => putFlit s p.1 6 false false 0 0 0 [dw code]) s)
    { s with twin := { s.twin with sentTake := true } }

/-- Every host port holds its link down (R416). -/
def linksDown (s : State) : State :=
  { s with hports := Tbl.mapV s.hports (fun _ h => { h with l0 := false }) }.emit (.pin 6 0 1)

/-- FAULT_N is driven; the pin shows a change. -/
def driveFault (s : State) (asserted : Bool) : State :=
  if s.flt.pinShown = asserted then s
  else { s with flt := { s.flt with pinShown := asserted } }.emit (.pin 3 0 (b2n asserted))

/-- The halt of R416 with a code; a sealed halt ends only at a power cycle. -/
def haltWith (s : State) (code : Nat) (isSealed : Bool) : State :=
  let s := { s with flt := { s.flt with halt := true, haltSealed := s.flt.haltSealed || isSealed, haltCode := code } }
  (linksDown (driveFault s true)).emit (.pin 4 0 code)

/-- The minimum version: the greatest of the fuse count and the two flash records (R413). -/
def minSvn (b : Boot) : Nat := (b.records.map Prod.fst).foldl max b.fuseSvn

/-- A slot's header is valid: not erased, and a STATE other than the named ones reads BAD (R405). -/
def FSlot.candidate (f : FSlot) (min : Nat) : Bool :=
  decide (min ≤ f.svn) && (f.state == 0x03 || (f.state == 0x07 && f.attempts != 0))

/-- A TRIAL slot found with ATTEMPTS at 0 is written BAD (R411). -/
def FSlot.demote (f : FSlot) : FSlot := if f.state == 0x07 && f.attempts == 0 then { f with state := 0 } else f

/-- The lowest set bit of a thermometer cleared (R411). -/
def clearLowest (v : Nat) : Nat := v &&& (v - 1)

/-- The order of sources: BOOT_LIST, or the straps where every entry is 0 (R403). -/
def bootOrder (b : Boot) (straps : Nat) : List Nat :=
  if b.bootList.all (· == 0) then
    match straps % 8 with
    | 1 => [1, 2, 5]
    | 2 => [2, 1]
    | 3 => [3]
    | 4 => [4]
    | 5 => [5, 1, 2]
    | 6 => [1, 2, 3, 4]
    | _ => [1, 2]
  else b.bootList.takeWhile (· != 0)

/-- A boot log entry: short stamp; stage, code and argument (R421). -/
def bootLog (s : State) (stage code arg : Nat) : State :=
  { s with boot := { s.boot with log := s.boot.log ++ [[s.stamp, dw (stage + 256 * code + 65536 * arg)]] } }

/-- Among two slots the candidate with the higher SEQ, slot A on a tie (R411); slots that failed this boot are out. -/
def bootPick (b : Boot) (flash : Nat) : Option Nat :=
  let min := minSvn b
  let ok := fun i => (b.slots.getD i {}).candidate min && !b.failed.contains i
  let a := 2 * flash
  match ok a, ok (a + 1) with
  | true, true => if (b.slots.getD a {}).seq ≥ (b.slots.getD (a + 1) {}).seq then some a else some (a + 1)
  | true, false => some a
  | false, true => some (a + 1)
  | false, false => none

/-- Stage 0 raises an octet with a personality, as UP does (R74, R410). -/
def raiseOctet (s : State) (o pers : Nat) : State :=
  if s.stateOf blkOCTET o ≠ 0 then s
  else ((s.wr OCTET.PERS_ACTIVE o pers).setState blkOCTET o 2).istat blkOCTET o 4

/-- For the PCIe push host port 0 is presented as control port A, with the Control Function (R410). -/
def presentPush (s : State) : State :=
  let s := (s.wr HPORT.FUNC_CTRL 0 0x10).hdw blkHPORT 0 0x08 1
  (raiseOctet s 0 1).setState blkHPORT 0 1

/-- Stage 0 takes a source of the list: a flash by R411, a push or the twin by R410; a source without a candidate
fails (R409); when every source has failed the device halts with the code of the last failure. -/
def bootSource (s : State) (code : Nat) : List Nat → State
  | [] => haltWith { s with boot := { s.boot with sources := [], source := 0 } } code false
  | src :: rest =>
    let b := { s.boot with sources := rest, source := src, blocks := [], manifest := [], pushOpen := false, push := [], srcAt := s.ns }
    match src with
    | 3 => { s with boot := { b with pushOpen := true } }
    | 4 => presentPush { s with boot := { b with pushOpen := true } }
    | 5 => raiseOctet { s with boot := b } 14 4
    | _ =>
      let b := if src == 1 || src == 2 then
          { b with slots := listSet (listSet b.slots (2 * (src - 1)) ((b.slots.getD (2 * (src - 1)) {}).demote))
                              (2 * (src - 1) + 1) ((b.slots.getD (2 * (src - 1) + 1) {}).demote) }
        else b
      match (if src == 1 || src == 2 then bootPick b (src - 1) else none) with
      | some i =>
        { s with boot := { b with slot := i, trial := (b.slots.getD i {}).state == 0x07 } }
      | none =>
        let s := { s with boot := { b with firstFail := if b.firstFail == 0 then 1 else b.firstFail } }
        bootSource ((bootLog s 0 1 src).bumpErr blkBOOT 0 0) 1 rest

/-- A slot or source fails (R409): the failure is logged; the other candidate slot, then the next source; a failure
once stage 1 runs halts with its own code. -/
def bootFail (s : State) (code : Nat) : State :=
  let b := s.boot
  let s := { s with boot := { b with firstFail := if b.firstFail == 0 then code else b.firstFail,
                                     failed := if b.source == 1 || b.source == 2 then setAdd b.failed b.slot else b.failed } }
  let s := (bootLog s b.stage code b.source).bumpErr blkBOOT 0 0
  if b.stage ≥ 1 then haltWith s code false
  else if b.source == 1 || b.source == 2 then
    match bootPick s.boot (b.source - 1) with
    | some i => { s with boot := { s.boot with slot := i, trial := (s.boot.slots.getD i {}).state == 0x07,
                                               blocks := [], manifest := [] } }
    | none => bootSource s code b.sources
  else bootSource s code b.sources

/-- Stage 0 starts (R402, R403, R415): the collector runs, the fuses are shadowed, the first source is taken. -/
def bootStart (s : State) : State :=
  let s := { s with flt := { s.flt with started := true } }
  bootSource { s with boot := { s.boot with riseAt := s.ns, stage := 0 } } 1 (bootOrder s.boot s.pwr.straps.toNat)

/-! ## Device reset (R432, R449) -/

/-- The registers of the FAULT page that only a power cycle clears (R442). -/
def keptReg (a : Nat) : Bool :=
  let o := a - blkFAULT * 2097152
  blkFAULT * 2097152 ≤ a && (o == 0x80 || o == 0x84 || o == 0x88 || o == 0x8C || o == 0x90 || o == 0x110 || o == 0x114 ||
    (0x11C ≤ o && o < 0x130))

/-- OPEN records become CLOSED at a device reset (R430, R432, R472); records that were never in the log go. -/
def closeRecs (rs : List FRec) : List FRec :=
  (rs.map (fun r => if r.state = 1 ∧ r.cls ≤ 4 then { r with state := 2 } else r)).filter
    (fun r => r.at_.isSome || r.state == 1)

/-- Every die except the safety island and the Rack Time master counter resets (R432, R449). What lives outside
the dies stands: flash and fuses, pins, what has left the block, the commands that wait. Memory loses its keys
(R351), so it reads as memory that nothing has written (log 2). -/
def deviceReset (s : State) : State :=
  { State.reset with
    pending := s.pending, now := s.now, bref := s.bref, free := s.free, out := s.out,
    regs := s.regs.filter (fun p => keptReg p.1),
    boot := { ({} : Boot) with bootList := s.boot.bootList, keyHash := s.boot.keyHash, revoked := s.boot.revoked,
                               fuseSvn := s.boot.fuseSvn, testFuse := s.boot.testFuse, slots := s.boot.slots,
                               records := s.boot.records },
    flt := { s.flt with recs := closeRecs s.flt.recs, sev := [], units := [], pinHeld := false,
                        mode := 0, halt := s.flt.haltSealed, haltCode := if s.flt.haltSealed then s.flt.haltCode else 0 },
    clk := { ({} : Clock) with ppsOut := s.clk.ppsOut, trefOut := s.clk.trefOut },
    pwr := { s.pwr with railMin := [], level := 0, holdEnd := none } }

/-! ## Raising a fault (R427 to R436) -/

/-- FAULT_N is asserted (R434, R454): until the collector starts, while the dies are held, by a halt or the escalator,
during a pulse, and then by MODE. -/
def pinAsserted (s : State) : Bool :=
  !s.flt.started || s.pwr.held || s.flt.halt || s.flt.pulseEnd.isSome || s.flt.mode == 2 ||
    (s.flt.mode == 1 && s.flt.pinHeld)

/-- A fault of at least PIN_THRESH asserts FAULT_N until 10 µs after the newest (R434). -/
def pulse (s : State) (cls : Nat) : State :=
  if s.rd FAULT.PIN_THRESH % 8 ≤ cls then
    driveFault { s with flt := { s.flt with pulseEnd := some (s.ns + 10000), pinHeld := true } } true
  else s

/-- The slot a new record takes in the ring of 512 (R428): the producer's slot, or that of the oldest record that is
not OPEN when the ring is full or that slot is OPEN; none when every record is OPEN. The Bool: it overwrites a record
not yet consumed (log 11). -/
def logSlot (s : State) : Option (Nat × Bool) :=
  let slot := s.rd FAULT.LOG_PROD % 512
  let full := decide (512 ≤ (s.rd FAULT.LOG_PROD + 4294967296 - s.rd FAULT.LOG_CONS) % 4294967296)
  match s.flt.recs.find? (fun r => r.at_ == some slot) with
  | none => some (slot, false)
  | some r =>
    if r.state ≠ 1 && !full then some (slot, false)
    else ((s.flt.recs.filter (fun r => r.at_.isSome && r.state != 1)).head?.bind (·.at_)).map (fun n => (n, true))

/-- Add a record to the log (R428), raising PG_ISTAT bit 0 of FAULT. -/
def addRec (s : State) (r : FRec) : State :=
  let r := { r with seq := s.flt.nextSeq }
  let s := { s with flt := { s.flt with nextSeq := s.flt.nextSeq + 1 } }
  match logSlot s with
  | some (slot, ovf) =>
    let recs := s.flt.recs.filter (fun q => q.at_ != some slot) ++ [{ r with at_ := some slot }]
    let s := { s with flt := { s.flt with recs := recs } }
    let s := s.wr FAULT.LOG_PROD 0 (s.rd FAULT.LOG_PROD + 1)
    (if ovf then s.bumpErr blkFAULT 0 0 else s).istat blkFAULT 0 0
  | none =>
    let recs := if r.state = 1 then s.flt.recs ++ [{ r with at_ := none }] else s.flt.recs
    { s with flt := { s.flt with recs := recs } }.bumpErr blkFAULT 0 4

/-- Change the records that meet a condition; closed records that were never in the log go. -/
def mapRecs (s : State) (p : FRec → Bool) (f : FRec → FRec) : State :=
  { s with flt := { s.flt with recs := (s.flt.recs.map (fun r => if p r then f r else r)).filter
                                 (fun r => r.at_.isSome || r.state == 1) } }

/-- The recovery state of a page (R430). -/
def unitOf (s : State) (p : Nat) : UnitRec := Tbl.getD s.flt.units p {}
def setUnit (s : State) (p : Nat) (u : UnitRec) : State :=
  { s with flt := { s.flt with units := Tbl.put s.flt.units p u } }

/-- Recoveries of a unit started within a window of `win` seconds (R430). -/
def recoveries (s : State) (u : UnitRec) (win : Nat) : Nat :=
  (u.starts.filter (fun t => decide (s.ns < t + win * 1000000000))).length

/-- RECOV of a page's record: its recoveries within the window of the source that headed the latest (R430). -/
def recovOf (s : State) (page : Option Nat) : Nat :=
  match page with
  | some p => recoveries s (unitOf s p) (sevOf s (unitOf s p).head).giveWin
  | none => 0

/-- A command's return data in PG_CMD_RET, its tag, opcode and result in PG_CMD_STAT, and PG_ISTAT bit 31 (R56, R57). -/
def showResult (s : State) (p : Nat) (r : Running) (res : Nat) (ret : Option (List Dword)) : State :=
  let s := match ret with
    | some d => (List.range 16).foldl (fun (s : State) (i : Nat) =>
        s.hdw (State.pkBlk p) (State.pkInst p) (0x40 + 4 * i) (qw (padQ d 8) (i / 2) / 2 ^ (32 * (i % 2)))) s
    | none => s
  (s.hdw (State.pkBlk p) (State.pkInst p) 0x24 (r.tag.toNat * 65536 + r.op.toNat * 256 + res)).istat
    (State.pkBlk p) (State.pkInst p) 31

/-- A running page command ends with a result: BUSY clears and the result shows (R56, R57). -/
def endCommand (s : State) (p : Nat) (res : Nat) (ret : Option (List Dword)) : State :=
  match Tbl.get? s.running p with
  | none => s
  | some r => showResult { s with running := Tbl.del s.running p } p r res ret

/-- The requester of a QP goes back to its first incomplete work request, its PSN, MSG and RSEQ unchanged (R248). -/
def rewindQp (queues : Tbl Queue) (n : Nat) (q : Qp) : Qp :=
  let items := ((queues.find? (fun (r : Nat × Queue) => r.2.kind == 2 && r.2.bind == n)).map (fun r => r.2.items)).getD []
  match items.find? (fun (i : WorkItem) => i.fate.isNone && i.npsn != 0) with
  | some i => { q with nextPsn := i.psn0, una := i.psn0, ackTo := i.psn0, nextMsg := i.msg, nextRseq := i.rseq, readDone := [], sacked := [], sackResent := [], attempts := [], rnrWait := none, timer := none, timerRetry := false }
  | none => { q with timer := none, timerRetry := false, rnrWait := none }

/-- In-flight work of a page is discarded by R10: what a unit reset and a soft reset share (R52, R427). Descriptors
read and not completed are forgotten and read again from C (R114, R123, R142); a cipher engine's jobs end (R303). -/
def discardInFlight (s : State) (p : Nat) : State :=
  let inst := State.pkInst p
  match State.pkBlk p with
  | 0x30 => { s with qps := Tbl.mapV s.qps (fun n q => if qb q.attr 0 18 12 == inst then rewindQp s.queues n q else q),
                     queues := Tbl.mapV s.queues (fun k q =>
                if k / 16777216 % 128 == inst && k < 2 ^ 32 || k / 4096 % 128 == inst && 2 ^ 32 ≤ k && k < 2 ^ 33 then
                  { q with items := [], chain := [], u := q.c, reading := false } else q) }
  | 0x32 => { s with qps := Tbl.mapV s.qps (fun n q => if n % 32 == inst then
                let r := rewindQp s.queues n q
                { r with nextMsg := q.nextMsg, nextRseq := q.nextRseq, attempts := [], reads := [], atoms := [],
                         stalled := [] } else q) }
  | 0x31 => { s with dma := Tbl.mapV s.dma (fun k d =>
                if k == inst then { d with work := [], u := d.c, reading := false, flushing := [], stage := 0, status := 0, moved := 0, held := [], stop := none } else d) }
  | 0x40 => { s with engines := Tbl.del s.engines inst }
  | 0x15 => { s with windows := Tbl.upd s.windows inst (fun w => { w with tlps := [] }) }
  | 0x27 => { s with learnQ := [] }
  | _ => s

/-- A unit reset begins (R427, R430): a running command ends with 0x07 (R61), in-flight work is discarded. -/
def beginUnitReset (s : State) (p : Nat) : State := discardInFlight (endCommand s p 0x07 none) p

/-- A class 3 fault in service: RESETTING, or DOWN at the give-up limit (R430). `fsn` heads the recovery; the OPEN
record of the unit is `upd`ated by the caller's record. Answers the state and whether the unit went DOWN, and RECOV. -/
def startRecovery (s : State) (p fsn : Nat) : State × Bool × Nat :=
  let sv := sevOf s fsn
  let u := unitOf s p
  let n := recoveries s u sv.giveWin
  let s := s.setFaulted p
  if sv.giveN ≠ 0 ∧ sv.giveN ≤ n + 1 then
    ((setUnit s p { u with state := 3, quiet := none, waitQ := false, head := fsn }).istat blkFAULT 0 1, true, n)
  else
    (beginUnitReset (setUnit s p { u with state := 1, quiet := none, waitQ := false, direct := false, head := fsn,
                                          starts := u.starts ++ [s.ns] }) p, false, n + 1)

/-- A device-fatal fault (R432): HALT_CODE 0x80, FAULT_N, TAKEOVER when PAIRED, the reset, boot at stage 0. -/
def deviceFatal (s : State) : State :=
  let s := driveFault (s.emit (.pin 4 0 0x80)) true
  let s := if s.stateOf blkTWIN 0 == 3 then sendTakeover s 0x80 else s
  if s.pwr.pwrgood && !s.pwr.held then bootStart ((deviceReset s).emit (.pin 4 0 0)) else deviceReset s

/-- The HALT_CODE of a sealed source (R416, R431). -/
def sealedCode (fsn : Nat) : Nat :=
  match fsn with
  | 0x001 => 0x40
  | 0x002 => 0x41
  | 0x003 => 0x41
  | 0x004 => 0x02
  | 0x006 => 0xFD
  | 0x008 => 0x83
  | _ => 0x81

/-- A sealed fault (R433). -/
def sealedHalt (s : State) (fsn : Nat) : State :=
  let s := if s.stateOf blkTWIN 0 == 3 then sendTakeover s (sealedCode fsn) else s
  haltWith s (sealedCode fsn) true

/-- The unit a fault belongs to: a page, or the hub source itself (R429, R472). -/
def recOf (page : Option Nat) (fsn : Nat) (r : FRec) : Bool :=
  r.state == 1 && (decide (4 ≤ r.cls) ||
    (match page with | some p => r.page == some p | none => r.page.isNone && r.fsn == fsn))

/-- The action of a class when it is first taken (R427); `p` is the page, none for a hub source (R472: class 3 acts
as class 2). Class 4 and 5 act last, after the record stands. -/
def classAction (s : State) (page : Option Nat) (fsn cls : Nat) (match_ : FRec → Bool) : State :=
  match cls with
  | 2 => s.setDegraded (page.getD (State.pk blkHUB 0))
  | 3 =>
    match page with
    | none => s.setDegraded (State.pk blkHUB 0)
    | some p =>
      let (s, down, n) := startRecovery s p fsn
      mapRecs s match_ (fun r => { r with state := if down then 3 else 1, recov := n })
  | 4 => deviceFatal s
  | 5 => sealedHalt s fsn
  | _ => s

/-- The functions a host port presents. -/
def presented (h : HPort) : List Nat :=
  [0] ++ (if h.pf1 then [1] else []) ++ (if h.cf != 0 then [2] else []) ++
    (List.range h.nvf0).map (· + 0x400) ++ (List.range h.nvf1).map (· + 0x800)

/-- A class 1 fault of a page that serves a host port is a Corrected Internal Error of its functions, one of class 3 or
higher an Uncorrectable Internal Error (R99). The pages that serve one port: HPORT and QMGR. -/
def aerFault (s : State) (page : Option Nat) (cls : Nat) : State :=
  match page with
  | none => s
  | some p =>
    if (State.pkBlk p = 0x11 ∨ State.pkBlk p = 0x30) ∧ (cls = 1 ∨ 3 ≤ cls) then
      match Tbl.get? s.hports (State.pkInst p) with
      | some h => if h.quar = 1 then
          (presented h).foldl (fun (s : State) (f : Nat) => s.aer (State.pkInst p) f (if cls = 1 then 6 else 7)) s else s
      | none => s
    else s

/-- What has merged since a unit's reset completed: the first source, its cause bits growing (R430). -/
def afterReset (s : State) (p fsn : Nat) (cause : Word) (info : BitVec 16) (old : Option (Nat × Word × BitVec 16)) :
    Option (Nat × Word × BitVec 16) :=
  let u := unitOf s p
  if u.state = 2 ∨ (u.state = 1 ∧ u.waitQ) then
    match old with
    | some (f, c, i) => some (f, c ||| cause, i)
    | none => some (fsn, cause, info)
  else old

/-- A fault source is raised (R423 to R434, R472): recorded, or merged into an OPEN record of its unit or of class 4
or 5; then its class acts. -/
def raiseFault (s : State) (fsn : Nat) (cause : Word := 0) (info : BitVec 16 := 0) (inj : Bool := false) : State :=
  if !fsnValid fsn then s else
  let sv := sevOf s fsn
  let page := (fsnPage fsn).map (fun x => State.pk x.1 x.2.1)
  let cls := if page.isNone ∧ sv.cls = 3 then 2 else sv.cls
  let s := aerFault (s.bumpStat FAULT.FAULTS 0) page cls
  let s := pulse s sv.cls
  match s.flt.recs.find? (recOf page fsn) with
  | some r =>
    let merged := fun (q : FRec) => { q with merges := min 255 (q.merges + 1), cause := q.cause ||| cause, last := s.ns,
                                             cls := max q.cls cls,
                                             after := match page with
                                               | some p => afterReset s p fsn cause info q.after
                                               | none => q.after }
    let s := (mapRecs s (fun q => q.seq == r.seq) merged).bumpStat FAULT.MERGES 0
    if r.cls < cls then classAction s page fsn cls (fun q => q.seq == r.seq) else s
  | none =>
    let base : FRec := { fsn := fsn, cls := cls, inj := inj, state := 2, trace := s.traceable, seq := s.flt.nextSeq,
                         first := s.ns, last := s.ns, cause := cause, info := info, page := page, recov := recovOf s page }
    let down := match page with | some p => (unitOf s p).state == 3 | none => false
    if down && cls ≤ 3 then
      match s.flt.recs.find? (fun r => r.page == page && r.state == 3) with
      | some r => (mapRecs s (fun q => q.seq == r.seq) (fun q =>
          { q with merges := min 255 (q.merges + 1), cause := q.cause ||| cause, last := s.ns,
                   cls := max q.cls cls })).bumpStat FAULT.MERGES 0
      | none => addRec s { base with state := 3 }
    else
      match cls with
      | 0 => if sv.log then addRec s base else s
      | 1 => addRec s base
      | _ =>
        let n := s.flt.nextSeq
        classAction (addRec s { base with state := 1 }) page fsn cls (fun q => q.seq == n)

/-- Source `k` of a page raises (R471). -/
def raisePage (s : State) (blk inst k : Nat) (cause : Word := 0) (info : BitVec 16 := 0) : State :=
  raiseFault s (fsnBase blk inst + k) cause info

end Sys2Proof.Machine
end

