-- ==== Sys2Proof/Machine/Calendar.lean ====
section
/-! DEFINITION. The calendar slices: near events, spilling, refusals, cancelling, the next fire (R31 to R37). The wheel's
levels follow from the deadline and now (R31); they are not stored. -/

namespace Sys2Proof.Machine

/-- Level of an event's bucket (R31): 0 to 3, or 4 beyond the ring of level 3. -/
def calLevel (now d : Nat) : Nat :=
  if d / 2 ^ 10 ≤ now / 2 ^ 10 then 0
  else if d / 2 ^ 20 = now / 2 ^ 20 then 1
  else if d / 2 ^ 30 = now / 2 ^ 30 then 2
  else if d / 2 ^ 30 - now / 2 ^ 30 < 1024 then 3
  else 4

/-- A near event (R31): in level 0 or 1, or in the 2^20 ns block that comes next. -/
def calNear (now d : Nat) : Bool := decide (d / 2 ^ 20 ≤ now / 2 ^ 20 + 1)

/-- The position of the latest event that is not near, the last scheduled of equals: (index, deadline). -/
def calLatest (now : Nat) (es : List CalEvent) : Option (Nat × Nat) :=
  (es.foldl (fun (a : Nat × Option (Nat × Nat)) e =>
    (a.1 + 1, if calNear now e.deadline then a.2 else
      match a.2 with
      | some (i, d) => if e.deadline ≥ d then some (a.1, e.deadline) else some (i, d)
      | none => some (a.1, e.deadline))) (0, none)).2

/-- Remove the element at an index, answering it. -/
def takeAt {α : Type} : List α → Nat → Option (α × List α)
  | [], _ => none
  | a :: t, 0 => some (a, t)
  | a :: t, i + 1 => (takeAt t i).map (fun p => (p.1, a :: p.2))

/-- Move the latest event that is not near to the spill area (R34). -/
def calDisplace (now : Nat) (sl : Slice) : Slice :=
  match calLatest now sl.chip with
  | some (i, _) =>
    match takeAt sl.chip i with
    | some (e, rest) => { chip := rest, spill := sl.spill ++ [e] }
    | none => sl
  | none => sl

/-- Spill from SPILL_HI down to SPILL_LO, as long as an event that is not near and room remain (R34). -/
def calSpill (now lo room : Nat) : Nat → Slice → Slice
  | 0, sl => sl
  | f + 1, sl =>
    if sl.chip.length > lo ∧ sl.spill.length < room ∧ (calLatest now sl.chip).isSome then
      calSpill now lo room f (calDisplace now sl)
    else sl

namespace State

/-- A calendar slice. -/
def slice (s : State) (n : Nat) : Slice := Tbl.getD s.cal n {}

/-- Store a slice, keeping OCC_HWM (R44). -/
def setSlice (s : State) (n : Nat) (sl : Slice) : State :=
  { s with cal := Tbl.put s.cal n sl }.raiseMax CAL.OCC_HWM n sl.chip.length

/-- A refused schedule counts and raises the slice's calendar-full source (R35). -/
def calRefuse (s : State) (n code : Nat) : State × Nat :=
  (raisePage (s.bumpErr blkCAL n (code - 0x40)) blkCAL n 1, code)

/-- Schedule an event on a slice: 0, or 0x40 CAL_FULL, or 0x41 SPILL_FULL with nothing scheduled (R34, R35). -/
def calSchedule (s : State) (n : Nat) (e : CalEvent) : State × Nat :=
  let sl := s.slice n
  let room := s.rd CAL.SPILL_SIZE n
  let full := decide (65536 ≤ sl.chip.length)
  let noRoom := decide (room ≤ sl.spill.length)
  let near := calNear s.ns e.deadline
  let settleSpill := fun (sl : Slice) =>
    if s.rd CAL.SPILL_HI n ≤ sl.chip.length then calSpill s.ns (s.rd CAL.SPILL_LO n) room sl.chip.length sl else sl
  if near && sl.chip.length ≥ 65536 && (calLatest s.ns sl.chip).isNone then s.calRefuse n 0x40
  else if calLevel s.ns e.deadline = 4 ||
      (full && !near && (match calLatest s.ns sl.chip with | some (_, d) => decide (d < e.deadline) | none => true)) then
    if noRoom then s.calRefuse n 0x41 else (s.setSlice n { sl with spill := sl.spill ++ [e] }, 0)
  else if full then
    if noRoom then s.calRefuse n 0x41
    else
      let sl := calDisplace s.ns sl
      (s.setSlice n { sl with chip := sl.chip ++ [e] }, 0)
  else
    let sl := { sl with chip := sl.chip ++ [e] }
    ((s.setSlice n sl).setSlice n (settleSpill sl), 0)

/-- Schedule for a unit; whether it was taken. -/
def schedule (s : State) (n deadline unit kind cookie : Nat) : State × Bool :=
  let r := s.calSchedule n ⟨deadline, unit, kind, cookie⟩
  (r.1, r.2 == 0)

/-- Remove the events of a slice that meet a condition. -/
def calCancel (s : State) (n : Nat) (p : CalEvent → Bool) : State :=
  let sl := s.slice n
  { s with cal := Tbl.put s.cal n { chip := sl.chip.filter (fun e => !p e), spill := sl.spill.filter (fun e => !p e) } }

/-- How many events of a slice meet a condition. -/
def calCount (s : State) (n : Nat) (p : CalEvent → Bool) : Nat :=
  ((s.slice n).chip.filter p).length + ((s.slice n).spill.filter p).length

/-- Remove a unit's events of a kind and cookie. -/
def unschedule (s : State) (n unit kind cookie : Nat) : State :=
  s.calCancel n (fun e => e.unit == unit && e.kind == kind && e.cookie == cookie)

/-- The earliest event of a slice, the first scheduled of equals (R33). -/
def calFirst (es : List CalEvent) : Option CalEvent :=
  es.foldl (fun a e => match a with
    | some b => if e.deadline < b.deadline then some e else a
    | none => some e) none

/-- The next event of a slice that is due, or would be. -/
def calNext (s : State) (n : Nat) : Option CalEvent := calFirst ((s.slice n).chip ++ (s.slice n).spill)

/-- Remove one event, the first equal one. -/
def calTake (s : State) (n : Nat) (e : CalEvent) : State :=
  let sl := s.slice n
  if sl.chip.contains e then { s with cal := Tbl.put s.cal n { sl with chip := sl.chip.erase e } }
  else { s with cal := Tbl.put s.cal n { sl with spill := sl.spill.erase e } }

/-- Whether a unit's event is pending. -/
def pendingEvent (s : State) (n unit kind cookie : Nat) : Option CalEvent :=
  ((s.slice n).chip ++ (s.slice n).spill).find? (fun e => e.unit == unit && e.kind == kind && e.cookie == cookie)

/-- Count a fire: FIRED, LATE when more than 2 ns after its due time, MAX_LATE (R32, R44). `due` is the deadline, or
the time a step took effect. -/
def countFire (s : State) (n due : Nat) (stepped : Bool) : State :=
  let s := s.bumpStat CAL.FIRED n
  let s := if stepped then s.bumpStat CAL.STEPPED n else s
  let s := if s.ns > due + 2 then s.bumpStat CAL.LATE n else s
  s.raiseMax CAL.MAX_LATE n (s.ns - due)

/-- The earliest pending event of a unit with this kind and cookie, with its slice. -/
def anyEvent (s : State) (unit kind cookie : Nat) : Option (Nat × CalEvent) :=
  let mine := fun (e : CalEvent) => e.unit == unit && e.kind == kind && e.cookie == cookie
  s.cal.foldl (fun a p =>
    match calFirst ((p.2.chip ++ p.2.spill).filter mine), a with
    | some e, some (n, b) => if e.deadline < b.deadline then some (p.1, e) else some (n, b)
    | some e, none => some (p.1, e)
    | none, a => a) none

/-- Remove the events of a unit with this kind and cookie, wherever they are. -/
def cancelAll (s : State) (unit kind cookie : Nat) : State :=
  { s with cal := Tbl.mapV s.cal (fun _ sl =>
      let keep := fun (e : CalEvent) => !(e.unit == unit && e.kind == kind && e.cookie == cookie)
      { chip := sl.chip.filter keep, spill := sl.spill.filter keep }) }

/-- An event fires at its deadline, or as soon as the block comes to it (R32, log 9): removed and counted. -/
def fireEvent (s : State) (n : Nat) (e : CalEvent) : State :=
  let s := s.reach e.deadline
  (s.calTake n e).countFire n e.deadline false

end State

end Sys2Proof.Machine
end

