-- ==== Sys2Proof/Machine/Meters.lean ====
section
/-! DEFINITION. Owners, minutes and charges (R28, R358, R364, R365, R369). -/

namespace Sys2Proof.Machine

/-- The owner index of a tenant and provider bit (R358): 4,096 is the provider. -/
def ownerIx (tenant : Nat) (prov : Bool) : Nat := if prov then 4096 else tenant % 4096

/-- The 13-bit owner value of an owner index (R358). -/
def ownerVal (x : Nat) : Nat := x % 8192

/-- The owner index of a 13-bit owner value. -/
def ownerOfVal (v : Nat) : Nat := ownerIx (v % 4096) (bit v 12)

/-- A tenant's state (R361); the provider is always ACTIVE. -/
def tenantState (s : State) (x : Nat) : Nat := if x = 4096 then 1 else (Tbl.getD s.tenants x {}).state

/-- The minute number of an instant in ns (R28). -/
def minuteOf (s : State) (ns : Nat) : Int :=
  (((ns / 1000000000 : Nat) : Int) - (s.rd RTIME.MINUTE_OFFSET : Int)) / 60

/-- The bank of a minute (R365). -/
def bankOf (m : Int) : Nat := (m % 2).toNat

/-- The minute in progress: the one that no seal has ended (R29); a backward step makes it last longer. -/
def minuteNow (s : State) : Int := if s.clk.armed then max s.clk.lastSealed (minuteOf s s.ns) else minuteOf s s.ns

/-- The address of a counter in HBM (R365). -/
def counterAddr (s : State) (bank x i : Nat) : Nat := s.rd64 SLICE.BANK_BASE + 4194304 * bank + 512 * x + 8 * i

/-- Add to a counter in HBM; counters wrap (R364). -/
def addCounter (s : State) (key amount : Nat) : State :=
  let a := counterAddr s (key / 64 / 4097) (key / 64 % 4097) (key % 64)
  s.memPutQ a [dw (qw (s.memGetQ a 1) 0 + amount)]

/-- A combining buffer adds every entry to HBM (R365). -/
def flushComb (s : State) (inst : Nat) : State :=
  let es := Tbl.getD s.met.comb inst []
  let s := es.foldl (fun s e => addCounter s e.1 e.2) s
  { s with met := { s.met with comb := Tbl.del s.met.comb inst } }

/-- A charge whose minute's grace period is over is counted, and its owner's record marked folded (R369). -/
def foldLate (s : State) (inst x : Nat) : State :=
  let s := (s.bumpStat METER.LATE_FOLD inst).bumpErr blkMETER inst 0
  { s.istat blkMETER inst 0 with
      tenants := Tbl.put s.tenants x { Tbl.getD s.tenants x {} with folded := true } }

/-- An amount is added to a METER page's combining buffer under its key (R365). -/
def combine (s : State) (inst key amount : Nat) : State :=
  let es := Tbl.getD s.met.comb inst []
  { s with met := { s.met with comb := Tbl.put s.met.comb inst (Tbl.put es key (Tbl.getD es key 0 + amount)) } }

/-- A charge to an owner's counter with its stamp in ns (R365, R369): into the combining buffer of a METER page, for
the stamp's minute, or folded into the minute in progress; discarded for a FREE tenant (R361). A full buffer is
flushed first (log 12). -/
def charge (s : State) (inst x i amount stamp : Nat) : State :=
  if tenantState s x = 0 then s.bumpStat SLICE.ORPHAN 0
  else
    let m := minuteOf s stamp
    let late := match s.met.graceOver with | some g => decide (m ≤ g) | none => false
    let s := if late then foldLate s inst x else s
    let key := ((bankOf (if late then minuteNow s else m)) * 4097 + x) * 64 + i
    let s := if 1024 ≤ (Tbl.getD s.met.comb inst []).length && (Tbl.get? (Tbl.getD s.met.comb inst []) key).isNone then
        flushComb s inst else s
    combine s inst key amount

end Sys2Proof.Machine
end

