-- ==== Sys2Proof/Machine/Work.lean ====
section
/-! DEFINITION. Work items, queues and dispatch of the Proofer (R329, R333 to R336). -/

namespace Sys2Proof.Machine

/-! ## Fields -/

def Item.type (i : Item) : Nat := qb i 0 7 0
def Item.queue (i : Item) : Nat := qb i 0 27 16
def Item.owner (i : Item) : Nat := ownerIx (qb i 0 39 28) (bit (qw i 0) 40)
def Item.tag (i : Item) : Nat := qb i 1 31 0

/-- An item from its fields (R329). -/
def mkItem (type queue x tag aux b2 b3 : Nat) : Item :=
  [dw (type + queue * 2 ^ 16 + (if x = 4096 then 2 ^ 40 else x * 2 ^ 28)), dw (tag % 2 ^ 32 + aux * 2 ^ 32), dw b2, dw b3]

def WorkQ.group (q : WorkQ) : Nat := bits q.cfg.toNat 7 0
def WorkQ.sched (q : WorkQ) : Nat := bits q.cfg.toNat 9 8
def WorkQ.prio (q : WorkQ) : Nat := bits q.cfg.toNat 12 10
def WorkQ.enabled (q : WorkQ) : Bool := bit q.cfg.toNat 13
def WorkQ.depth (q : WorkQ) : Nat := bits q.cfg.toNat 31 16
def WorkQ.owner (q : WorkQ) : Nat := ownerIx (bits q.cfg.toNat 43 32) (bit q.cfg.toNat 44)
def WorkQ.homeEn (q : WorkQ) : Bool := bit q.cfg.toNat 53
def WorkQ.home (q : WorkQ) : Nat := bits q.cfg.toNat 52 48

/-- The tile and the cluster of a hart (R4). -/
def tileOf (hart : Nat) : Nat := hart / 32
def clusterOf (hart : Nat) : Nat := hart / 16

/-- Items in use: queued or held (R333, log 13). -/
def itemsUsed (s : State) : Nat :=
  (s.workqs.map (fun p => p.2.items.length)).sum + (s.heldBy.filter (fun h => !h.ended)).length

/-- The clock of the cores as eighths of 2.4 GHz: thermal throttling or the hold of R438, whichever is slower (R439). -/
def clockEighths (s : State) : Nat := min (8 - s.pwr.level) (if s.stateOf blkPWR 0 = 2 then 4 else 8)

/-- Core-cycles of a number of ns at the present clock (R336, R438, R439). -/
def cyclesOf (s : State) (ns : Nat) : Nat := ns * 12 * clockEighths s / 40

/-- The tile a queue's items must go to, if any: HOME_TILE, or while that tile does not take work its ALT_TILE (R339). -/
def homeOf (s : State) (q : WorkQ) : Option Nat :=
  if !q.homeEn then none
  else if s.tests.contains (q.home + 32) || s.stateOf blkTILE q.home = 4 || s.stateOf blkTILE q.home = 5 || s.faulted.contains (State.pk blkTILE q.home) then
    let alt := s.rd TILE.TILE_CTRL q.home % 32
    if alt = q.home || s.stateOf blkTILE alt ≠ 1 then none else some alt
  else some q.home

/-- The position of the oldest eligible item among the first 16 of a queue (R334, R335). -/
def eligibleAt (s : State) (n : Nat) (q : WorkQ) : Option Nat :=
  if q.sched = 1 then
    (q.items.take 16).findIdx? (fun i => !(s.heldBy.any (fun h => !h.ended && h.queue == n && Item.tag h.item == Item.tag i)))
  else if q.items.isEmpty then none else some 0

/-- A queue has something for a hart. -/
def servable (s : State) (hart n : Nat) (q : WorkQ) : Bool :=
  (match homeOf s q with | some t => t == tileOf hart | none => true) && (eligibleAt s n q).isSome

/-- The queues of a group that have something for a hart. -/
def groupQueues (s : State) (hart g : Nat) : List (Nat × WorkQ) :=
  s.workqs.filter (fun p => p.2.group == g && servable s hart p.1 p.2)

/-- The WEIGHT of an owner: 16 where none was written (R334). -/
def weightOf (s : State) (x : Nat) : Nat := Tbl.getD s.weights x 16

/-- Deficit round robin among the owners of a list of queues (R334): the owner served, rounds added as needed. The
lowest owner index goes first among those whose deficit allows (log 13). -/
def drrPick (s : State) (xs : List Nat) : Option (Nat × State) :=
  match xs.find? (fun x => decide (Tbl.getD s.deficits x 0 > 0)) with
  | some x => some (x, s)
  | none =>
    match xs.map (fun x => ((1 - Tbl.getD s.deficits x 0).toNat + weightOf s x * 1024 - 1) / (weightOf s x * 1024)) with
    | [] => none
    | r :: rs =>
      let rounds := rs.foldl min r
      let d := xs.foldl (fun d x => Tbl.put d x (Tbl.getD d x 0 + ((rounds * weightOf s x * 1024 : Nat) : Int))) s.deficits
      let s := { s with deficits := d }
      (xs.find? (fun x => decide (Tbl.getD d x 0 > 0))).map (fun x => (x, s))

/-- The groups a hart serves, in round robin from the one after the last (R334); a group paused in the hold of R438
gives nothing. -/
def hartGroups (s : State) (h : Hart) : List Nat :=
  ((List.range 256).map (fun i => (h.rrPtr + 1 + i) % 256)).filter (fun g =>
    bit (qw h.ksub (g / 64)) (g % 64) &&
      !(s.stateOf blkPWR 0 = 2 && bit (s.rd PWR.BO_PAUSE 0 (g / 32)) (g % 32)))

/-- A hart may be given work: it runs, its tile is in SERVICE or its test only queued, and not FAULTED (R321, R339). -/
def hartTakes (s : State) (hart : Nat) : Bool :=
  (Tbl.getD s.harts hart ({} : Hart)).running && s.stateOf blkTILE (tileOf hart) ≤ 2 &&
    !s.faulted.contains (State.pk blkTILE (tileOf hart)) && !s.faulted.contains (State.pk blkCLUSTER (clusterOf hart))

/-- The item the Proofer chooses for a hart (R334): group, queue, position, and the state with deficits grown. -/
def chooseItem (s : State) (hart : Nat) : Option (Nat × Nat × Nat × State) :=
  let h : Hart := Tbl.getD s.harts hart {}
  match (hartGroups s h).find? (fun g => !(groupQueues s hart g).isEmpty) with
  | none => none
  | some g =>
    let qs := groupQueues s hart g
    let prio := (qs.map (fun p => p.2.prio)).foldl min 7
    let qs := qs.filter (fun p => p.2.prio == prio)
    match drrPick s ((qs.map (fun p => p.2.owner)).eraseDups) with
    | none => none
    | some (x, s) =>
      match qs.find? (fun p => p.2.owner == x) with
      | none => none
      | some (n, q) => (eligibleAt s n q).map (fun i => (g, n, i, s))

/-- Set a hart's x register; x0 stays 0. -/
def setX (s : State) (hart rd : Nat) (v : Dword) : State :=
  if rd = 0 then s
  else
    let h : Hart := Tbl.getD s.harts hart {}
    { s with harts := Tbl.put s.harts hart { h with x := Tbl.put h.x rd v } }

/-- The result of a Kwegan instruction in rd. -/
def hartResult (s : State) (hart rd : Nat) (v : Dword) : State := (setX s hart rd v).emit (.hartRd hart rd v)

/-- Give a hart its next item (R324, R334): the 32 bytes with GROUP go to its address, rd takes 1. False: none ready. -/
def giveItem (s : State) (hart addr rd : Nat) : State × Bool :=
  if !hartTakes s hart then (s, false) else
  match chooseItem s hart with
  | none => (s, false)
  | some (g, n, i, s) =>
    let q : WorkQ := Tbl.getD s.workqs n {}
    match takeAt q.items i with
    | none => (s, false)
    | some (it, rest) =>
      let s := { s with workqs := Tbl.put s.workqs n { q with items := rest, nextNum := q.nextNum + 1 } }
      let sent : Item := listSet it 0 (dw (qw it 0 - qb it 0 15 8 * 256 + g * 256))
      let s := { s with
        heldBy := s.heldBy ++ [({ item := it, queue := n, num := q.nextNum, hart := hart, start := s.ns } : Held)],
        harts := Tbl.put s.harts hart ({ Tbl.getD s.harts hart ({} : Hart) with wait := none, rrPtr := g } : Hart) }
      let s := (s.memPutQ addr sent).bumpStat PROOFER.DISPATCH 0
      let s := charge s (tileOf hart) (Item.owner it) 34 1 s.ns
      (hartResult s hart rd 1, true)

/-- Harts that wait in WGET take items while there are any (R324, R338). -/
def dispatchWaiting (s : State) : State :=
  (s.harts.filter (fun p => p.2.wait.isSome)).foldl (fun s p =>
    match p.2.wait with
    | some (addr, rd, _) => (giveItem s p.1 addr rd).1
    | none => s) s

/-- The pool below 1 % free raises PG_ISTAT bit 1; the greatest use is kept (R341). -/
def noteItems (s : State) : State :=
  let used := itemsUsed s
  let s := s.raiseMax PROOFER.ITEMS_HWM 0 used
  if 262144 - used < 2622 then s.istat blkPROOFER 0 1 else s

/-- An item at the end of its queue, whatever DEPTH says. -/
def enqueueItem (s : State) (it : Item) : State :=
  let q : WorkQ := Tbl.getD s.workqs (Item.queue it) {}
  { s with workqs := Tbl.put s.workqs (Item.queue it) { q with items := q.items ++ [it] } }

/-- Put an item on a queue's end (R52, R333): 0 accepted, 1 full, 2 disabled. `byDevice`: a device delivery; `timer`: it
bypasses DEPTH (R328). -/
def putItem (s : State) (it : Item) (byDevice : Bool) (timer : Bool := false) : State × Nat :=
  let q : WorkQ := Tbl.getD s.workqs (Item.queue it) {}
  let code := if !q.enabled || !s.enabled blkPROOFER 0 || s.faulted.contains (State.pk blkPROOFER 0) then 2 else if (q.depth ≤ q.items.length && !timer) || 262144 ≤ itemsUsed s then 1 else 0
  if code ≠ 0 then
    (((s.bumpStat PROOFER.REFUSED 0).bumpErr blkPROOFER 0 (if byDevice then 0 else 1)).istat blkPROOFER 0 0, code)
  else (dispatchWaiting (noteItems (enqueueItem s it)), 0)

/-- A device delivery to the delivery queue of a group (R333): whether it was taken. -/
def deliver (s : State) (group : Nat) (type x tag aux b2 b3 : Nat) : State × Bool :=
  let r := putItem s (mkItem type (group % 256) x tag aux b2 b3) true
  (r.1, r.2 == 0)

end Sys2Proof.Machine
end

