-- ==== Sys2Proof/Machine/Flags.lean ====
section
/-! DEFINITION. Interrupt flags: which block types are pending, the messages of ROUTE, MSI-X and INTx (R63 to R65, R97),
and `ok`, with which every meaning ends. -/

namespace Sys2Proof.Machine

/-- The block types that a page interrupt makes pending (R63): some page has PG_ISTAT & PG_IENA nonzero. -/
def pendingTypes (regs : Tbl Word) : List Nat :=
  ((regs.filter (fun p => p.1 % 4096 == 0x14 &&
    ((Tbl.getD regs (p.1 - 4) 0) &&& p.2) != 0)).map (fun p => p.1 / 2097152)).eraseDups

/-- The host port that carries the Control Function of control port A (1) or B (2), as presented (R89, R104). -/
def controlPort (s : State) (which : Nat) : Option Nat := (s.hports.find? (fun p => p.2.cf == which)).map Prod.fst

/-- A function's host-facing state; one never touched is as after reset. -/
def funcOf (s : State) (port sel : Nat) : Func := Tbl.getD s.funcs (fkey port sel) {}
def setFunc (s : State) (port sel : Nat) (f : Func) : State := { s with funcs := Tbl.put s.funcs (fkey port sel) f }

/-- A function sends an interrupt vector: MSI-X, or its INTx cause when MSI-X is off (R97, R130). -/
def sendVector (s : State) (port sel vec : Nat) : State :=
  let f := funcOf s port sel
  if f.msixEn then s.emit (.msix port sel vec)
  else if (sel = 0 ∨ sel = 1) ∧ ¬ f.intDis then
    setFunc s port sel { f with intxCause := f.intxCause ||| w32 (2 ^ min vec 31) }
  else s

/-- ROUTE entry of a block type: EN, TARGET, VECTOR (R65). -/
def routeOf (s : State) (t : Nat) : Nat := s.rd HUB.ROUTE 0 t

/-- The message to a control port's Control Function, when it has MSI-X on. -/
def routeMsix (s : State) (which vec : Nat) : State :=
  match controlPort s which with
  | some p => if (funcOf s p 2).msixEn then s.emit (.msix p 2 vec) else s
  | none => s

/-- One message by a type's ROUTE entry (R63, R65, R330). -/
def sendRoute (s : State) (t : Nat) : State :=
  let r := routeOf s t
  if !bit r 31 then s
  else
    match bits r 29 28 with
    | 0 => routeMsix s 1 (bits r 10 0)
    | 1 => routeMsix s 2 (bits r 10 0)
    | 2 => (deliver s (bits r 7 0) 0x05 4096 t 0 0 0).1
    | _ => routeMsix (routeMsix s 1 (bits r 10 0)) 2 (bits r 10 0)

/-- The types whose pending state has risen send their messages (R63). -/
def gather (s : State) : State :=
  let p := pendingTypes s.regs
  (p.filter (fun t => !s.typePend.contains t)).foldl sendRoute { s with typePend := p }

/-- A ROUTE entry targets a control port (1 A, 2 B). -/
def routesTo (s : State) (t which : Nat) : Bool :=
  let r := routeOf s t
  bit r 31 && (bits r 29 28 == which - 1 || bits r 29 28 == 3)

/-- The INTx wire of a port whose Control Function is `cf` (R97): the OR of its functions' causes. -/
def intxLevel (s : State) (port cf : Nat) : Bool :=
  let live := fun (f : Func) => !f.msixEn && !f.intDis
  let f0 := funcOf s port 0
  let f1 := funcOf s port 1
  let f2 := funcOf s port 2
  let mask := ((s.ctls.find? (fun c => c.2.port == port && c.2.sel == 1)).map (fun c => c.2.intms)).getD 0
  (live f0 && f0.intxCause != 0) || (live f1 && (f1.intxCause &&& ~~~mask) != 0) ||
    (cf != 0 && live f2 && s.typePend.any (fun t => routesTo s t cf))

/-- The INTx wires follow their causes; a wire that changes sends its message once (R97). -/
def wires (s : State) : State :=
  let changed := s.hports.filter (fun p => p.2.intxWire != intxLevel s p.1 p.2.cf)
  { s with hports := Tbl.mapV s.hports (fun port h => { h with intxWire := intxLevel s port h.cf }),
           out := (changed.map (fun p => Out.intx p.1 (!p.2.intxWire))).reverse ++ s.out }

/-- R38: the reference outputs are driven in LOCKED and HOLDOVER, or with OUT_ALWAYS. -/
def outDriven (s : State) : Bool :=
  s.clk.dstate == .locked || s.clk.dstate == .holdover || bit (s.rd RTIME.PPS_CTRL) 5

/-- PPS_OUT is enabled and driven; what TREF_OUT drives, in MHz (R38, R42). -/
def ppsDriven (s : State) : Bool := outDriven s && bit (s.rd RTIME.PPS_CTRL) 2
def trefDriven (s : State) : Nat :=
  if outDriven s && bit (s.rd RTIME.PPS_CTRL) 3 then (if bit (s.rd RTIME.PPS_CTRL) 4 then 25 else 10) else 0

/-- PPS_OUT goes low where it is high and no longer driven. -/
def dropPps (s : State) : State :=
  if s.clk.ppsOut && !ppsDriven s then { s with clk := { s.clk with ppsOut := false } }.emit (.pin 1 0 0) else s

/-- TREF_OUT changes to what the device drives now. -/
def driveTref (s : State) : State :=
  if s.clk.trefOut = trefDriven s then s
  else { s with clk := { s.clk with trefOut := trefDriven s } }.emit (.pin 10 0 (trefDriven s))

/-- The reference outputs follow the discipline state and PPS_CTRL (R38, R468). -/
def refOutputs (s : State) : State := driveTref (dropPps s)

/-- Interrupts settle after a command: what rose is sent (a delivery to the Proofer may raise its own page, R341), and
the wires, the reference outputs and FAULT_N follow. -/
def settle (s : State) : State :=
  let s := gather (gather (gather s))
  let s := refOutputs (wires { s with typePend := pendingTypes s.regs })
  driveFault s (pinAsserted s)

/-- A command's effect, with interrupts settled. -/
def ok (s : State) : Host.Outcome State Fault Refusal := .next (settle s)

end Sys2Proof.Machine
end

