-- ==== Sys2Proof/Machine/Pages.lean ====
section
/-! DEFINITION. Who may access a page, and page commands: the write of PG_CMD, its judgement, its end (R47 to R61, R66,
R470). -/

namespace Sys2Proof.Machine

/-! ## Octets and host ports (R5, R69, R75) -/

/-- The octet of a host port: p = 16 × die + 2 × position + half (R75). -/
def octetOfPort (p : Nat) : Nat := 16 * (p / 16) + p % 16 / 2

/-- The host port of an octet's half; an octet beyond position 7 has none (R69, R75). -/
def portOfOctet (o half : Nat) : Nat := 16 * (o / 16) + 2 * (o % 16) + half

/-- The personality and splits an octet runs: 1 H, 2 D, 3 E, 4 T (R85). -/
def persOf (s : State) (o : Nat) : Nat := s.rd OCTET.PERS_ACTIVE o % 8
def hsplitOf (s : State) (o : Nat) : Nat := bits (s.rd OCTET.PERS_ACTIVE o) 5 4
def dsplitOf (s : State) (o : Nat) : Nat := bits (s.rd OCTET.PERS_ACTIVE o) 9 8

/-- A host port number is in use by the personality and split of its octet (R75). -/
def portUsed (s : State) (p : Nat) : Bool :=
  let o := octetOfPort p
  persOf s o == 1 && (if p % 2 = 0 then hsplitOf s o != 3 else hsplitOf s o == 1)

/-- The octet of a TWIN page (R70). -/
def octetOfTwin (i : Nat) : Nat := 16 * (i / 2) + 14 + i % 2

/-- A page's octet or port has the personality the page needs (R53); TWIN 0 holds the pair state whatever it is. -/
def pageActive (s : State) (blk inst : Nat) : Bool :=
  match blk with
  | 0x11 => portUsed s inst
  | 0x30 => portUsed s inst
  | 0x12 => persOf s inst == 3
  | 0x41 => persOf s inst == 3
  | 0x14 => persOf s inst == 2
  | 0x13 => inst == 0 || persOf s (octetOfTwin inst) == 4
  | _ => true

/-- A block accepts new work (R52, R427): enabled and not FAULTED. -/
def accepts (s : State) (blk inst : Nat) : Bool := s.enabled blk inst && !s.faulted.contains (State.pk blk inst)

/-! ## Rights (R66) -/

/-- The two ACCESS bits of a requester for a block type. -/
def accessBits (s : State) (who : Requester) (blk : Nat) : Nat :=
  let e := s.rd HUB.ACCESS 0 blk
  match who with
  | .ctrlA => bits e 1 0
  | .ctrlB => bits e 3 2
  | .hart _ => bits e 5 4
  | .mgmt => bits e 7 6

/-- During stage 0 the BOOT page takes RECOV_WRITE and RECOV_DONE from the management interface and host port 0,
which stands as control port A, whatever ACCESS says (R410). -/
def recovOpen (s : State) (who : Requester) (blk : Nat) : Bool :=
  blk == blkBOOT && s.boot.pushOpen && (who == .mgmt || who == .ctrlA)

def mayRead (s : State) (who : Requester) (blk : Nat) : Bool :=
  accessBits s who blk == 1 || accessBits s who blk == 3 || recovOpen s who blk
def mayWrite (s : State) (who : Requester) (blk : Nat) : Bool := accessBits s who blk == 3 || recovOpen s who blk

/-- A requester as a number, for its latches and stages (R50). -/
def whoIx : Requester → Nat
  | .ctrlA => 0
  | .ctrlB => 1
  | .mgmt => 2
  | .hart h => 3 + h.val

/-- An access to a page that is not populated counts in UNPOP_COUNT, saturating (R48, R64). -/
def bumpUnpop (s : State) (n : Nat := 1) : State :=
  s.wr HUB.UNPOP_COUNT 0 (min 4294967295 (s.rd HUB.UNPOP_COUNT + n))

/-- The host port whose Control Function is under reset, when the requester is that control port (R94). -/
def cfInReset (s : State) (who : Requester) : Option Nat :=
  let at_ := match who with
    | .ctrlA => controlPort s 1
    | .ctrlB => controlPort s 2
    | _ => none
  at_.bind (fun p => if (funcOf s p 2).inReset then some p else none)

/-- An access of a requester reaches the pages: a write through a Control Function under reset is discarded and counted
in PG_ERRCNT4 of its HPORT page (R94), `n` of them. -/
def throughCf (who : Requester) (n : Nat) (k : State → State) (s : State) : State :=
  match cfInReset s who with
  | some p => s.bumpErr blkHPORT p 4 n
  | none => k s

/-- A register write by a requester that the page admits (R48, R66): a denied one counts in PG_ERRCNT28. -/
def pageWrite (who : Requester) (blk inst : Nat) (k : State → State) : State → State := throughCf who 1 fun s =>
  if pageCount blk ≤ inst then bumpUnpop s
  else if !mayWrite s who blk then s.bumpErr blk inst 28
  else k s

/-- A write of an RWL field: after LOCK it has no effect and counts in PG_ERRCNT30 (R8, R55). -/
def unlocked (blk inst : Nat) (k : State → State) (s : State) : State :=
  if s.locked blk inst then s.bumpErr blk inst 30 else k s

/-! ## Commands (R56 to R61) -/

/-- What a command sees: its page, who gave it, its arguments and data, and what an outside agent answers. -/
structure CmdCtx where
  blk  : Nat
  inst : Nat
  who  : Requester
  a0   : Nat
  a1   : Nat
  d    : List Dword
  env  : List Dword

/-- What a command comes to: RESULT, returned data, the state, and whether it ends later by an event of its own. -/
structure CmdRes where
  res  : Nat
  ret  : Option (List Dword) := none
  st   : State
  wait : Bool := false

/-- A command with a result and nothing else. -/
def CmdRes.fail (s : State) (code : Nat) : CmdRes := { res := code, st := s }

/-- A command that is done. -/
def CmdRes.done (s : State) : CmdRes := { res := 0, st := s }

/-- A command that returns data. -/
def CmdRes.data (s : State) (d : List Dword) : CmdRes := { res := 0, ret := some d, st := s }

/-- A command that ends by an event of its own. -/
def CmdRes.later (s : State) : CmdRes := { res := 0, st := s, wait := true }

/-- Reserved argument bits are judged before anything else about the arguments (R470 step 6): `m0` and `m1` hold the
bits that the command's table row names; an argument it does not take is not looked at. -/
def ckArgs (c : CmdCtx) (s : State) (m0 m1 : Nat) (k : CmdRes) : CmdRes :=
  if c.a0 &&& m0 ≠ c.a0 ∨ c.a1 &&& m1 ≠ c.a1 then .fail s 0x03 else k

/-- UP on an octet whose recovery has given up (R74). -/
def downOctet (s : State) (r : Running) (blk inst : Nat) : Bool :=
  blk == blkOCTET && r.op.toNat == 1 && (unitOf s (State.pk blk inst)).state == 3

/-- RECOV_WRITE and RECOV_DONE while the push is open: the BOOT page takes them before stage 3 enables it (R410). -/
def pushCommand (s : State) (r : Running) (blk : Nat) : Bool :=
  blk == blkBOOT && s.boot.pushOpen && (r.op.toNat == 3 || r.op.toNat == 4)

/-- What a running command's effect sees. -/
def cmdCtx (r : Running) (blk inst : Nat) : CmdCtx :=
  ⟨blk, inst, r.who, r.arg0.toNat, r.arg1.toNat, padQ r.data 8, r.env⟩

/-- A command's judgement by R470 down to step 5, then its own effect; TWIN commands exist in page 0 only (R401). -/
def judge (r : Running) (blk inst : Nat) (eff : CmdCtx → State → CmdRes) (s : State) : CmdRes :=
  if r.rsvd then .fail s 0x03
  else if blk == blkTWIN && inst != 0 then .fail s 0x01
  else if s.faulted.contains (State.pk blk inst) && blk != blkTILE && !downOctet s r blk inst then .fail s 0x0A
  else if (!s.enabled blk inst || !pageActive s blk inst) && !pushCommand s r blk then .fail s 0x04
  else eff (cmdCtx r blk inst) s

/-- A judged command ends with its result, or waits for its own event (R56, R60). -/
def conclude (o : CmdRes) (p : Nat) : State :=
  if o.wait then { o.st with running := Tbl.upd o.st.running p (fun r => { r with wait := true, ret := o.ret }) }
  else endCommand o.st p o.res o.ret

/-- The running command of a page is judged and ends, or waits for its own event (R56, R60). -/
def finish (blk inst : Nat) (eff : CmdCtx → State → CmdRes) (s : State) : State :=
  match Tbl.get? s.running (State.pk blk inst) with
  | none => s
  | some r => if r.wait then s else conclude (judge r blk inst eff s) (State.pk blk inst)

/-- Register writes that a command row makes: PG_CMD itself, the arguments given, two words for each qword of data. -/
def cmdWrites (c : CmdIn) : Nat := 1 + b2n c.arg0.isSome + b2n c.arg1.isSome + 2 * c.data.length

/-- An argument register written, when the row gives it. -/
def putArg (blk inst off : Nat) (v : Option Word) (s : State) : State :=
  match v with
  | some w => s.hdw blk inst off w.toNat
  | none => s

/-- The words of the data window that the row gives. -/
def putData (blk inst : Nat) (d : List Dword) (s : State) : State :=
  (List.range (min 16 (2 * d.length))).foldl (fun (s : State) (i : Nat) =>
    s.hdw blk inst (0x40 + 4 * i) (qw d (i / 2) / 2 ^ (32 * (i % 2)))) s

/-- The arguments and data that the requester writes before PG_CMD. -/
def latchArgs (c : CmdIn) (blk inst : Nat) (s : State) : State :=
  putData blk inst c.data (putArg blk inst 0x2C c.arg1 (putArg blk inst 0x28 c.arg0 s))

/-- The data window as qwords. -/
def dataWindow (s : State) (blk inst : Nat) : List Dword :=
  (List.range 8).map (fun i => dw (s.hd blk inst (0x40 + 8 * i) + 4294967296 * s.hd blk inst (0x44 + 8 * i)))

/-- PG_CMD holds what is written: the opcode and the bits above it. -/
def putCmd (c : CmdIn) (blk inst op : Nat) (s : State) : State := s.hdw blk inst 0x20 (c.hi.toNat * 256 + op)

/-- The command that a write of PG_CMD latches: what stands in the argument and data registers (R56). -/
def latchedCmd (c : CmdIn) (blk inst op : Nat) (s : State) : Running :=
  { who := c.who, tag := BitVec.ofNat 8 (c.hi.toNat / 256), op := BitVec.ofNat 8 op,
    rsvd := c.hi.toNat % 256 != 0 || c.hi.toNat / 65536 != 0,
    arg0 := w32 (s.hd blk inst 0x28), arg1 := w32 (s.hd blk inst 0x2C),
    data := dataWindow s blk inst, env := c.env, start := s.ns, wait := false, res := 0, ret := none }

/-- A command runs on a page: BUSY, and PG_CMD_STAT shows its tag and opcode (R56). -/
def runCommand (r : Running) (blk inst op : Nat) (s : State) : State :=
  let s := s.hdw blk inst 0x24 (r.tag.toNat * 65536 + op * 256)
  { s with running := Tbl.put s.running (State.pk blk inst) r }

/-- PG_CMD is written with BUSY clear (R56). -/
def beginCommand (c : CmdIn) (blk inst op : Nat) (s : State) : State :=
  runCommand (latchedCmd c blk inst op (putCmd c blk inst op s)) blk inst op (putCmd c blk inst op s)

/-- A denied write of PG_CMD with BUSY clear: a command that ends at once with 0x06 (R66). -/
def deniedCommand (c : CmdIn) (blk inst op : Nat) (s : State) : State :=
  (s.hdw blk inst 0x24 (c.hi.toNat / 256 % 256 * 65536 + op * 256 + 0x06)).istat blk inst 31

/-- A page command row (R48, R56, R58, R66): `eff` is what the opcode does on this block. -/
def pageCommand (blk op : Nat) (eff : CmdCtx → State → CmdRes) (c : CmdIn) : State → State :=
  throughCf c.who (cmdWrites c) fun s =>
  let inst := c.inst.toNat
  if pageCount blk ≤ inst then bumpUnpop s (cmdWrites c)
  else
    let busy := (Tbl.get? s.running (State.pk blk inst)).isSome
    if !mayWrite s c.who blk then
      let s := s.bumpErr blk inst 28 (cmdWrites c)
      if busy then s else deniedCommand c blk inst op s
    else if busy then s.bumpErr blk inst 31 (cmdWrites c)
    else
      let s := beginCommand c blk inst op (latchArgs c blk inst s)
      if c.defer then s else finish blk inst eff s

/-- A command on the page ends that waited for its own event. -/
def endWaiting (s : State) (blk inst op : Nat) (res : Nat) (ret : Option (List Dword) := none) : State :=
  match Tbl.get? s.running (State.pk blk inst) with
  | some r => if r.wait && r.op.toNat == op then endCommand s (State.pk blk inst) res ret else s
  | none => s

/-- The running command of a page, when it is this opcode and waits for its own event. -/
def waitingCmd (s : State) (blk inst op : Nat) : Option Running :=
  (Tbl.get? s.running (State.pk blk inst)).bind (fun r => if r.wait && r.op.toNat == op then some r else none)

end Sys2Proof.Machine
end

