-- ==== Sys2Proof/Machine/Closing.lean ====
section
/-! DEFINITION. A tenant leaves: its meter counters, its functions, the end of TENANT_CLOSE (R361). -/

namespace Sys2Proof.Machine

/-- The counters of an owner in both banks, and its entries in the combining buffers, are gone (R361). -/
def clearCounters (s : State) (x : Nat) : State :=
  let mine := fun (a bank : Nat) => counterAddr s bank x 0 ≤ a && a < counterAddr s bank x 64
  { s with mem := s.mem.filter (fun c => !mine c.1 0 && !mine c.1 1),
           met := { s.met with comb := Tbl.mapV s.met.comb (fun _ es => es.filter (fun e => decide (e.1 / 64 % 4097 ≠ x))) } }

/-- A tenant becomes FREE: PG_ISTAT bit 1 of TENANT. -/
def tenantFree (s : State) (x : Nat) : State :=
  { s with tenants := Tbl.upd s.tenants x (fun t => { t with state := 0 }) }.istat blkTENANT 0 1

/-- The TENANT_CLOSE that waits ends once FLOW has flushed and no item of the tenant is held (R215, R337, R361); with the
sequencer not armed the tenant is FREE at once. -/
def checkClose (s : State) : State :=
  match waitingCmd s blkTENANT 0 0x02 with
  | none => s
  | some r =>
    let x := r.arg0.toNat % 4096
    let t : Tenant := Tbl.getD s.tenants x {}
    if t.flowDue && s.flushing.length < 16 then
      { s with flushing := s.flushing ++ [x], tenants := Tbl.put s.tenants x { t with flowDue := false } }
    else if t.flowDue || s.flushing.contains x || s.heldBy.any (fun h => !h.ended && Item.owner h.item == x) then s
    else
      let s := endWaiting s blkTENANT 0 0x02 0
      if s.clk.armed then s else tenantFree (clearCounters s x) x

end Sys2Proof.Machine
end

