-- ==== Sys2Proof/Machine/Functions.lean ====
section
/-! DEFINITION. Host ports and their functions: presence, readiness, what a BAR access meets (R89, R94 to R96, R99). -/

namespace Sys2Proof.Machine

/-- A host port; one never touched is absent. -/
def hportOf (s : State) (p : Nat) : HPort := Tbl.getD s.hports p {}
def setHport (s : State) (p : Nat) (h : HPort) : State := { s with hports := Tbl.put s.hports p h }

/-- The port presents a function with this selector (R89, R104). -/
def funcPresent (s : State) (port sel : Nat) : Bool :=
  let h := hportOf s port
  h.quar == 1 && (sel == 0 || (sel == 1 && h.pf1) || (sel == 2 && h.cf != 0) ||
    (0x400 ≤ sel && sel < 0x400 + h.nvf0 && sel < 0x800) || (0x800 ≤ sel && sel < 0x800 + h.nvf1))

/-- A function's memory space answers: the port is ready, the function present, in D0 and not under reset. -/
def funcLive (s : State) (port sel : Nat) : Bool :=
  let f := funcOf s port sel
  s.stateOf blkHPORT port == 4 && funcPresent s port sel && !f.d3 && !f.inReset && !f.draining

/-- Unsupported Request on a host request (R89, R99): counted, reported through AER. -/
def unsupported (s : State) (port sel : Nat) (read : Bool) : State :=
  let s := (s.bumpErr blkHPORT port 0).aer port sel 2
  if read then s.emit (.completion port 1 []) else s

/-- A write to a function's BAR0: discarded and counted in PG_ERRCNT4 of HPORT during a reset or in D3hot (R91, R94,
R95); Unsupported Request when no such function answers (R96, R99). -/
def barWrite (port sel : Nat) (k : State → State) (s : State) : State :=
  let f := funcOf s port sel
  if s.stateOf blkHPORT port ≠ 4 && !f.inReset then unsupported s port sel false
  else if !funcPresent s port sel then unsupported s port sel false
  else if f.inReset || f.draining || f.d3 then s.bumpErr blkHPORT port 4
  else k s

/-- The functions a port presents, PF0 first. -/
def funcsOf (s : State) (port : Nat) : List Nat := presented (hportOf s port)

/-- The functions an FLR of a function covers: a PF with all its VFs, or the one function (R94). -/
def flrScope (s : State) (port sel : Nat) : List Nat :=
  let h := hportOf s port
  if sel = 0 then [0] ++ (List.range h.nvf0).map (· + 0x400)
  else if sel = 1 then [1] ++ (List.range h.nvf1).map (· + 0x800)
  else [sel]

/-- The owner index of a function (R359): the provider until assigned. -/
def funcOwner (s : State) (port sel : Nat) : Nat := (funcOf s port sel).owner

/-- A function named by a command's selector exists on the port as presented or allocated (R104). -/
def funcNamed (s : State) (port sel : Nat) : Bool := funcPresent s port sel

end Sys2Proof.Machine
end

