-- ==== Sys2Proof/Machine/EventRings.lean ====
section
/-! DEFINITION. Event rings: writing entries, the backlog and merging, arming (R126 to R130). -/

namespace Sys2Proof.Machine

/-- The key of an event ring: function and ring number. -/
def ekey (port sel r : Nat) : Nat := fkey port sel * 16 + r

/-- The ring is full: EP − ER_CONS = size (R126). -/
def EvRing.full (r : EvRing) : Bool := (r.ep - r.cons).toNat == 2 ^ r.log2

/-- An entry as two qwords (R127); PHASE is the lap parity of the index. -/
def eventQws (r : EvRing) (e : Event) : List Dword :=
  [dw (e.type + b2n (bit r.ep.toNat r.log2) * 2 ^ 8 + (if e.count > 1 then 2 ^ 9 else 0) + e.queue % 4096 * 2 ^ 16 +
       e.index % 65536 * 2 ^ 32 + e.cause % 256 * 2 ^ 48 + e.count * 2 ^ 56), dw e.stamp]

/-- Write one entry to a ring that has space; an armed ring sends its vector once (R127, R130). -/
def writeEvent (s : State) (k : Nat) (r : EvRing) (e : Event) : State :=
  let port := k / 16 / 4096
  let sel := k / 16 % 4096
  let s := s.emit (.hostWrite port sel (r.base + 16 * (r.ep.toNat % 2 ^ r.log2)) (eventQws r e))
  let s := { s with rings := Tbl.put s.rings k { r with ep := r.ep + 1, armed := false } }
  if r.armed then sendVector s port sel r.vector else s

/-- Merge an event into a backlog entry of the same type and queue (R128). -/
def mergeEvent (e : Event) : List Event → Option (List Event)
  | [] => none
  | b :: t =>
    if b.type = e.type ∧ b.queue = e.queue ∧ e.type ≠ 7 then
      some ({ b with count := min 255 (b.count + e.count),
                     index := if e.type = 1 ∨ e.type = 5 then e.index else b.index } :: t)
    else (mergeEvent e t).map (b :: ·)

/-- Post an event (R126, R129): into the ring, or the backlog while the ring is full or events wait; discarded with
OVERRUN when the backlog is full; discarded for a ring that does not exist, for a host that is not attached, and for a
function under reset (R79, R94). -/
def postEvent (s : State) (k : Nat) (e : Event) : State :=
  match Tbl.get? s.rings k with
  | none => s
  | some r =>
    if (hportOf s (k / 65536)).quar ≠ 1 || (funcOf s (k / 65536) (k / 16 % 4096)).inReset then s
    else if !r.full && r.backlog.isEmpty then writeEvent s k r e
    else
      match mergeEvent e r.backlog with
      | some b => { s with rings := Tbl.put s.rings k { r with backlog := b } }
      | none =>
        if r.backlog.length < 32 then { s with rings := Tbl.put s.rings k { r with backlog := r.backlog ++ [e] } }
        else
          let s := { s with rings := Tbl.put s.rings k { r with overrun := true, ovrDue := true } }
          (s.istat blkQMGR (k / 65536) 1).bumpErr blkQMGR (k / 65536) 5

/-- The backlog drains oldest first while there is space; after it one OVERRUN event, if one is due (R129). -/
def drainRing (k : Nat) : Nat → State → State
  | 0, s => s
  | f + 1, s =>
    match Tbl.get? s.rings k with
    | none => s
    | some r =>
      if r.full then s
      else
        match r.backlog with
        | e :: t => drainRing k f (writeEvent s k { r with backlog := t } e)
        | [] =>
          if r.ovrDue then writeEvent s k { r with ovrDue := false } ⟨7, 0xFFF, 0, 0, 1, s.ns⟩ else s

/-- R126: a write of ER_CONS behind the previous value or beyond EP is ignored and counted. -/
def erCons (port sel ring : Nat) (value : Word) (s : State) : State :=
  let k := ekey port sel ring
  match Tbl.get? s.rings k with
  | none => s.bumpErr blkQMGR port 29
  | some r =>
    if (value - r.cons).toNat ≤ (r.ep - r.cons).toNat then
      drainRing k 34 { s with rings := Tbl.put s.rings k { r with cons := value } }
    else s.bumpErr blkQMGR port 4

def execErConsWrite (port : Fin 128) (sel : BitVec 12) (ring : Fin 16) (value : Word) (s : State) :
    Host.Outcome State Fault Refusal :=
  ok (barWrite port.val sel.toNat (erCons port.val sel.toNat ring.val value) s)

/-- R130: ER_ARM sets ARMED; entries already pending send the vector at once. -/
def erArm (port sel ring : Nat) (value : Word) (s : State) : State :=
  let k := ekey port sel ring
  match Tbl.get? s.rings k with
  | none => s.bumpErr blkQMGR port 29
  | some r =>
    if !bit value.toNat 0 then s
    else if r.ep = r.cons then { s with rings := Tbl.put s.rings k { r with armed := true } }
    else sendVector { s with rings := Tbl.put s.rings k { r with armed := false } } port sel r.vector

def execErArmWrite (port : Fin 128) (sel : BitVec 12) (ring : Fin 16) (value : Word) (s : State) :
    Host.Outcome State Fault Refusal :=
  ok (barWrite port.val sel.toNat (erArm port.val sel.toNat ring.val value) s)

end Sys2Proof.Machine
end

