-- ==== Sys2Proof/Machine/Mirror.lean ====
section
/-! DEFINITION. Sending over the twin links, mirror records, and completions that wait for mirroring (R382 to R386, R389 to
R392). -/

namespace Sys2Proof.Machine

/-- The pair state (R380): 0 inactive, 1 ALONE, 2 JOINING, 3 PAIRED, 4 TAKEN_OVER, 5 FENCED. -/
def pairState (s : State) : Nat := s.stateOf blkTWIN 0

def setTwin (s : State) (f : Twin → Twin) : State := { s with twin := f s.twin }

/-- Store a twin link. -/
def setLink (s : State) (l : Nat) (k : Link) : State := setTwin s (fun t => { t with links := Tbl.put t.links l k })

/-- The links in service, ascending. -/
def linksUp (s : State) : List Nat := (s.twin.links.filter (fun p => p.2.stat == 3)).map Prod.fst

/-- The channels that carry sequence numbers and need credits (R383): MIRROR, COMMAND, BULK. -/
def sequenced (ch : Nat) : Bool := ch == 1 || ch == 2 || ch == 5

/-- Send what waits on a link, oldest first, while credits and replay room last (R385, R386). -/
def pumpLink (l : Nat) : Nat → State → State
  | 0, s => s
  | f + 1, s =>
    let k := linkOf s l
    match k.queued with
    | [] => s
    | (ch, pl) :: rest =>
      if k.stat = 3 ∧ k.replay.length < 4096 ∧ 0 < k.credits.getD ch 0 then
        let s := setLink s l { k with queued := rest, txSeq := k.txSeq + 1, replay := k.replay ++ [(k.txSeq, ch, pl)],
                                      credits := listSet k.credits ch (k.credits.getD ch 0 - 1) }
        pumpLink l f (putFlit s l ch false false k.txSeq.toNat 0 0 pl)
      else s

/-- Send a flit on a link: a sequenced one joins the link's queue first (R385, R386). -/
def sendFlit (s : State) (l ch : Nat) (pl : List Dword) : State :=
  if sequenced ch then
    let k := linkOf s l
    pumpLink l (k.queued.length + 1) (setLink s l { k with queued := k.queued ++ [(ch, pl)] })
  else putFlit s l ch false false 0 0 0 pl

/-- The link that takes the next record, in round robin over those in service (R391). -/
def nextLink (s : State) : Option (Nat × State) :=
  match (linksUp s).find? (fun l => decide (s.twin.rr < l)), (linksUp s).head? with
  | some l, _ => some (l, setTwin s (fun t => { t with rr := l }))
  | none, some l => some (l, setTwin s (fun t => { t with rr := l }))
  | none, none => none

/-- Records that no link carries yet go out while links and the window of 65,536 allow (R391). -/
def sendHeld : Nat → State → State
  | 0, s => s
  | f + 1, s =>
    match (s.twin.unacked.take 65536).find? (fun (u : Nat × Nat × List Dword) => u.2.1 == 16) with
    | none => s
    | some u =>
      match nextLink s with
      | none => s
      | some (l, s) =>
        let s := setTwin s (fun t => { t with unacked := t.unacked.map (fun (x : Nat × Nat × List Dword) =>
          if x.1 = u.1 then (x.1, l, x.2.2) else x) })
        sendHeld f (sendFlit s l 1 u.2.2)

/-- Emit one mirror record (R389): the next MSEQ, on the next link, unacknowledged until a MACK covers it. One beyond the
window of 65,536 waits and counts in PG_ERRCNT2 (R391). -/
def mirrorRec (s : State) (kind : Nat) (body : List Dword) (more : Bool := false) : State :=
  if pairState s ≠ 2 ∧ pairState s ≠ 3 then s
  else
    let n := (s.twin.mseqTx + 1) % 2 ^ 40
    let hd := dw (kind + body.length % 32 * 2 ^ 8 + b2n more * 2 ^ 13 + n * 2 ^ 24)
    let s := if 65536 ≤ s.twin.unacked.length then (s.bumpErr blkTWIN 0 2).istat blkTWIN 0 4 else s
    sendHeld 1 (setTwin s (fun t => { t with mseqTx := n, unacked := t.unacked ++ [(n, 16, hd :: body)] }))

/-- A host port is part of a port pair (R381). -/
def portPaired (s : State) (port : Nat) : Bool := bit (s.rd TWIN.PORT_PAIR 0 port) 31

/-- Qword 0 of a context (R256). -/
def ctxHeader (c : Ctx) : Dword :=
  dw (c.unit + c.cls * 2 ^ 4 + b2n c.hb * 2 ^ 6 + b2n c.quar * 2 ^ 7 + ownerVal c.owner * 2 ^ 8 + c.port * 2 ^ 21 +
      c.hbSlot * 2 ^ 32)

/-- CTX records of a context's qwords from `first` on, at most 28 in each (R389). -/
def ctxRecords (handle : Nat) (more : Bool) : Nat → Nat → List Dword → State → State
  | 0, _, _, s => s
  | f + 1, first, qws, s =>
    if qws.length ≤ 28 then mirrorRec s 0x01 (dw (handle + first * 2 ^ 32 + qws.length * 2 ^ 40) :: qws) more
    else ctxRecords handle more f (first + 28) (qws.drop 28)
      (mirrorRec s 0x01 (dw (handle + first * 2 ^ 32 + 28 * 2 ^ 40) :: qws.take 28) true)

/-- Context change of a paired port's object: the header and the words from qword 1 on as CTX records (R256, R389);
`more` when a record of the same group follows. -/
def mirrorCtx (s : State) (port handle : Nat) (qws : List Dword) (more : Bool := false) : State :=
  if portPaired s port then
    let hd := match Tbl.get? s.ctxs handle with | some c => ctxHeader c | none => 0
    ctxRecords handle more 2 0 (hd :: qws.take 31) s
  else s

/-- A charge that travels in the group of its completion (R392): a METER record. -/
def mirrorMeter (s : State) (port x i amount : Nat) : State :=
  if portPaired s port then
    mirrorRec s 0x04 [dw (ownerVal x + i * 2 ^ 16 + bankOf (minuteNow s) * 2 ^ 24), dw amount] true
  else s

/-- The host port of a ring queue's key; of a function's queue its selector and number (R106). -/
def queuePort (k : Nat) : Nat := if k < 2 ^ 32 then k / 16777216 else (k - 2 ^ 32) / 4096
def queueSel (k : Nat) : Nat := if k < 2 ^ 32 then k / 4096 % 4096 else 0xFFF
def queueNum (k : Nat) : Nat := k % 4096

/-- What a completion makes visible: what leaves, C, and the events (R107, R117); COMPL counts the entries written
(R133), each in two writes; or RING_PROD passes a record of the slice ring (R368). -/
def makeVisible (s : State) (w : Waiting) : State :=
  let s := s.emits w.outs
  let s := match w.ringProd with
    | some n => s.wr SLICE.RING_PROD 0 n
    | none => s
  let s := match w.cTo with
    | some (k, _) => s.bumpStat QMGR.COMPL (queuePort k) (w.outs.length / 2)
    | none => s
  let s := match w.cTo with
    | some (k, c) => { s with queues := Tbl.upd s.queues k (fun q => { q with c := BitVec.ofNat 16 c }) }
    | none => s
  w.evs.foldl (fun s e => postEvent s e.1 e.2) s

/-- A guaranteed-class completion of an object of a host port: COMPL for a paired port, and while the pair is PAIRED
the visible part waits for the MACK (R117, R389, R390). `unit`: 1 ring, 2 QP, 3 NVMe queue. -/
def complete (s : State) (port handle index unit : Nat) (w : Waiting) : State :=
  let s := if portPaired s port then mirrorRec s 0x02 [dw (handle + index % 65536 * 2 ^ 32 + unit * 2 ^ 48)] else s
  if pairState s = 3 ∧ portPaired s port then
    setTwin s (fun t => { t with waiting := t.waiting ++ [{ w with mseq := t.mseqTx, since := s.ns }] })
  else makeVisible s w

end Sys2Proof.Machine
end

