-- ==== Sys2Proof/Machine/Rings.lean ====
section
/-! DEFINITION. Rings: the checks of an entry, work items and chains, the judgement of doorbells, reading, malformed causes,
completion in place (R106 to R123). -/

namespace Sys2Proof.Machine

/-! ## Entries (R108 to R111, R119, R134) -/

def entOp (e : List Dword) : Nat := qb e 0 7 0
def entOwn (e : List Dword) : Bool := bit (qw e 0) 8
def entFirst (e : List Dword) : Bool := bit (qw e 0) 9
def entLast (e : List Dword) : Bool := bit (qw e 0) 10
def entInline (e : List Dword) : Bool := bit (qw e 0) 11
def entNotify (e : List Dword) : Bool := bit (qw e 0) 12
def entLen (e : List Dword) : Nat := qb e 0 47 16
def entSpec (e : List Dword) : Nat := qb e 0 63 48

/-- What R109 and R134 say of an opcode: least and greatest LENGTH, the bits of SPECIFIC in use, whether qwords 1 and 2
are reserved, the bits of qword 3 in use. -/
structure OpRow where
  lo : Nat
  hi : Nat
  spec : Nat
  r1 : Bool
  r2 : Bool
  q3 : Nat

/-- The row of an opcode on a queue kind: `none` when it is not of the kind (R106, R109, R134). -/
def opRow (kind op : Nat) : Option OpRow :=
  match kind, op with
  | 0, 0x01 => some ⟨1, 9600, 0xF, false, true, 0xFFFF⟩
  | 0, 0x0F => some ⟨1, 2 ^ 31, 0, false, true, 0⟩
  | 1, 0x02 => some ⟨256, 16384, 0, false, true, 0⟩
  | 2, 0x0F => some ⟨1, 2 ^ 31, 0, false, true, 0⟩
  | 2, 0x10 => some ⟨0, 2 ^ 31, 0, false, true, 0⟩
  | 2, 0x11 => some ⟨0, 2 ^ 31, 0xFFFF, false, true, 0xFFFF00000000⟩
  | 2, 0x12 => some ⟨0, 2 ^ 31, 0, false, false, 0xFFFFFFFF⟩
  | 2, 0x13 => some ⟨0, 2 ^ 31, 0xFFFF, false, false, 0xFFFFFFFFFFFF⟩
  | 2, 0x14 => some ⟨1, 2 ^ 31, 0, false, false, 0xFFFFFFFF⟩
  | 2, 0x15 => some ⟨8, 8, 0, false, false, 0xFFFFFFFF⟩
  | 2, 0x16 => some ⟨8, 8, 0, false, false, 0xFFFFFFFF⟩
  | 2, 0x17 => some ⟨0, 0, 0, false, false, 0⟩
  | 3, 0x0F => some ⟨1, 2 ^ 31, 0, false, true, 0⟩
  | 3, 0x18 => some ⟨1, 2 ^ 31, 0, false, true, 0⟩
  | 4, 0x20 => some ⟨1, 16777216, 1, false, false, 0xFFFFFFFFFF⟩
  | 4, 0x21 => some ⟨1, 16777216, 1, false, false, 0xFFFFFFFFFF⟩
  | 5, op => if 0x30 ≤ op ∧ op < 0x40 then some ⟨1, 2 ^ 31, 0xFFFF, false, false, 2 ^ 62 - 1⟩ else none
  | _, _ => none

/-- The opcodes that may carry INLINE (R111), those that may head a chain (R110), the atomics, chain members. -/
def inlineOp (op : Nat) : Bool := op == 0x01 || (0x10 ≤ op && op ≤ 0x13)
def headOp (op : Nat) : Bool := op == 0x01 || (0x10 ≤ op && op ≤ 0x14) || op == 0x18
def atomicOp (op : Nat) : Bool := op == 0x15 || op == 0x16
def memberOp (op : Nat) : Bool := op == 0x0F || op == 0x17

/-- The limit of a work total (R109). -/
def workLimit (op : Nat) : Option Nat :=
  if op = 0x01 then some 9600 else if 0x10 ≤ op ∧ op ≤ 0x13 then some (2 ^ 31) else none

/-- A reserved bit is set (R108, R109, R111, R135). -/
def entRsvd (kind : Nat) (r : OpRow) (e : List Dword) : Bool :=
  let op := entOp e
  qb e 0 15 14 != 0 || (bit (qw e 0) 13 && !(0x10 ≤ op && op ≤ 0x16)) || entSpec e &&& r.spec != entSpec e ||
    qw e 3 &&& r.q3 != qw e 3 || (op == 0x01 && !bit (qw e 0) 51 && qb e 3 15 0 != 0) ||
    (r.r1 && qw e 1 != 0) || (r.r2 && qw e 2 != 0) ||
    (entInline e && (!inlineOp op || !(entFirst e && entLast e) || qw e 1 != 0)) ||
    (kind == 4 && (0x82 < qb e 3 15 8 || (op == 0x20 && 0x82 < qb e 3 7 0)))

/-- The malformed cause of one entry (R119), 0 for none; OWN is judged first (log 16). -/
def entCause (kind log2 : Nat) (idx : BitVec 16) (e : List Dword) : Nat :=
  if entOwn e != bit idx.toNat log2 then 0x07
  else
    match opRow kind (entOp e) with
    | none => 0x06
    | some r =>
      if entRsvd kind r e then 0x01
      else if entLen e = 0 ∧ 1 ≤ r.lo then 0x02
      else if entInline e then (if 1 ≤ entLen e ∧ entLen e ≤ 224 then 0 else 0x03)
      else if r.lo ≤ entLen e ∧ entLen e ≤ r.hi then 0 else 0x03

/-- What stands at the head of the slots read: nothing whole yet, a cause at an entry so many slots on, or a work item
of so many entries and slots with its INLINE payload. -/
inductive Scan where
  | wait
  | bad (cause at_ : Nat)
  | item (entries slots : Nat) (payload : List Byte)
  deriving DecidableEq, Repr

/-- The members of a chain, `n` entries of it taken so far (R110). -/
def scanChain (kind log2 : Nat) (head : BitVec 16) (op : Nat) : Nat → Nat → List (List Dword) → Scan
  | n, total, m =>
    if n = 64 then .bad 0x04 63
    else
      match m with
      | [] => .wait
      | e :: t =>
        let c := entCause kind log2 (head + BitVec.ofNat 16 n) e
        if c ≠ 0 then .bad c n
        else if entFirst e || entOp e != (if atomicOp op then 0x17 else 0x0F) then .bad 0x05 n
        else if (match workLimit op with | some l => decide (l < total + entLen e) | none => false) then .bad 0x03 n
        else if entLast e then .item (n + 1) (n + 1) []
        else if atomicOp op then .bad 0x05 n
        else scanChain kind log2 head op (n + 1) (total + entLen e) t

/-- The work item at the head of the slots read (R110, R111, R119). -/
def scan (kind log2 : Nat) (head : BitVec 16) : List (List Dword) → Scan
  | [] => .wait
  | e :: t =>
    let c := entCause kind log2 head e
    let op := entOp e
    if c ≠ 0 then .bad c 0
    else if !entFirst e then .bad 0x05 0
    else if memberOp op then .bad 0x06 0
    else if entInline e then
      let n := (entLen e + 31) / 32
      if t.length < n then .wait else .item 1 (n + 1) ((t.take n).flatMap qwBytes |>.take (entLen e))
    else if entLast e then (if atomicOp op then .bad 0x05 0 else .item 1 1 [])
    else if atomicOp op || headOp op then scanChain kind log2 head op 1 (entLen e) t
    else .bad 0x05 0

/-! ## Queues -/

def setQueue (s : State) (k : Nat) (q : Queue) : State := { s with queues := Tbl.put s.queues k q }

/-- A provider ring's key. -/
def isProv (k : Nat) : Bool := decide (2 ^ 32 ≤ k)

/-- The first slot read that belongs to no whole work item yet. -/
def Queue.headIdx (q : Queue) : BitVec 16 := q.u - BitVec.ofNat 16 q.chain.length

/-- Entries posted and not read (R114); none from a stopping point on (R120). -/
def Queue.avail (q : Queue) : Nat :=
  let n := (q.d - q.u).toNat
  match q.stopAt with
  | some i => min n ((i - q.c).toNat - (q.u - q.c).toNat)
  | none => n

/-- A receive or provider ring: entries read wait for a use; they are not in flight. -/
def Queue.waits (q : Queue) : Bool := q.kind == 1 || q.kind == 3 || q.kind == 5

/-- The ring anchor of R257: qwords 1 to 3. -/
def ringAnchor (k : Nat) (q : Queue) : List Dword :=
  [dw q.base, dw (q.c.toNat + q.d.toNat * 2 ^ 16 + q.state * 2 ^ 32 + q.log2 * 2 ^ 35 + q.kind * 2 ^ 39 +
                  q.cause * 2 ^ 42 + q.ering * 2 ^ 50),
   dw (q.fidx.toNat + queueNum k * 2 ^ 16 + queueSel k * 2 ^ 28 + q.bind * 2 ^ 40)]

/-- The bench copy of a queue's context changed: dirty, in use, mirrored (R262, R389). -/
def touchQueue (s : State) (k : Nat) : State :=
  match Tbl.get? s.queues k with
  | none => s
  | some q =>
    let s := { s with ctxs := Tbl.upd s.ctxs q.handle (fun c => { c with dirty := true, ref := true }) }
    if isProv k then s else mirrorCtx s (queuePort k) q.handle (ringAnchor k q)

/-- Post an event of a queue to its event ring; a provider ring has none (R128). -/
def queueEvent (s : State) (k type index cause : Nat) : State :=
  match Tbl.get? s.queues k with
  | some q => if isProv k then s else
      postEvent s (ekey (queuePort k) (queueSel k) q.ering) ⟨type, queueNum k, index, cause, 1, s.ns⟩
  | none => s

/-- The Q_STOP that waits on a queue ends when no work item is being read or in flight (R122). -/
def checkStopped (s : State) (k : Nat) : State :=
  match Tbl.get? s.queues k with
  | none => s
  | some q =>
    if q.stopping && q.state == 1 && !q.reading && (q.chain.isEmpty || q.avail == 0) && (q.waits || q.items.isEmpty) then
      endWaiting (touchQueue (setQueue s k { q with state := 3, stopping := false }) k) blkQMGR (queuePort k) 0x03 0
    else s

/-- ERROR shows once C reaches the stopping point (R120); a Q_STOP it overtakes ends with BAD_STATE. -/
def checkError (s : State) (k : Nat) : State :=
  match Tbl.get? s.queues k with
  | none => s
  | some q =>
    if q.state = 1 ∧ q.stopAt = some q.c then
      let p := queuePort k
      let s := touchQueue (setQueue s k { q with state := 2, stopping := false }) k
      let s := s.wr QMGR.LAST_ERR p (queueNum k + queueSel k * 2 ^ 12 + q.cause * 2 ^ 24)
      let s := (s.wr QMGR.LAST_ERR_IDX p q.fidx.toNat).istat blkQMGR p 0
      let s := queueEvent s k 0x02 q.fidx.toNat q.cause
      if q.stopping then endWaiting s blkQMGR p 0x03 0x43 else s
    else s

/-- What follows when C or the state of a queue has moved. -/
def settleQueue (s : State) (k : Nat) : State := checkStopped (checkError s k) k

/-- A malformed cause (R119, R120, R123): counted; the lowest faulting index is latched until ERROR shows; nothing is
consumed from the next work item boundary on. A doorbell cause drops receive buffers that no frame uses. -/
def malformed (s : State) (k cause : Nat) (idx : BitVec 16) : State :=
  let s := s.bumpErr blkQMGR (queuePort k) (if cause = 0x08 then 1 else 0)
  match Tbl.get? s.queues k with
  | none => s
  | some q =>
    if q.state ≠ 1 then s
    else
      let bell := decide (0x08 ≤ cause) && q.waits
      let free := if bell then q.items.find? (fun i => i.fate.isNone) else none
      let head := match free with | some i => i.idx | none => q.headIdx
      let q := if bell then { q with items := q.items.filter (fun i => i.fate.isSome), chain := [], u := head } else q
      let low := match q.stopAt with
        | none => true
        | some _ => decide ((idx - q.c).toNat < (q.fidx - q.c).toNat)
      let q := if low then { q with cause := cause, fidx := idx } else q
      let stop := match q.stopAt with
        | none => head
        | some i => if (head - q.c).toNat < (i - q.c).toNat then head else i
      settleQueue (setQueue s k { q with stopAt := some stop }) k

/-- Work items formed from the slots read, with the causes found (R110, R119, R120). -/
def formItems : Nat → Queue → List WorkItem → Queue × List WorkItem × Option (Nat × BitVec 16)
  | 0, q, acc => (q, acc, none)
  | f + 1, q, acc =>
    if q.stopAt = some q.headIdx then (q, acc, none)
    else
      match scan q.kind q.log2 q.headIdx q.chain with
      | .wait => (q, acc, none)
      | .bad cause n => (q, acc, some (cause, q.headIdx + BitVec.ofNat 16 n))
      | .item n slots payload =>
        let it : WorkItem := { idx := q.headIdx, slots := slots, entries := q.chain.take n, payload := payload }
        formItems f { q with chain := q.chain.drop slots, items := q.items ++ [it] } (acc ++ [it])

/-! ## Reading (R114) -/

/-- Slots the next read may cover: at most 32, below D, not past the ring's end (log 17). -/
def Queue.readMax (q : Queue) : Nat :=
  if q.reading || q.state != 1 || (q.stopping && q.chain.isEmpty) then 0
  else min (min 32 q.avail) (2 ^ q.log2 - q.u.toNat % 2 ^ q.log2)

/-- The context a queue needs is resident and no hart has it locked, or it has none (R260, R325). -/
def resident (s : State) (h : Nat) : Bool :=
  match Tbl.get? s.ctxs h with | some c => c.state == 3 && !c.waitSlot && c.lock.isNone | none => true

/-- A send ring of a QP is read only once the QP is in RTS, and in ERROR to be flushed (R226, R227). -/
def sendIdle (s : State) (q : Queue) : Bool :=
  q.kind == 2 && (match Tbl.get? s.qps q.bind with | some p => p.state != 3 && p.state != 4 | none => true)

/-- The object is being handed back: nothing more is fetched for it (R398). -/
def handingBack (s : State) (port handle : Nat) : Bool := s.twin.handing.contains port && s.twin.taken.contains handle

/-- Start the next descriptor read, if there is something to read. -/
def pull (s : State) (k : Nat) : State :=
  match Tbl.get? s.queues k with
  | none => s
  | some q =>
    let n := q.readMax
    if n = 0 || !resident s q.handle || handingBack s (queuePort k) q.handle || sendIdle s q || !accepts s blkQMGR (queuePort k) then s
    else
      (setQueue s k { q with reading := true }).emit
        (.memRead (queuePort k) (queueSel k) 1 (q.base + 32 * (q.u.toNat % 2 ^ q.log2)) (32 * n) false)

/-- Slots arrive for an outstanding read: the items they make, the cause they end in; the next read starts. Answers
the new items for the queue's kind to start. -/
def takeSlots (s : State) (k : Nat) (slots : List (List Dword)) : State × List WorkItem :=
  match Tbl.get? s.queues k with
  | none => (s, [])
  | some q =>
    let q := { q with reading := false }
    let n := q.readMax
    let got := (slots.take n).map (fun e => padQ e 4)
    let q := { q with u := q.u + BitVec.ofNat 16 got.length, chain := q.chain ++ got }
    let r := formItems (q.chain.length + 1) q []
    let s := setQueue s k r.1
    let s := match r.2.2 with | some (c, i) => malformed s k c i | none => s
    (pull (settleQueue s k) k, r.2.1)

/-! ## Doorbells (R113) -/

/-- Judge a doorbell for a queue that is neither NONE nor QUARANTINED. -/
def judgeBell (s : State) (k : Nat) (value : Word) : State :=
  match Tbl.get? s.queues k with
  | none => s
  | some q =>
    let p := BitVec.ofNat 16 value.toNat
    let ahead := (p - q.c).toNat
    let refuse := fun (c : Nat) =>
      if q.state = 1 then malformed s k c p else s.bumpErr blkQMGR (queuePort k) (if c = 8 then 1 else 0)
    if bits value.toNat 31 16 ≠ 0 then refuse 0x09
    else if 2 ^ q.log2 < ahead then refuse 0x08
    else if p = q.d then s
    else if ahead < (q.d - q.c).toNat then s.bumpErr blkQMGR (queuePort k) 2
    else pull (touchQueue (setQueue s k { q with d := p }) k) k

/-! ## Completion in place (R115 to R117) -/

/-- The two writes that complete one entry: where, and qwords 1 and 2, then qword 3. -/
def entryWrites (q : Queue) (i : Nat) (e : List Dword) (q1 q2 q3 : Nat) : List (Nat × List Dword) :=
  let a := q.base + 32 * (i % 2 ^ q.log2)
  [(a + 8, [dw q1, dw q2]), (a + 24, [dw (q3 + b2n (entOwn e) * 2 ^ 62 + 2 ^ 63)])]

/-- The writes that complete a work item: every member of a chain, the LAST with STATUS, BYTE_COUNT and the rest; a
stamp not given is Rack Time at the write. -/
def itemWrites (s : State) (q : Queue) (it : WorkItem) (status count : Nat) : List (Nat × List Dword) :=
  let tr := if it.portStamp then it.trace else s.traceable
  let last := it.entries.length - 1
  (List.range it.entries.length).flatMap (fun j =>
    let e := it.entries.getD j []
    let i := it.idx.toNat + j
    if j < last then entryWrites q i e 0x01 s.ns (b2n s.traceable * 2 ^ 60)
    else entryWrites q i e (status + it.flags * 256 + count * 2 ^ 32) (if it.portStamp then it.stamp else s.ns)
           (it.aux.toNat + it.ptype * 2 ^ 32 + b2n tr * 2 ^ 60))

/-- Complete the head work items whose fate is known, in index order (R117). -/
def flushQueue (k : Nat) : Nat → State → State
  | 0, s => s
  | f + 1, s =>
    match Tbl.get? s.queues k with
    | none => s
    | some q =>
      match q.items with
      | [] => s
      | it :: rest =>
        match it.fate, it.waitPort with
        | some (status, count), none =>
          let c := it.idx + BitVec.ofNat 16 it.slots
          let ws := itemWrites s q it status count
          let s := setQueue s k { q with items := rest }
          let s :=
            if isProv k then
              let s := ws.foldl (fun (s : State) w => s.memPutQ w.1 w.2) s
              (setQueue s k { q with items := rest, c := c }).bumpStat QMGR.COMPL (queuePort k) it.entries.length
            else
              let port := queuePort k
              let sel := queueSel k
              let ev : List (Nat × Event) := if it.entries.any entNotify then
                  [(ekey port sel q.ering, ⟨0x01, queueNum k, c.toNat, 0, 1, s.ns⟩)] else []
              let w : Waiting := { mseq := 0, outs := ws.map (fun w => .hostWrite port sel w.1 w.2),
                                   cTo := some (k, c.toNat), evs := ev }
              if q.kind = 2 ∨ q.kind = 3 then
                complete (mirrorCtx s port q.handle (ringAnchor k { q with c := c }) true) port q.handle it.idx.toNat 1 w
              else touchQueue (makeVisible s w) k
          flushQueue k f (settleQueue { s with ctxs := Tbl.upd s.ctxs q.handle (fun x => { x with dirty := true }) } k)
        | _, _ => s

/-- Complete what can be completed. -/
def flushItems (s : State) (k : Nat) : State :=
  flushQueue k ((Tbl.get? s.queues k).map (fun q => q.items.length) |>.getD 0) s

/-- Change the work item of an index. -/
def updItem (s : State) (k : Nat) (idx : BitVec 16) (f : WorkItem → WorkItem) : State :=
  { s with queues := Tbl.upd s.queues k (fun q => { q with items := q.items.map (fun i => if i.idx = idx then f i else i) }) }

/-- The fate of a work item is decided: STATUS and bytes (R177); the first fate stands. -/
def setFate (s : State) (k : Nat) (idx : BitVec 16) (status count : Nat) : State :=
  flushItems (updItem s k idx (fun i => if i.fate.isSome then i else { i with fate := some (status, count) })) k

/-- The source of a packet that the Proofer injects (R332): no queue has this key. -/
def injected : Nat × BitVec 16 := (2 ^ 40, 0)

/-- The fate of a frame's send work item, if it has one; the drop of an injected packet counts in INJ_DROP (R332). -/
def sendFate (s : State) (src : Option (Nat × BitVec 16)) (status count : Nat) : State :=
  match src with
  | some (k, idx) =>
    if k = injected.1 then (if status = 0 then s else s.bumpStat PROOFER.INJ_DROP 0) else setFate s k idx status count
  | none => s

/-! ## Restart (R121 to R123) -/

/-- Reads of host memory that a queue has outstanding: of descriptors, of payload, and of data its QP serves (R362). -/
def ownReads (q : Queue) : Nat :=
  if q.kind = 0 ∨ q.kind = 2 then (q.items.filter (fun i => i.fate.isNone && !i.sent)).length else 0
def qpReads (s : State) (q : Queue) : Nat :=
  if q.kind = 2 ∨ q.kind = 3 then ((Tbl.get? s.qps q.bind).map (fun x => x.reads.length)).getD 0 else 0
def readsOfQueue (s : State) (q : Queue) : Nat :=
  b2n (q.reading && !q.devmem) + ownReads q + if q.kind = 3 then qpReads s q else 0

/-- A queue restarts at an index: in-flight work is discarded, reading starts again there. `clear` forgets the latched
cause (R121, R122). -/
def Queue.restart (q : Queue) (c d : BitVec 16) (clear : Bool) : Queue :=
  let q := { q with c := c, d := d, u := c, items := [], chain := [], reading := false }
  if clear then { q with cause := 0, fidx := 0, stopAt := none } else q

/-- Frames that wait for buffers of a queue are given up; their senders' items complete with `status`. -/
def dropWaiting (s : State) (k : Nat) (status : Nat) : State :=
  match Tbl.get? s.queues k with
  | none => s
  | some q =>
    let s := s.cancelAll blkQMGR 1 k
    q.rxWait.foldl (fun s f => sendFate s f.src status 0) (setQueue s k { q with rxWait := [] })

end Sys2Proof.Machine
end

