-- ==== Sys2Proof/Machine/Levain.lean ====
section
/-! DEFINITION. Levain: handles, quotas, the bench and the clock hand, fetch, writeback, parking (R254 to R271). -/

namespace Sys2Proof.Machine

def setCtx (s : State) (h : Nat) (c : Ctx) : State := { s with ctxs := Tbl.put s.ctxs h c }
def updCtx (s : State) (h : Nat) (f : Ctx → Ctx) : State := { s with ctxs := Tbl.upd s.ctxs h f }

/-! ## Counts (R258, R272) -/

/-- STORE_QUOTA and PIN_QUOTA of an owner (R258). -/
def quotaOf (s : State) (x : Nat) : Nat × Nat := Tbl.getD s.quotas x (if x = 4096 then (0x3FFFFFF, 0x1FFFF) else (0, 0))

def ctxCount (s : State) (p : Ctx → Bool) : Nat := (s.ctxs.filter (fun c => p c.2)).length
def storeHeld (s : State) (x : Nat) : Nat := ctxCount s (fun c => c.owner == x && !c.hb)
def hostHeld (s : State) (x : Nat) : Nat := ctxCount s (fun c => c.owner == x && c.hb)
def pinHeld (s : State) (x : Nat) : Nat := ctxCount s (fun c => c.owner == x && c.cls == 0)
def pinTotal (s : State) : Nat := ctxCount s (fun c => c.cls == 0)
def benchUsed (s : State) : Nat := ctxCount s (fun c => (c.state == 2 || c.state == 3 || c.state == 4) && !c.waitSlot)
def benchFree (s : State) : Nat := 131072 - benchUsed s
def pendUsed (s : State) : Nat := ctxCount s (fun c => c.state == 2 || c.state == 4)

/-! ## The home copy (R254, R256, R257, R262) -/

/-- The ring queue whose context a handle is. -/
def queueOfHandle (s : State) (h : Nat) : Option (Nat × Queue) := s.queues.find? (fun p => p.2.handle == h)

/-- Qwords 0 to 7 of a context: header and, for a ring, the anchor (R257). What the other qwords hold is the owning
unit's own and stays in its tables (log 18). -/
def ctxWords (s : State) (h : Nat) (c : Ctx) : List Dword :=
  padQ (ctxHeader c :: (match queueOfHandle s h with | some (k, q) => ringAnchor k q | none => [])) 8

/-- The store copy of a context is written in HBM. -/
def storeWrite (s : State) (h : Nat) (c : Ctx) : State :=
  s.memPutQ (s.rd64 LEVAIN.STORE_BASE + 256 * h) (ctxWords s h c)

/-- Release a host slot (R265). -/
def freeSlot (s : State) (c : Ctx) : State :=
  if c.hb then
    let hp := hportOf s c.port
    setHport s c.port { hp with hbSlots := setDel hp.hbSlots c.hbSlot }
  else s

/-- Levain drops what a ring context holds beyond its anchor: reading starts again at C (R257). -/
def rebuildRing (s : State) (h : Nat) : State :=
  match queueOfHandle s h with
  | some (k, q) => setQueue s k { q with u := q.c, items := [], chain := [], reading := false }
  | none => s

/-! ## Parked packets (R269) -/

/-- Cells of a packet in a park area. -/
def parkCells (len : Nat) : Nat := (len + 255) / 256

/-- Cells parked in a pipeline. -/
def parkUsed (s : State) (pipe : Nat) : Nat :=
  (s.ctxs.map (fun c =>
    ((c.2.parked.filter (fun p => p.1 == pipe)).map (fun p => parkCells p.2.1.bytes.length)).sum +
    ((c.2.rparked.filter (fun p => p.qpn.toNat % 32 == pipe)).map (fun p => parkCells (p.payload.length + 64))).sum)).sum

/-- Parked packets of a context are dropped (R264, R269): counted, charged, their senders told. -/
def dropParked (s : State) (h : Nat) : State :=
  match Tbl.get? s.ctxs h with
  | none => s
  | some c =>
    let n := c.parked.length + c.rparked.length
    let s := (updCtx s h (fun c => { c with parked := [], rparked := [] })).cancelAll blkLEVAIN 1 h
    if n = 0 then s
    else
      let s := s.bumpStat LEVAIN.PARKDROP 0 n
      let s := charge s 0 c.owner 38 n s.ns
      c.parked.foldl (fun s p => sendFate s p.2.1.src 0x09 0) s

/-- Room to park a packet for a context on a pipeline, with its deadline scheduled when it is the first (R269): false
when the packet is dropped. -/
def parkRoom (s : State) (h pipe len : Nat) : State × Bool :=
  match Tbl.get? s.ctxs h with
  | none => (s, false)
  | some c =>
    let n := c.parked.length + c.rparked.length
    if 64 ≤ n ∨ 16384 < parkUsed s pipe + parkCells len then
      let s := ((s.bumpStat LEVAIN.PARKDROP 0).bumpErr blkLEVAIN 0 0).istat blkLEVAIN 0 2
      (charge s 0 c.owner 38 1 s.ns, false)
    else if n = 0 then
      let at_ := s.ns + s.rd LEVAIN.PARK_TIME * 1000
      let (s, ok) := s.schedule pipe at_ blkLEVAIN 1 h
      if ok then ((updCtx s h (fun c => { c with parkStep := false })).bumpStat LEVAIN.PARKED 0, true)
      else (s.bumpErr blkLEVAIN 0 4, false)
    else (s.bumpStat LEVAIN.PARKED 0, true)

/-! ## Leaving the bench (R261, R262, R264) -/

/-- A context is locked (R261): reads outstanding for its ring or its work in flight, or a hart's lock. -/
def ctxLocked (s : State) (h : Nat) (c : Ctx) : Bool :=
  c.lock.isSome || (match queueOfHandle s h with
    | some (_, q) => q.reading || (!q.waits && !q.items.isEmpty) || q.items.any (fun i => i.fate.isSome)
    | none => (s.qps.any (fun p => p.2.handle ≤ h && h < p.2.handle + 4 && (!p.2.attempts.isEmpty || !p.2.reads.isEmpty || !p.2.atoms.isEmpty || !p.2.msgs.isEmpty))))

/-- An EVICT command on the context ends (R272). -/
def evictEnds (s : State) (h res : Nat) : State :=
  match Tbl.get? s.ctxs h with
  | some c => if c.evictCmd then endWaiting (updCtx s h (fun c => { c with evictCmd := false })) blkLEVAIN 0 0x04 res else s
  | none => s

/-- A victim leaves the bench (R264): at once when clean; a dirty context is written back first. -/
def leaveBench (s : State) (h : Nat) : State :=
  match Tbl.get? s.ctxs h with
  | none => s
  | some c =>
    if !c.dirty then evictEnds (updCtx s h (fun c => { c with state := 1 })) h 0
    else
      let s := (updCtx s h (fun c => { c with state := 4 })).bumpStat LEVAIN.WB 0
      if c.hb then
        let f := funcOf s c.port 0
        let a := f.hbBaseLo.toNat + f.hbBaseHi.toNat * 2 ^ 32 + 256 * c.hbSlot
        s.emits [.hostWrite c.port 0 a (ctxWords s h c), .memRead c.port 0 4 a 0 false]
      else s

/-- The clock hand passes over the bench from the slot after the last victim (R261); `warm`: WARM slots are candidates.
Bench slots stand in the order of the handles they hold (log 19). -/
def clockPass (warm : Bool) : List (Nat × Ctx) → State → Option Nat × State
  | [], s => (none, s)
  | (h, c) :: t, s =>
    if c.cls = 0 || ctxLocked s h c then clockPass warm t s
    else if c.ref then clockPass warm t (updCtx s h (fun c => { c with ref := false }))
    else if c.cls = 2 || warm then (some h, { s with hand := h + 1 })
    else clockPass warm t s

/-- The resident contexts from the hand on. -/
def benchRing (s : State) : List (Nat × Ctx) :=
  let r := s.ctxs.filter (fun p => p.2.state == 3 && !p.2.waitSlot)
  r.filter (fun p => decide (s.hand ≤ p.1)) ++ r.filter (fun p => decide (p.1 < s.hand))

/-- The victim of the clock hand, if there is one. -/
def pickVictim (s : State) : Option Nat × State :=
  match clockPass false (benchRing s) s with
  | (some h, s) => (some h, s)
  | (none, s) =>
    match clockPass false (benchRing s) s with
    | (some h, s) => (some h, s)
    | (none, s) => clockPass true (benchRing s) s

/-- Evict until BENCH_HIGH slots are free or being freed (R261). -/
def evictTo (high : Nat) : Nat → State → State
  | 0, s => s
  | f + 1, s =>
    if high ≤ benchFree s + ctxCount s (fun c => c.state == 4) then s
    else
      match pickVictim s with
      | (some h, s) => evictTo high f (leaveBench s h)
      | (none, s) => s

/-- Keep BENCH_LOW slots free (R261). -/
def keepFree (s : State) : State :=
  if benchFree s < s.rd LEVAIN.BENCH_LOW then evictTo (s.rd LEVAIN.BENCH_HIGH) (benchUsed s) s else s

/-! ## Coming to the bench (R260, R263, R264) -/

/-- A fetch starts: the home copy is read from the store or the host. -/
def startFetch (s : State) (h : Nat) (c : Ctx) : State :=
  let s := (setCtx s h { c with state := 2, demand := false, waitSlot := false, started := s.ns }).bumpStat LEVAIN.FETCH 0
  if c.hb then
    let f := funcOf s c.port 0
    s.emit (.memRead c.port 0 5 (f.hbBaseLo.toNat + f.hbBaseHi.toNat * 2 ^ 32 + 256 * c.hbSlot) 256 false)
  else s.emit (.memRead 0 0xFFF 5 (s.rd64 LEVAIN.STORE_BASE + 256 * h) 256 false)

/-- A context at home fetches now, or waits for a bench slot (R261) or a pending entry (R263). `again`: it waited
before. -/
def tryFetch (s : State) (h : Nat) (again : Bool) : State :=
  let s := keepFree s
  match Tbl.get? s.ctxs h with
  | none => s
  | some c =>
    if benchFree s = 0 then
      if again then s else
        ((updCtx s h (fun c => { c with waitSlot := true })).bumpStat LEVAIN.STALL 0).istat blkLEVAIN 0 3
    else if 4096 ≤ pendUsed s then
      if again then s else (updCtx s h (fun c => { c with waitSlot := true })).bumpStat LEVAIN.PEND_WAIT 0
    else if c.state = 3 then updCtx s h (fun c => { c with waitSlot := false })
    else startFetch s h c

/-- Contexts that wait for room get it while there is any. -/
def serveWaiting (s : State) : State :=
  (s.ctxs.filter (fun p => p.2.waitSlot)).foldl (fun s p => tryFetch s p.1 true) s

/-- A demand for a context (R260, R263, R264): true when it is resident. -/
def demand (s : State) (h : Nat) : State × Bool :=
  match Tbl.get? s.ctxs h with
  | none => (s, true)
  | some c =>
    match c.state with
    | 3 => if c.waitSlot || c.lock.isSome then (s, false) else (updCtx s h (fun c => { c with ref := true }), true)
    | 1 => (if c.waitSlot then s else tryFetch s h false, false)
    | 4 => (updCtx s h (fun c => { c with demand := true }), false)
    | 5 => (s.bumpErr blkLEVAIN 0 5, false)
    | _ => (s, false)

/-! ## Creation and release (R254, R258, R264) -/

/-- The lowest free handle below STORE_SLOTS that is a multiple of `align` with `align` handles free (log 20). -/
def findHandle (used : List Nat) (align limit : Nat) : Nat → Nat → Option Nat
  | 0, _ => none
  | f + 1, h =>
    if limit < h + align then none
    else if used.any (fun u => h ≤ u && u < h + align) then findHandle used align limit f (h + align)
    else some h

/-- The region of a port has a free host slot (R265). -/
def hostSlot (s : State) (port : Nat) : Option Nat :=
  let f := funcOf s port 0
  let hp := hportOf s port
  if f.hbValid && !hp.hbDrain then
    (List.range (hp.hbSlots.length + 1)).find? (fun n => !hp.hbSlots.contains n && n < 16 * f.hbPages.toNat)
  else none

/-- Create `n` contexts of one object (R254, R258): the base handle, or none with 0x08 and PG_ERRCNT6. -/
def createCtx (s : State) (n unit x cls port : Nat) : State × Option Nat :=
  let fail := (s.bumpErr blkLEVAIN 0 6, none)
  let q := quotaOf s x
  match findHandle (s.ctxs.map Prod.fst) n (s.rd LEVAIN.STORE_SLOTS) (s.ctxs.length + 1) 0 with
  | none => fail
  | some h =>
    if cls = 0 ∧ (q.2 < pinHeld s x + n ∨ s.rd LEVAIN.PIN_MAX < pinTotal s + n) then fail
    else
      let store := storeHeld s x + n ≤ q.1
      let slot := if store then none else if unit = 1 ∧ cls = 2 then hostSlot s port else none
      if !store ∧ slot.isNone then fail
      else
        let s := match slot with
          | some n => setHport s port { hportOf s port with hbSlots := setAdd (hportOf s port).hbSlots n }
          | none => s
        let s := keepFree s
        let full := benchFree s = 0
        let c : Ctx := { unit := unit, cls := cls, hb := slot.isSome, owner := x, port := port,
                         hbSlot := slot.getD 0, waitSlot := full }
        let s := (List.range n).foldl (fun (s : State) (i : Nat) => setCtx s (h + i) c) s
        (if full then (s.bumpStat LEVAIN.STALL 0).istat blkLEVAIN 0 3 else s, some h)

/-- A handle is free again (R254): its doorbells are discarded and counted (R270), its parked packets dropped, its
host slot released, the release mirrored (R389). -/
def freeHandle (s : State) (h : Nat) : State :=
  match Tbl.get? s.ctxs h with
  | none => s
  | some c =>
    let s := dropParked s h
    let s := c.bells.foldl (fun (s : State) b => s.bumpErr blkQMGR (queuePort b.1) 4) s
    let s := freeSlot s c
    let s := { s with ctxs := Tbl.del s.ctxs h }
    serveWaiting (if portPaired s c.port then mirrorRec s 0x05 [dw h] else s)

/-- Destroy (R264): at once, or when the transfer that runs ends. -/
def destroyCtx (s : State) (h : Nat) : State :=
  match Tbl.get? s.ctxs h with
  | none => s
  | some c => if c.state = 2 ∨ c.state = 4 then updCtx s h (fun c => { c with destroyDue := true }) else freeHandle s h

/-- A context becomes store-held, above quota if need be (R264 to R266). -/
def toStore (s : State) (h : Nat) (ovf : Bool) : State :=
  match Tbl.get? s.ctxs h with
  | none => s
  | some c =>
    let s := freeSlot s c
    let c := { c with hb := false, hbSlot := 0, dirty := false }
    let s := storeWrite (setCtx s h c) h c
    if ovf then s.bumpStat LEVAIN.OVER 0 else s

/-- Quarantine takes effect (R264, R266): QUAR set, the home copy up to date, packets dropped. -/
def quarantineNow (s : State) (h : Nat) : State :=
  let s := dropParked s h
  let s := updCtx s h (fun c => { c with quar := true, quarDue := false, state := 5, demand := false, waitSlot := false })
  match Tbl.get? s.ctxs h with
  | some c => evictEnds (storeWrite (updCtx s h (fun c => { c with dirty := false })) h c) h 0x40
  | none => s

/-- A removal quarantines a context (R264, R266, R270). -/
def quarantineCtx (s : State) (h : Nat) : State :=
  match Tbl.get? s.ctxs h with
  | none => s
  | some c =>
    let s := updCtx s h (fun c => { c with bells := [] })
    match c.state with
    | 3 => quarantineNow (if c.hb then toStore (s.bumpStat LEVAIN.WB 0) h false else s.bumpStat LEVAIN.WB 0) h
    | 1 => quarantineNow (if c.hb then rebuildRing (toStore s h true) h else s) h
    | 2 => if c.hb then
        quarantineNow (rebuildRing (toStore ((s.bumpErr blkLEVAIN 0 2).istat blkLEVAIN 0 1) h true) h) h
      else updCtx s h (fun c => { c with quarDue := true })
    | 4 => if c.hb then quarantineNow (toStore ((s.bumpErr blkLEVAIN 0 2).istat blkLEVAIN 0 1) h true) h
      else updCtx s h (fun c => { c with quarDue := true })
    | _ => s

/-- A reset takes the host copy of a host-backed context (R266): written to the store, or kept by its anchor. -/
def loseHost (s : State) (h : Nat) : State :=
  match Tbl.get? s.ctxs h with
  | none => s
  | some c =>
    if !c.hb then s
    else
      match c.state with
      | 3 => toStore s h false
      | 2 => updCtx (rebuildRing (toStore s h true) h) h (fun c => { c with state := 3 })
      | 4 => updCtx (toStore s h true) h (fun c => { c with state := 1 })
      | _ => rebuildRing (toStore s h true) h

/-- The registration of a port's host-backing region goes (R266), every host-backed context of the port with it. -/
def dropRegion (s : State) (port : Nat) : State :=
  let s := (s.ctxs.filter (fun p => p.2.hb && p.2.port == port)).foldl (fun s p => loseHost s p.1) s
  let s := setFunc s port 0 { funcOf s port 0 with hbValid := false }
  setHport s port { hportOf s port with hbDrain := false, hbSlots := [] }

/-- A drain of a host-backing region ends when nothing is host-backed any more (R265). -/
def drainDone (s : State) (port : Nat) : State :=
  if (hportOf s port).hbDrain && !(s.ctxs.any (fun p => p.2.hb && p.2.port == port)) then
    let s := setFunc s port 0 { funcOf s port 0 with hbValid := false }
    setHport s port { hportOf s port with hbDrain := false, hbSlots := [] }
  else s

end Sys2Proof.Machine
end

