-- ==== Sys2Proof/Machine/Receive.lean ====
section
/-! DEFINITION. Doorbells of ring queues, frames into receive buffers, and the release of what waited for a context (R113,
R124, R125, R267, R268). -/

namespace Sys2Proof.Machine

/-- The pipeline that owns a host port (R76). -/
def pipeOfPort (s : State) (port : Nat) : Nat := s.rd OCTET.PIPE_MAP (octetOfPort port) % 32

/-! ## Placement (R124, R125) -/

/-- Receive buffers read and not used. -/
def Queue.buffers (q : Queue) : List WorkItem := q.items.filter (fun i => i.fate.isNone)

/-- Bytes that the receive buffers read can hold. -/
def Queue.room (q : Queue) : Nat := (q.buffers.map (fun i => entLen (i.entries.headD []))).sum

/-- The writes of a frame into consecutive buffers: index, buffer address, bytes. -/
def fillPlan : List WorkItem → List Byte → List (BitVec 16 × Nat × List Byte)
  | [], _ => []
  | _, [] => []
  | it :: t, bs =>
    let e := it.entries.headD []
    (it.idx, qw e 1, bs.take (entLen e)) :: fillPlan t (bs.drop (entLen e))

/-- Qword 1 bits 31:8 of a receive completion (R115): SEG_FIRST, SEG_LAST, L3_OK, L4_OK, TS_VALID. -/
def rxFlags (f : RxFrame) (first last : Bool) : Nat :=
  b2n first + b2n last * 2 + b2n f.l3ok * 4 + b2n f.l4ok * 8 + b2n f.tsOk * 32

/-- Place a frame into the buffers of a queue that has room for it; each entry completes (R124). -/
def fillFrame (s : State) (k : Nat) (q : Queue) (f : RxFrame) : State :=
  let plan := fillPlan q.buffers f.bytes
  let n := plan.length
  let s := plan.foldl (fun (s : State) p => s.hostPayload (queuePort k) (queueSel k) p.2.1 p.2.2) s
  let s := (plan.zipIdx).foldl (fun s p =>
    updItem s k p.1.1 (fun i => { i with fate := some (0, p.1.2.2.length), portStamp := true, stamp := f.stamp,
                                         trace := f.trace, aux := f.hash, ptype := f.ptype,
                                         flags := rxFlags f (p.2 == 0) (p.2 + 1 == n) })) s
  sendFate (flushItems s k) f.src 0 f.bytes.length

/-- A frame for a queue whose context is resident: placed, or it waits with a deadline RX_HOLD after its stamp; when the
calendar refuses, it is dropped (R125). A receive queue that is not ACTIVE and has no room makes it wait likewise. -/
def placeNow (s : State) (k : Nat) (f : RxFrame) : State :=
  match Tbl.get? s.queues k with
  | none => sendFate s f.src 0x09 0
  | some q =>
    let port := queuePort k
    if q.rxWait.isEmpty && f.bytes.length ≤ q.room then fillFrame s k q f
    else
      let at_ := f.stamp + s.rd QMGR.RX_HOLD port * 1000
      let (s, ok) := s.schedule (pipeOfPort s port) at_ blkQMGR 1 k
      if ok then setQueue s k { q with rxWait := q.rxWait ++ [{ f with deadline := some at_ }] }
      else sendFate (s.bumpErr blkQMGR port 6) f.src 0x09 0

/-- Waiting frames are placed, oldest first, while the buffers read can hold them (R125). -/
def placeWaiting (k : Nat) : Nat → State → State
  | 0, s => s
  | n + 1, s =>
    match Tbl.get? s.queues k with
    | none => s
    | some q =>
      match q.rxWait with
      | [] => s
      | f :: t =>
        if f.bytes.length ≤ q.room then
          let s := match f.deadline, s.anyEvent blkQMGR 1 k with
            | some d, some (sl, _) => s.calTake sl ⟨d, blkQMGR, 1, k⟩
            | _, _ => s
          let q := { q with rxWait := t }
          placeWaiting k n (fillFrame (setQueue s k q) k q f)
        else s

/-- The RX_HOLD deadline of a queue's oldest waiting frame fires (R125): dropped, counted, charged, reported. -/
def rxHoldFire (s : State) (k : Nat) : State :=
  match Tbl.get? s.queues k with
  | none => s
  | some q =>
    match q.rxWait with
    | [] => s
    | f :: t =>
      let port := queuePort k
      let s := setQueue s k { q with rxWait := t }
      let s := (s.bumpStat QMGR.RXHOLD_DROP port).istat blkQMGR port 2
      let s := charge s (pipeOfPort s port) q.owner 37 1 s.ns
      let s := queueEvent s k 0x04 q.c.toNat 0
      placeWaiting k t.length (sendFate s f.src 0x09 0)

/-- A frame for a receive queue (R124, R260, R269): placed when its context is resident and nothing is parked for it;
otherwise parked on the pipeline; dropped for a context quarantined or lost. -/
def placeFrame (s : State) (pipe k : Nat) (f : RxFrame) : State :=
  match Tbl.get? s.queues k with
  | none => sendFate s f.src 0x09 0
  | some q =>
    let (s, here) := demand s q.handle
    let c := Tbl.get? s.ctxs q.handle
    let busy := match c with | some c => !c.parked.isEmpty | none => false
    if here && !busy then placeNow s k f
    else
      match c with
      | none => sendFate s f.src 0x09 0
      | some c =>
        if c.state = 5 ∨ c.state = 6 then sendFate s f.src 0x09 0
        else
          let (s, ok) := parkRoom s q.handle pipe f.bytes.length
          if ok then updCtx s q.handle (fun c => { c with parked := c.parked ++ [(pipe, f, k)] })
          else sendFate s f.src 0x09 0

/-! ## Doorbells (R113, R268) -/

/-- A doorbell for a queue (R112, R113, R122, R267, R268): judged when the context is resident and none waits before
it, else held; discarded and counted for a queue that does not exist; discarded for a LOST ring. -/
def ringBell (s : State) (k : Nat) (value : Word) : State :=
  let s := s.bumpStat QMGR.DB (queuePort k)
  match Tbl.get? s.queues k with
  | none => s.bumpErr blkQMGR (queuePort k) 29
  | some q =>
    if q.state = 4 then s
    else
      let (s, here) := demand s q.handle
      match Tbl.get? s.ctxs q.handle with
      | none => judgeBell s k value
      | some c =>
        if here && c.bells.isEmpty then judgeBell s k value
        else if c.state = 6 then s
        else updCtx s q.handle (fun c => { c with bells := c.bells ++ [(k, value)] })

/-! ## Release (R267) -/

/-- A context is resident: its doorbells are judged, then its parked frames placed, each in arrival order; the ring
reads on. -/
def releaseRing (s : State) (h : Nat) : State :=
  match Tbl.get? s.ctxs h with
  | none => s
  | some c =>
    let s := updCtx s h (fun c => { c with bells := [], parked := [] })
    let s := if c.rparked.isEmpty then s.cancelAll blkLEVAIN 1 h else s
    let s := c.bells.foldl (fun s b => judgeBell s b.1 b.2) s
    let s := c.parked.foldl (fun s p => placeNow s p.2.2 p.2.1) s
    match queueOfHandle s h with
    | some (k, _) => pull s k
    | none => s

/-! ## Rows -/

/-- R113: DB_PROD of a queue is written. -/
def execDoorbell (port : Fin 128) (sel q : BitVec 12) (value : Word) (s : State) : Host.Outcome State Fault Refusal :=
  ok (barWrite port.val sel.toNat (fun s => ringBell s (qkey (.fn port sel q)) value) s)

/-- R133: PROV_DB rings a provider ring. -/
def execProvDb (who : Requester) (inst : Fin 128) (value : Word) (s : State) : Host.Outcome State Fault Refusal :=
  ok (pageWrite who blkQMGR inst.val
    (fun s => ringBell s (2 ^ 32 + inst.val * 4096 + bits value.toNat 27 16) (w32 (value.toNat % 65536))) s)

/-- R125: a waiting frame's deadline fires. -/
def execRxHoldExpiry (q : QRef) (s : State) : Host.Outcome State Fault Refusal :=
  ok (match s.anyEvent blkQMGR 1 (qkey q) with
    | some (n, e) => rxHoldFire (s.fireEvent n e) (qkey q)
    | none => s)

end Sys2Proof.Machine
end

