-- ==== Sys2Proof/Machine/Parse.lean ====
section
/-! DEFINITION. The native and the compatibility parser (R147 to R161). -/

namespace Sys2Proof.Machine

/-! ## Reading and writing bytes -/

/-- Bytes `n` from an offset. -/
def cut (bs : List Byte) (off n : Nat) : List Byte := (bs.drop off).take n

/-- A big-endian number in a frame. -/
def be (bs : List Byte) (off n : Nat) : Nat := beNat (cut bs off n)

/-- A field of `w` bits at a bit offset of a header at `base`, most significant bit first (R148). -/
def fieldAt (bs : List Byte) (base bitOff w : Nat) : Nat :=
  let n := (bitOff % 8 + w + 7) / 8
  be bs (base + bitOff / 8) n / 2 ^ (8 * n - bitOff % 8 - w) % 2 ^ w

/-- The bytes a field lies in: first offset and the offset after the last. -/
def fieldSpan (base bitOff w : Nat) : Nat × Nat :=
  (base + bitOff / 8, base + bitOff / 8 + (bitOff % 8 + w + 7) / 8)

/-- Bytes replaced from an offset on; the list keeps its length. -/
def overlay (v : List Byte) (off : Nat) (bs : List Byte) : List Byte :=
  (v.take off ++ bs ++ v.drop (off + bs.length)).take v.length

/-- The sum of the 16-bit words of a list of bytes, an odd last byte padded with 0. -/
def sum16 : List Byte → Nat
  | [] => 0
  | [a] => a.toNat * 256
  | a :: b :: t => a.toNat * 256 + b.toNat + sum16 t

/-- A one's-complement sum that is good: 0xFFFF. -/
def goodSum (bs : List Byte) : Bool := sum16 bs != 0 && sum16 bs % 65535 == 0

/-- The protocol behind IPv6 extension headers, from a next header and the offset behind it. -/
def v6Proto (bs : List Byte) : Nat → Nat → Nat → Nat
  | 0, nh, _ => nh
  | f + 1, nh, off =>
    if nh = 0 ∨ nh = 43 ∨ nh = 60 then v6Proto bs f (be bs off 1) (off + 8 * (be bs (off + 1) 1 + 1))
    else if nh = 44 then v6Proto bs f (be bs off 1) (off + 8)
    else nh

/-- The TCP or UDP checksum of a segment (R153): none when it is not checked. -/
def l4Check (bs : List Byte) (l3 : Option Nat) (off : Nat) : Option Bool :=
  match l3 with
  | none => none
  | some l3 =>
    let v := be bs l3 1 / 16
    let seg := if v = 4 then be bs (l3 + 2) 2 - (off - l3) else be bs (l3 + 4) 2 + 40 - (off - l3)
    let proto := if v = 4 then be bs (l3 + 9) 1 else v6Proto bs 8 (be bs (l3 + 6) 1) (l3 + 40)
    if (v ≠ 4 ∧ v ≠ 6) ∨ (proto ≠ 6 ∧ proto ≠ 17) then none
    else if seg < (if proto = 17 then 8 else 20) ∨ bs.length < off + seg then some false
    else if proto = 17 ∧ be bs (off + 6) 2 = 0 then none
    else
      let addrs := if v = 4 then cut bs (l3 + 12) 8 else cut bs (l3 + 8) 32
      some (goodSum (addrs ++ beBytes 2 proto ++ beBytes 4 seg ++ cut bs off seg))

/-! ## The walk's record -/

/-- A fragment point (R154, R162): first or later, the L3 header, the protocol and the ID. -/
structure FragPt where
  first : Bool
  l3    : Nat
  v6    : Bool
  proto : Nat
  id    : Nat
  deriving DecidableEq, Repr

/-- A walk as it goes: vector, last L3 or IL3 marker, L4 points to check, fragment point, L3 checksum found good. -/
structure Walk where
  pv    : List Byte := List.replicate 128 0
  l3    : Option Nat := none
  l4    : List (Option Nat × Nat) := []
  frag  : Option FragPt := none
  csum  : Bool := false
  nodes : Nat := 0
  last  : Nat := 0xFF
  deriving DecidableEq, Repr

/-- Put bytes of the frame into the vector. -/
def Walk.put (w : Walk) (dst : Nat) (bs : List Byte) : Walk := { w with pv := overlay w.pv dst bs }

/-- Set a layer marker, 1 L2 to 6 IL4 (R147, R148). -/
def Walk.mark (w : Walk) (m off : Nat) : Walk :=
  let w := if 1 ≤ m ∧ m ≤ 6 then w.put (2 * m - 2) (leBytes 2 (off % 1024 + 32768)) else w
  if m = 2 ∨ m = 5 then { w with l3 := some off } else w

/-- What a walk comes to. -/
structure Parsed where
  pv    : List Byte
  cause : Nat
  l4    : List Bool
  frag  : Option FragPt
  deriving DecidableEq, Repr

/-- FRAG of the WALK byte (R147, R154). -/
def fragCode : Option FragPt → Nat
  | none => 0
  | some f => if f.first then 1 else 2

/-- The end of a walk (R147): bytes 12 to 15 of the vector, the L4 checksums at the end of the frame. -/
def Walk.done (w : Walk) (bs : List Byte) (cause prof : Nat) (compat : Bool) : Parsed :=
  { pv := overlay w.pv 12 (leBytes 1 w.last ++ leBytes 1 (prof + 8 * b2n compat) ++
            leBytes 1 (cause + b2n (cause != 0) * 16 + b2n w.csum * 32) ++ leBytes 1 (fragCode w.frag + 8 * w.nodes)),
    cause := cause, l4 := w.l4.filterMap (fun p => l4Check bs p.1 p.2), frag := w.frag }

/-! ## Native nodes (R148 to R155) -/

/-- The valid extractions of a node: SRC_OFF, bytes, DST (R149). -/
def extracts (n : List Dword) : List (Nat × Nat × Nat) :=
  (List.range 8).filterMap (fun i =>
    let e := qw n (3 + i / 2) / 2 ^ (32 * (i % 2))
    if bit e 20 then some (bits e 8 0, bits e 12 9 + 1, bits e 19 13) else none)

def nodeTerminal (n : List Dword) : Bool := bit (qw n 0) 1
def nodeCsum (n : List Dword) : Bool := bit (qw n 0) 22
def nodeFrag (n : List Dword) : Nat := qb n 0 25 24

/-- The node's advance matters: it goes on, or its IPv4 checksum covers it (log 21). -/
def needsAdv (n : List Dword) : Bool := !nodeTerminal n || nodeCsum n

/-- The advance (R148). -/
def nodeAdv (bs : List Byte) (off : Nat) (n : List Dword) : Nat :=
  if bit (qw n 0) 26 then
    fieldAt bs off (qb n 1 11 0) (qb n 1 15 12 + 1) * qb n 1 19 16 + qb n 1 29 20
  else qb n 1 29 20

/-- The bytes a node reads (R155). -/
def nodeReads (bs : List Byte) (off : Nat) (n : List Dword) : List (Nat × Nat) :=
  let len := fieldSpan off (qb n 1 11 0) (qb n 1 15 12 + 1)
  let computed := needsAdv n && bit (qw n 0) 26
  (extracts n).map (fun e => (off + e.1, off + e.1 + e.2.1)) ++
    (if nodeTerminal n then [] else [fieldSpan off (qb n 1 43 32) (qb n 1 47 44 + 1)]) ++
    (if computed then [len] else []) ++
    (if bit (qw n 2) 15 then [fieldSpan off (qb n 2 27 16) (qb n 2 31 28 + 1)] else []) ++
    (if nodeFrag n = 1 then [(off + 4, off + 10)] else if nodeFrag n = 2 then [(off, off + 8)] else []) ++
    (if nodeCsum n && (!computed || (len.2 ≤ 512 && len.2 ≤ bs.length)) then [(off, off + nodeAdv bs off n)] else [])

/-- The fragment point of a node (R154): `l3` is the marker of the L3 or IL3 header it belongs to. -/
def nodeFragPt (bs : List Byte) (off : Nat) (l3 : Nat) (n : List Dword) : Option FragPt :=
  match nodeFrag n with
  | 1 =>
    let w := be bs (off + 6) 2
    if w % 8192 ≠ 0 then some ⟨false, l3, false, be bs (off + 9) 1, be bs (off + 4) 2⟩
    else if bit w 13 then some ⟨true, l3, false, be bs (off + 9) 1, be bs (off + 4) 2⟩ else none
  | 2 =>
    let w := be bs (off + 2) 2
    if w / 8 ≠ 0 then some ⟨false, l3, true, be bs off 1, be bs (off + 4) 4⟩
    else if bit w 0 then some ⟨true, l3, true, be bs off 1, be bs (off + 4) 4⟩ else none
  | _ => none

/-- The match table (R150): the first valid entry that hits. -/
def nodeMatch (bs : List Byte) (off : Nat) (n : List Dword) : Option Nat :=
  let sel := fieldAt bs off (qb n 1 43 32) (qb n 1 47 44 + 1) &&& qb n 1 63 48
  ((List.range 16).map (fun i => qw n (8 + i))).find? (fun m => bit m 40 && (sel &&& bits m 31 16) == bits m 15 0)

/-- Where the walk goes from a node: a cause, or nowhere, or the next node (R150, R155). -/
def nodeNext (bs : List Byte) (off : Nat) (n : List Dword) : Nat × Option Nat :=
  match nodeMatch bs off n with
  | some m => if bit m 41 then (0, none) else (0, some (bits m 39 32))
  | none =>
    match qb n 0 18 17 with
    | 0 => (0x7, none)
    | 1 => (0, some (qb n 0 15 8))
    | _ => (0, none)

/-- The checks of a node in the order of R155 after the depth: 0, or the first cause; with it the next node. -/
def nodeJudge (bs : List Byte) (off : Nat) (n : List Dword) (frag : Option FragPt) : Nat × Option Nat :=
  let reads := nodeReads bs off n
  let adv := nodeAdv bs off n
  let total := fieldAt bs off (qb n 2 27 16) (qb n 2 31 28 + 1) + qb n 2 41 32
  if reads.any (fun r => decide (512 < r.2)) then (0x4, none)
  else if reads.any (fun r => decide (bs.length < r.2)) then (0x1, none)
  else if (bit (qw n 0) 26 && needsAdv n && adv < qb n 2 9 0) ||
      (bit (qw n 2) 15 && (bs.length - off < total || (!nodeTerminal n && total < adv))) then (0x5, none)
  else if nodeCsum n && !goodSum (cut bs off adv) then (0x6, none)
  else if nodeTerminal n || (match frag with | some f => !f.first | none => false) then (0, none)
  else
    match nodeNext bs off n with
    | (0, some next) =>
      if 512 < off + adv then (0x4, none)
      else if bs.length < off + adv then (0x2, none)
      else (0, some next)
    | r => r

/-- What a node that passes its checks leaves (R151). -/
def nodeApply (bs : List Byte) (off : Nat) (n : List Dword) (frag : Option FragPt) (w : Walk) : Walk :=
  let w := (extracts n).foldl (fun w e => w.put e.2.2 (cut bs (off + e.1) e.2.1)) w
  let w := w.mark (qb n 0 21 19) off
  let w := if nodeCsum n then { w with csum := true } else w
  let w := if bit (qw n 0) 23 then { w with l4 := w.l4 ++ [(w.l3, off)] } else w
  if frag.isSome then { w with frag := frag } else w

/-- The walk over a bank of nodes (R151, R152), `fuel` nodes at most. -/
def nativeWalk (bank : Nat → List Dword) (bs : List Byte) (prof : Nat) : Nat → Nat → Nat → Walk → Parsed
  | 0, _, _, w => w.done bs 0x3 prof false
  | f + 1, node, off, w =>
    let n := bank node
    let l3 := if qb n 0 21 19 = 2 ∨ qb n 0 21 19 = 5 then off else w.l3.getD off
    let frag := nodeFragPt bs off l3 n
    let seen := { w with nodes := w.nodes + 1, last := node }
    match nodeJudge bs off n frag with
    | (0, some next) => nativeWalk bank bs prof f next (off + nodeAdv bs off n) (nodeApply bs off n frag seen)
    | (0, none) => (nodeApply bs off n frag seen).done bs 0 prof false
    | (c, _) => seen.done bs c prof false

/-! ## The compatibility parser (R160, R161) -/

/-- An IPv4 address in the mapped form (R161). -/
def mapped (a : List Byte) : List Byte := List.replicate 10 0 ++ [0xFF, 0xFF] ++ a

/-- The checks of an IPv4 header (R160): TRUNCATED, LEN_INCONSISTENT, IPV4_CSUM, or 0. -/
def v4Cause (bs : List Byte) (off : Nat) : Nat :=
  let ihl := be bs off 1 % 16 * 4
  if bs.length < off + 20 then 0x1
  else if ihl < 20 then 0x5
  else if bs.length < off + ihl then 0x1
  else if bs.length < off + be bs (off + 2) 2 then 0x5
  else if !goodSum (cut bs off ihl) then 0x6
  else 0

/-- The fragment point of an IPv4 header. -/
def v4Frag (bs : List Byte) (off : Nat) : Option FragPt :=
  let w := be bs (off + 6) 2
  if w % 8192 ≠ 0 then some ⟨false, off, false, be bs (off + 9) 1, be bs (off + 4) 2⟩
  else if bit w 13 then some ⟨true, off, false, be bs (off + 9) 1, be bs (off + 4) 2⟩ else none

/-- UDP or TCP at an offset (R160): the cause, and the walk with the layer set, ports at `dst` of the vector. -/
def compatL4 (bs : List Byte) (proto off m dst : Nat) (w : Walk) : Nat × Walk :=
  if bs.length < off + (if proto = 17 then 8 else 20) then (0x1, w)
  else
    let w := (w.mark m off).put dst (cut bs off 4)
    let w := if proto = 6 ∧ m = 3 then w.put 96 (cut bs (off + 13) 1) else w
    (0, { w with l4 := w.l4 ++ [(w.l3, off)] })

/-- The inner headers of a tunnel (R160). -/
def compatInner (bs : List Byte) (off : Nat) (w : Walk) : Nat × Walk :=
  if bs.length < off + 14 then (0x1, w)
  else
    let tag := be bs (off + 12) 2 = 0x8100
    let at_ := if tag then off + 16 else off + 12
    if bs.length < at_ + 2 then (0x1, w)
    else
      let w := ((w.mark 4 off).put 102 (cut bs off 6)).put 108 (cut bs at_ 2)
      let l3 := at_ + 2
      match be bs at_ 2 with
      | 0x0800 =>
        match v4Cause bs l3 with
        | 0 =>
          let frag := v4Frag bs l3
          let w := (((w.mark 5 l3).put 110 (cut bs (l3 + 12) 8)).put 118 (cut bs (l3 + 9) 1))
          let w := { w with csum := true, frag := if frag.isSome then frag else w.frag }
          let proto := be bs (l3 + 9) 1
          if (match frag with | some f => !f.first | none => false) || (proto != 17 && proto != 6) then (0, w)
          else compatL4 bs proto (l3 + be bs l3 1 % 16 * 4) 6 120 w
        | c => (c, w)
      | 0x86DD => (0, w.mark 5 l3)
      | _ => (0, w)

/-- UDP, TCP and the tunnels behind UDP (R160). -/
def compatOuterL4 (bs : List Byte) (proto off : Nat) (w : Walk) : Nat × Walk :=
  if proto ≠ 17 ∧ proto ≠ 6 then (0, w)
  else
    match compatL4 bs proto off 3 92 w with
    | (0, w) =>
      let port := be bs (off + 2) 2
      let vxlan := port = 4789
      if proto = 17 ∧ (vxlan ∨ port = 6081) then
        if bs.length < off + 16 then (0x1, w)
        else if ¬ vxlan ∧ be bs (off + 8) 1 % 64 ≠ 0 then (0, w)
        else compatInner bs (off + 16) ((w.put 97 (leBytes 1 (if vxlan then 1 else 2))).put 98 (cut bs (off + 12) 3))
      else (0, w)
    | r => r

/-- IPv4 (R160, R161). -/
def compatV4 (bs : List Byte) (off : Nat) (w : Walk) : Nat × Walk :=
  match v4Cause bs off with
  | 0 =>
    let frag := v4Frag bs off
    let w := (w.mark 2 off).put 50 (mapped (cut bs (off + 12) 4) ++ mapped (cut bs (off + 16) 4))
    let w := (w.put 82 (cut bs (off + 9) 1 ++ cut bs (off + 1) 1 ++ cut bs (off + 8) 1)).put 88 (cut bs (off + 4) 4)
    let w := { w with csum := true, frag := frag }
    if (match frag with | some f => !f.first | none => false) then (0, w)
    else compatOuterL4 bs (be bs (off + 9) 1) (off + be bs off 1 % 16 * 4) w
  | c => (c, w)

/-- The extension headers behind IPv6, `n` met so far (R160): a third ends the walk before L4. -/
def compatExt (bs : List Byte) (l3 : Nat) : Nat → Nat → Nat → Nat → Walk → Nat × Walk
  | 0, _, _, _, w => (0, w)
  | f + 1, n, nh, off, w =>
    if nh = 0 ∨ nh = 43 ∨ nh = 44 ∨ nh = 60 then
      if n = 2 then (0, w)
      else if bs.length < off + 8 then (0x1, w)
      else
        let next := be bs off 1
        let w := w.put 82 (cut bs off 1)
        if nh = 44 then
          let v := be bs (off + 2) 2
          let w := (w.put 86 (cut bs (off + 4) 4)).put 90 (cut bs (off + 2) 2)
          if v / 8 ≠ 0 then (0, { w with frag := some ⟨false, l3, true, next, be bs (off + 4) 4⟩ })
          else
            let w := if bit v 0 then { w with frag := some ⟨true, l3, true, next, be bs (off + 4) 4⟩ } else w
            compatExt bs l3 f (n + 1) next (off + 8) w
        else
          let len := 8 * (be bs (off + 1) 1 + 1)
          if bs.length < off + len then (0x1, w) else compatExt bs l3 f (n + 1) next (off + len) w
    else compatOuterL4 bs nh off w

/-- IPv6 (R160, R161). -/
def compatV6 (bs : List Byte) (off : Nat) (w : Walk) : Nat × Walk :=
  if bs.length < off + 40 then (0x1, w)
  else
    let w := (w.mark 2 off).put 50 (cut bs (off + 8) 32)
    let w := w.put 82 (cut bs (off + 6) 1 ++ leBytes 1 (be bs off 2 / 16 % 256) ++ cut bs (off + 7) 1)
    compatExt bs off 4 0 (be bs (off + 6) 1) (off + 40) w

/-- MPLS labels, `n` met so far (R160): a fifth ends the walk. -/
def compatMpls (bs : List Byte) : Nat → Nat → Nat → Walk → Nat × Walk
  | 0, _, _, w => (0, w)
  | f + 1, n, off, w =>
    if n = 4 then (0, w)
    else if bs.length < off + 4 then (0x1, w)
    else
      let w := w.put (34 + 4 * n) (cut bs off 4)
      if bit (be bs (off + 2) 1) 0 then
        match be bs (off + 4) 1 / 16 with
        | 4 => compatV4 bs (off + 4) w
        | 6 => compatV6 bs (off + 4) w
        | _ => (0, w)
      else compatMpls bs f (n + 1) (off + 4) w

/-- ARP (R160, R161): only Ethernet/IPv4 ARP is extracted. -/
def compatArp (bs : List Byte) (off : Nat) (w : Walk) : Nat × Walk :=
  if bs.length < off + 8 then (0x1, w)
  else if be bs off 6 = 0x000108000604 then
    if bs.length < off + 28 then (0x1, w)
    else (0, (((w.mark 2 off).put 50 (mapped (cut bs (off + 14) 4))).put 66 (mapped (cut bs (off + 24) 4))).put 82
                (cut bs (off + 7) 1))
  else (0, w.mark 2 off)

/-- What follows the final EtherType at `at_`. -/
def compatL3 (bs : List Byte) (at_ : Nat) (w : Walk) : Nat × Walk :=
  let w := w.put 32 (cut bs at_ 2)
  match be bs at_ 2 with
  | 0x0806 => compatArp bs (at_ + 2) w
  | 0x8847 => compatMpls bs 5 0 (at_ + 2) w
  | 0x8848 => compatMpls bs 5 0 (at_ + 2) w
  | 0x0800 => compatV4 bs (at_ + 2) w
  | 0x86DD => compatV6 bs (at_ + 2) w
  | _ => (0, w)

/-- Ethernet and up to two tags (R160). -/
def compatEth (bs : List Byte) (w : Walk) : Nat × Walk :=
  if bs.length < 14 then (0x1, w)
  else
    let w := (w.mark 1 0).put 16 (cut bs 0 12)
    let t := be bs 12 2
    if t = 0x88A8 ∨ t = 0x8100 then
      if bs.length < 18 then (0x1, w)
      else
        let w := w.put 28 (cut bs 14 2)
        if be bs 16 2 = 0x8100 then
          if bs.length < 22 then (0x1, w)
          else compatL3 bs 20 (w.put 30 (cut bs 18 2))
        else compatL3 bs 16 w
    else compatL3 bs 12 w

/-- The compatibility parser: LAST_NODE 0xFF, no nodes visited (R147, log 21). -/
def compatWalk (bs : List Byte) (prof : Nat) : Parsed :=
  let r := compatEth bs {}
  r.2.done bs r.1 prof true

/-! ## Profiles of ports (R148, R158, R159) -/

/-- A node of a bank. -/
def nodeKey (pipe prof bank node : Nat) : Nat := ((pipe * 8 + prof) * 2 + bank) * 256 + node
def nodeAt (s : State) (pipe prof bank node : Nat) : List Dword :=
  padQ (Tbl.getD s.nodes (nodeKey pipe prof bank node) []) 24

/-- The bank that walks use. -/
def activeBank (s : State) (pipe prof : Nat) : Nat := b2n (s.banks.contains (pipe * 8 + prof))

/-- PORT_PROF of a port ID or vport: profile in bits 2:0, COMPAT bit 3; reset profile 0 with COMPAT (R159). -/
def profOf (s : State) (pipe : Nat) (vport : Bool) (id : Nat) : Nat :=
  Tbl.getD s.portProf ((pipe * 2 + b2n vport) * 1024 + id) 8

/-- The walk of a packet in its ingress pipeline. -/
def parse (s : State) (pipe prof : Nat) (bs : List Byte) : Parsed :=
  if bit prof 3 then compatWalk bs (prof % 8)
  else nativeWalk (nodeAt s pipe (prof % 8) (activeBank s pipe (prof % 8))) bs (prof % 8) 24
        (s.rd PARSE.PROF_CFG pipe (prof % 8) % 256) 0 {}

/-! ## PARSE commands (R157, R158, R165) -/

/-- Bits of a node's qword that are reserved (R148 to R150). -/
def nodeRsvd (i : Nat) : Nat :=
  match i with
  | 0 => 0xFFFFFFFFF80100FC
  | 1 => 0x00000000C0000000
  | 2 => 0xFFFFFC0000007C00
  | 3 => 0xFFE00000FFE00000
  | 4 => 0xFFE00000FFE00000
  | 5 => 0xFFE00000FFE00000
  | 6 => 0xFFE00000FFE00000
  | 7 => 0xFFFFFFFFFFFFFFFF
  | _ => 0xFFFFFC0000000000

/-- R157: NODE_WRITE writes a chunk of a node into the shadow bank. -/
def cmdNodeWrite (c : CmdCtx) (s : State) : CmdRes :=
  ckArgs c s 0xFF07 0x3 <|
    let ch := c.a1 % 4
    let prof := c.a0 % 8
    let node := bits c.a0 15 8
    if (List.range 8).any (fun i => ch < 3 && qw c.d i &&& nodeRsvd (8 * ch + i) != 0) then .fail s 0x03
    else if ch = 3 then .fail s 0x02
    else
      let bank := 1 - activeBank s c.inst prof
      let old := nodeAt s c.inst prof bank node
      let new := old.take (8 * ch) ++ c.d ++ old.drop (8 * ch + 8)
      .done { s with nodes := Tbl.put s.nodes (nodeKey c.inst prof bank node) new }

/-- R165: NODE_READ returns a chunk of a shadow or active node. -/
def cmdNodeRead (c : CmdCtx) (s : State) : CmdRes :=
  ckArgs c s 0xFF07 0x13 <|
    let prof := c.a0 % 8
    let bank := if bit c.a1 4 then activeBank s c.inst prof else 1 - activeBank s c.inst prof
    if c.a1 % 4 = 3 then .fail s 0x02
    else .data s (((nodeAt s c.inst prof bank (bits c.a0 15 8)).drop (8 * (c.a1 % 4))).take 8)

/-- The matches of a node that are valid, by index. -/
def matches_ (n : List Dword) : List (Nat × Nat) :=
  ((List.range 16).map (fun i => (i, qw n (8 + i)))).filter (fun m => bit m.2 40)

/-- The checks of R157, in the order of its table, each over the VALID nodes in ascending number: the result code, the
node and the entry. -/
def graphFault (valid : Nat → Bool) (start : Nat) (nodes : List (Nat × List Dword)) : Option (Nat × Nat × Nat) :=
  let next := fun (n : List Dword) =>
    if qb n 0 18 17 = 1 ∧ !nodeTerminal n ∧ !valid (qb n 0 15 8) then some 0
    else ((matches_ n).find? (fun m => !valid (bits m.2 39 32))).map (·.1)
  let ext := fun (n : List Dword) =>
    (List.range 8).find? (fun i =>
      let e := qw n (3 + i / 2) / 2 ^ (32 * (i % 2))
      bit e 20 && (bits e 19 13 < 16 || 128 < bits e 19 13 + bits e 12 9 + 1 || 512 < bits e 8 0 + bits e 12 9 + 1))
  let mat := fun (n : List Dword) =>
    ((matches_ n).find? (fun m => bits m.2 15 0 &&& bits m.2 31 16 != bits m.2 15 0)).map (·.1)
  let adv := fun (n : List Dword) => if 512 < qb n 1 29 20 ∨ 512 < qb n 2 9 0 then some 0 else none
  let def_ := fun (n : List Dword) => if qb n 0 18 17 = 3 ∨ qb n 0 21 19 = 7 then some 0 else none
  let find := fun (code : Nat) (p : List Dword → Option Nat) =>
    nodes.findSome? (fun n => (p n.2).map (fun e => (code, n.1, e)))
  if !valid start then some (0x40, start, 0)
  else (find 0x40 next).or ((find 0x41 ext).or ((find 0x42 mat).or ((find 0x44 adv).or (find 0x45 def_))))

/-- R157, R158: PROF_COMMIT checks the shadow graph, exchanges the banks and waits for the copy back. -/
def cmdProfCommit (c : CmdCtx) (s : State) : CmdRes :=
  ckArgs c s 0x7 0xFF <|
    let prof := c.a0 % 8
    let start := c.a1 % 256
    let bank := 1 - activeBank s c.inst prof
    let valid := fun (n : Nat) => bit (qw (nodeAt s c.inst prof bank n) 0) 0
    let nodes := ((List.range 256).map (fun n => (n, nodeAt s c.inst prof bank n))).filter (fun n => bit (qw n.2 0) 0)
    match graphFault valid start nodes with
    | some (code, node, e) =>
      { res := code, ret := some [dw (node + 256 * e)], st := s.bumpErr blkPARSE c.inst 1 }
    | none =>
      let k := c.inst * 8 + prof
      let s := { s with banks := if s.banks.contains k then setDel s.banks k else setAdd s.banks k }
      .later (s.wr PARSE.PROF_CFG c.inst (s.rd PARSE.PROF_CFG c.inst prof / 256 * 256 + start) prof)

/-- The nodes of a profile's other bank become those of its active bank (R158). -/
def copyBank (s : State) (pipe prof : Nat) : State :=
  let a := activeBank s pipe prof
  (List.range 256).foldl (fun (s : State) (n : Nat) =>
    match Tbl.get? s.nodes (nodeKey pipe prof a n) with
    | some v => { s with nodes := Tbl.put s.nodes (nodeKey pipe prof (1 - a) n) v }
    | none => { s with nodes := Tbl.del s.nodes (nodeKey pipe prof (1 - a) n) }) s

/-- R158: the last walk on the old graph has ended: the new active bank is copied into the shadow bank, LOADED is set,
the command ends. -/
def profCopyBack (pipe prof : Nat) (s : State) : State :=
  match waitingCmd s blkPARSE pipe 0x03 with
  | none => s
  | some r =>
    if r.arg0.toNat % 8 ≠ prof then s
    else
      let s := copyBank s pipe prof
      let s := s.wr PARSE.PROF_CFG pipe (s.rd PARSE.PROF_CFG pipe prof ||| 2 ^ 31) prof
      endWaiting s blkPARSE pipe 0x03 0

/-- R159: PORT_PROF; a profile that is not LOADED is refused while COMPAT is clear. -/
def cmdPortProf (c : CmdCtx) (s : State) : CmdRes :=
  ckArgs c s 0x13FF 0xF <|
    if !bit c.a1 3 && !bit (s.rd PARSE.PROF_CFG c.inst (c.a1 % 8)) 31 then .fail (s.bumpErr blkPARSE c.inst 2) 0x43
    else .done { s with portProf := Tbl.put s.portProf ((c.inst * 2 + b2n (bit c.a0 12)) * 1024 + c.a0 % 1024) (c.a1 % 16) }

/-- R159: what PORT_PROF set for a port. -/
def cmdPortQuery (c : CmdCtx) (s : State) : CmdRes :=
  ckArgs c s 0x13FF 0xFFFFFFFF <| .data s [dw (profOf s c.inst (bit c.a0 12) (c.a0 % 1024))]

def execNodeWrite (c : CmdIn) (s : State) : Host.Outcome State Fault Refusal := ok (pageCommand blkPARSE 0x01 cmdNodeWrite c s)
def execNodeRead (c : CmdIn) (s : State) : Host.Outcome State Fault Refusal := ok (pageCommand blkPARSE 0x02 cmdNodeRead c s)
def execProfCommit (c : CmdIn) (s : State) : Host.Outcome State Fault Refusal := ok (pageCommand blkPARSE 0x03 cmdProfCommit c s)
def execProfCopyBack (pipe : Fin 32) (prof : Fin 8) (s : State) : Host.Outcome State Fault Refusal :=
  ok (profCopyBack pipe.val prof.val s)
def execPortProf (c : CmdIn) (s : State) : Host.Outcome State Fault Refusal := ok (pageCommand blkPARSE 0x04 cmdPortProf c s)
def execPortQuery (c : CmdIn) (s : State) : Host.Outcome State Fault Refusal := ok (pageCommand blkPARSE 0x05 cmdPortQuery c s)

end Sys2Proof.Machine
end

