-- ==== Sys2Proof/Machine/Tables.lean ====
section
/-! DEFINITION. The forwarding tables: hashing, lookups, aging, commands, parity and scrubbing (R188 to R219). -/

namespace Sys2Proof.Machine

/-! ## Hashing (R178, R190) -/

/-- One bit step of the reflected CRC32C register. -/
def crcBit (c : Word) : Word := if c &&& 1 = 1 then (c >>> 1) ^^^ 0x82F63B78 else c >>> 1

/-- One byte into the register. -/
def crcByte (c : Word) (b : Byte) : Word :=
  crcBit (crcBit (crcBit (crcBit (crcBit (crcBit (crcBit (crcBit (c ^^^ b.setWidth 32))))))))

/-- CRC32C over bytes with an initial value (R178, R190). -/
def crc32c (init : Word) (bs : List Byte) : Word := bs.foldl crcByte init ^^^ 0xFFFFFFFF

/-- h0 and h1 of a key of `n` bytes, highest key bit first (R190). -/
def hash0 (n key : Nat) : Nat := (crc32c 0xFFFFFFFF (beBytes n key)).toNat
def hash1 (n key : Nat) : Nat := (crc32c 0x5A5A5A5A (beBytes n key)).toNat

/-! ## Where entries stand -/

/-- The key of an entry: TABLE code and position; exact-match positions carry their bank group in bits 25:20; the two
TCAM partitions are one array under code 5. -/
def tkey (code pos : Nat) : Nat := (if code = 6 then 5 else code) * 2 ^ 40 + pos
def exactPos (group pos : Nat) : Nat := group * 2 ^ 20 + pos

def entryAt (s : State) (code pos : Nat) : Option Entry := Tbl.get? s.tables (tkey code pos)
def putEntry (s : State) (code pos : Nat) (e : Entry) : State := { s with tables := Tbl.put s.tables (tkey code pos) e }
def delEntry (s : State) (code pos : Nat) : State := { s with tables := Tbl.del s.tables (tkey code pos) }
def updEntry (s : State) (code pos : Nat) (f : Entry → Entry) : State :=
  { s with tables := Tbl.upd s.tables (tkey code pos) f }

/-- An entry that a lookup may hit: VALID and not BAD (R201). -/
def Entry.live (e : Entry) : Bool := e.valid && !e.bad

/-- The key of an entry by table: narrow, wide, flow, MAC (R192, R198, R199). -/
def dataNat (d : List Dword) (n : Nat) : Nat := leNat (qwBytes (padQ d n))
def Entry.exactKey (e : Entry) : Nat := dataNat e.data (if e.wide then 7 else 2)
def flowKey (d : List Dword) : Nat := dataNat d 5
def macKey (d : List Dword) : Nat := dataNat d 2 % 2 ^ 80

/-- Bytes of the key that is hashed, by table. -/
def keyBytes (code : Nat) (wide : Bool) : Nat := if code = 4 then (if wide then 56 else 16) else if code = 7 then 40 else 10

/-- The key in command data, by table. -/
def keyIn (code : Nat) (wide : Bool) (d : List Dword) : Nat :=
  if code = 4 then dataNat d (if wide then 7 else 2) else if code = 7 then flowKey d else macKey d

/-- The candidate buckets of an exact-match key: the position of slot 0 of each way (R190). -/
def exactBuckets (n key : Nat) : List Nat :=
  let h0 := hash0 n key
  let h1 := hash1 n key
  [bits h0 17 6 * 4, 2 ^ 14 + bits h0 29 18 * 4, 2 * 2 ^ 14 + bits h1 11 0 * 4, 3 * 2 ^ 14 + bits h1 23 12 * 4]

/-- The positions an exact-match entry with a key may have, the stash last (R190). -/
def exactSlots (key : Nat) (wide : Bool) : List Nat :=
  (exactBuckets (keyBytes 4 wide) key).flatMap (fun b => if wide then [b, b + 1] else [b, b + 1, b + 2, b + 3]) ++
    (List.range 8).map (· + 2 ^ 16)

/-- Positions of a flow key: both candidate buckets (R197). -/
def flowSlots (s : State) (key : Nat) : List Nat :=
  let n := s.rd FLOW.FLOW_SIZE
  if n = 0 then [] else
    let b0 := hash0 40 key % 2 ^ n
    let b1 := hash1 40 key % 2 ^ n
    let four := fun (b : Nat) => [b * 4, b * 4 + 1, b * 4 + 2, b * 4 + 3]
    if b0 = b1 then four b0 else four b0 ++ four b1

/-- Positions of a MAC key (R199). -/
def macSlots (key : Nat) : List Nat := (List.range 8).map (fun i => hash0 10 key % 2 ^ 17 * 8 + i)

/-- The position of a hashed table's VALID entry with a key. -/
def findKey (s : State) (code group : Nat) (wide : Bool) (key : Nat) : Option Nat :=
  match code with
  | 4 => ((exactSlots key wide).map (exactPos group)).find? (fun p =>
      match entryAt s 4 p with | some e => e.valid && e.wide == wide && e.exactKey == key | none => false)
  | 7 => (flowSlots s key).find? (fun p => match entryAt s 7 p with | some e => e.valid && flowKey e.data == key | none => false)
  | _ => (macSlots key).find? (fun p => match entryAt s 8 p with | some e => e.valid && macKey e.data == key | none => false)

/-! ## Parity (R201) -/

/-- The page type of a table. -/
def tablePage (code : Nat) : Nat :=
  if code = 5 ∨ code = 6 then blkTCAM else if code = 7 then blkFLOW else if code = 8 then blkLEARN else blkHTBL

/-- A read finds an entry's parity bad (R201): reported once; exact-match and MAC entries are freed. `scan`: found by
the TCAM background scan. -/
def parityFail (s : State) (code inst pos : Nat) (scan : Bool) : State :=
  match entryAt s code pos with
  | none => s
  | some e =>
    if !e.valid ∨ e.bad then s
    else
      let blk := tablePage code
      let s := if code = 4 ∨ code = 8 then delEntry s code pos else putEntry s code pos { e with bad := true }
      let shown := if code = 4 then pos % 2 ^ 20 else pos
      let s := s.hdw blk inst 0x108 (shown % 2 ^ 26 + code * 2 ^ 26 + 2 ^ 31)
      let s := s.bumpErr blk inst (if scan then 1 else 0)
      raisePage (s.istat blk inst (if code = 8 then 2 else 0)) blk inst 1

/-! ## Lookups (R169, R171, R190 to R200, R204) -/

/-- A hit: precedence, FINAL, packet type, owner of the entry, and the record it names. -/
structure Hit where
  action : Nat
  prio  : Nat
  final : Bool
  ptype : Nat
  owner : Nat
  recd  : List Dword
  deriving DecidableEq, Repr

/-- The hit of an action word (R171). -/
def hitOf (s : State) (action owner : Nat) : Hit :=
  { action := action, prio := bits action 23 16, final := bit action 24, ptype := bits action 47 32, owner := owner,
    recd := if action % 65536 = 0 then [] else Tbl.getD s.arecs (action % 65536) [] }

/-- STAMP of R204 for an instant in ns. -/
def flowStamp (ns : Nat) : Nat := ns / 1000000 % 2 ^ 32

/-- A flow entry is expired at an instant (R204). -/
def flowExpired (s : State) (e : Entry) (ns : Nat) : Bool :=
  let limit := s.rd FLOW.AGE_LIMIT 0 e.ageClass
  let age := signed 32 (flowStamp ns + 2 ^ 32 - qb e.data 6 31 0)
  limit != 0 && decide ((limit : Int) < age)

/-- The stored STAMP of a flow entry set. -/
def setFlowStamp (e : Entry) (ns : Nat) : Entry :=
  { e with data := listSet (padQ e.data 8) 6 (dw (flowStamp ns)) }

/-- The action word of a hit on a MAC entry (R200): its ACTION, or a FWD group to the learned source. -/
def macHit (s : State) (e : Entry) : Hit :=
  if e.static then hitOf s (qw e.data 3) e.owner
  else
    let cfg := s.rd LEARN.LRN_CFG
    let vport := bit (qw e.data 2) 17
    let fwd := (if vport then 2 + qb e.data 2 9 0 * 2 ^ 4 + qb e.data 2 16 10 * 2 ^ 14 else 1 + qb e.data 2 9 0 * 2 ^ 4) +
      bits cfg 19 16 * 2 ^ 21 + bits cfg 20 20 * 2 ^ 25
    { action := bits cfg 15 8 * 2 ^ 16 + s.rd LEARN.LRN_PTYPE % 65536 * 2 ^ 32,
      prio := bits cfg 15 8, final := false, ptype := s.rd LEARN.LRN_PTYPE % 65536, owner := e.owner,
      recd := [dw fwd, 0, 0, 0] }

/-- Count a lookup in a page's LOOKUP and HIT (R217, R219). -/
def countLookup (s : State) (lookup hit : RegId) (inst : Nat) (found : Bool) : State :=
  let s := s.bumpStat lookup inst
  if found then s.bumpStat hit inst else s

/-- A TCAM search of a partition (R193): the lowest row that hits; `lpm` longest prefix. -/
def tcamFind (s : State) (lpm : Bool) (key : Nat) : Option Nat :=
  let edge := 8192 * s.rd TCAM.LPM_BLOCKS
  ((s.tables.filter (fun p => p.1 / 2 ^ 40 == 5 && p.2.live)).find? (fun p =>
    let row := p.1 % 2 ^ 40
    let d := p.2.data
    let value := qw d 0 + qw d 1 * 2 ^ 64 + qb d 2 31 0 * 2 ^ 128
    let mask := qb d 2 63 32 + qw d 3 * 2 ^ 32 + qw d 4 * 2 ^ 96
    (decide (row < edge) == lpm) && ((key % 2 ^ 160) ^^^ value) &&& mask == 0)).map (fun p => p.1 % 2 ^ 40)

/-- One step of a lookup program (R169): the hit, and the state with hits marked. `ns`: the packet's ingress stamp. -/
def lookup (s : State) (code key : Nat) (wide : Bool) (ns : Nat) : Option Hit × State :=
  let direct := fun (idx : Nat) =>
    match entryAt s code idx with
    | some e => if e.live then
        (some (hitOf s (qw e.data 0) e.owner), countLookup (updEntry s code idx (fun e => { e with hit := true })) HTBL.LOOKUP HTBL.HIT 0 true)
      else (none, countLookup s HTBL.LOOKUP HTBL.HIT 0 false)
    | none => (none, countLookup s HTBL.LOOKUP HTBL.HIT 0 false)
  match code with
  | 1 => direct (key % 4096)
  | 2 => direct (key % 1024)
  | 3 => direct (key % 65536)
  | 4 =>
    let k := key % 2 ^ (8 * keyBytes 4 wide)
    let g := hash0 (keyBytes 4 wide) k % 64
    match findKey s 4 g wide k with
    | some p =>
      match entryAt s 4 p with
      | some e => (some (hitOf s (qw e.data 7) e.owner),
                   countLookup (updEntry s 4 p (fun e => { e with hit := true })) HTBL.LOOKUP HTBL.HIT g true)
      | none => (none, s)
    | none => (none, countLookup s HTBL.LOOKUP HTBL.HIT g false)
  | 7 =>
    match findKey s 7 0 false (key % 2 ^ 320) with
    | some p =>
      match entryAt s 7 p with
      | some e =>
        if e.bad || s.flushing.contains e.owner then (none, countLookup s FLOW.LOOKUP FLOW.HIT 0 false)
        else if flowExpired s e ns then
          (none, countLookup { s with removeQ := setAdd s.removeQ p } FLOW.LOOKUP FLOW.HIT 0 false)
        else (some (hitOf s (qw e.data 5) e.owner),
              countLookup (updEntry s 7 p (fun e => setFlowStamp { e with hit := true } ns)) FLOW.LOOKUP FLOW.HIT 0 true)
      | none => (none, s)
    | none => (none, countLookup s FLOW.LOOKUP FLOW.HIT 0 false)
  | 8 =>
    match findKey s 8 0 false (key % 2 ^ 80) with
    | some p =>
      match entryAt s 8 p with
      | some e => (some (macHit s e), updEntry s 8 p (fun e => { e with hit := true }))
      | none => (none, s)
    | none => (none, s)
  | 5 =>
    match tcamFind s true key with
    | some row => ((entryAt s 5 row).map (fun e => hitOf s (qw e.data 5) e.owner), updEntry s 5 row (fun e => { e with hit := true }))
    | none => (none, s)
  | 6 =>
    match tcamFind s false key with
    | some row => ((entryAt s 5 row).map (fun e => hitOf s (qw e.data 5) e.owner), updEntry s 5 row (fun e => { e with hit := true }))
    | none => (none, s)
  | _ => (none, s)

/-! ## Placing an entry (R191, R197, R199) -/

/-- A unit of a bank group is in use: by its own entry, or by a wide entry that covers it. -/
def unitUsed (s : State) (g p : Nat) : Bool :=
  let own := fun (q : Nat) (w : Bool) => match entryAt s 4 (exactPos g q) with
    | some e => e.valid && (!w || e.wide) | none => false
  own p false || (decide (p < 2 ^ 16) && ((decide (1 ≤ p % 4) && own (p - 1) true) || (decide (2 ≤ p % 4) && own (p - 2) true)))

/-- A place for an entry at a position is free. -/
def placeFree (s : State) (g : Nat) (wide : Bool) (p : Nat) : Bool :=
  if wide && p < 2 ^ 16 then !unitUsed s g p && !unitUsed s g (p + 1) && !unitUsed s g (p + 2) else !unitUsed s g p

/-- The free place of a key in its candidate buckets, way 0 first. -/
def freePlace (s : State) (g : Nat) (wide : Bool) (key : Nat) : Option Nat :=
  ((exactSlots key wide).filter (fun p => decide (p < 2 ^ 16))).find? (placeFree s g wide)

/-- The starts of the entries that cover some units. -/
def coverers (s : State) (g : Nat) (units : List Nat) : List Nat :=
  (units.flatMap (fun p => [p, p - 1, p - 2])).eraseDups.filter (fun q =>
    match entryAt s 4 (exactPos g q) with
    | some e => e.valid && units.any (fun u => u == q || (e.wide && q ≤ u && u ≤ q + 2))
    | none => false)

/-- Move the entry at `q` to a free place in another of its candidate buckets: the new copy before the old goes. -/
def relocate (s : State) (g q : Nat) : Option State :=
  match entryAt s 4 (exactPos g q) with
  | none => some s
  | some e =>
    let others := (exactSlots e.exactKey e.wide).filter (fun p => decide (p < 2 ^ 16) && p / 4 != q / 4)
    (others.find? (placeFree s g e.wide)).map (fun p =>
      (delEntry (putEntry s 4 (exactPos g p) e) 4 (exactPos g q)).bumpStat HTBL.RELOC g)

/-- Make room at a place by relocating what covers it, if every such entry has another place (R191, log 22). -/
def makeRoom (s : State) (g : Nat) (wide : Bool) (p : Nat) : Option State :=
  (coverers s g (if wide then [p, p + 1, p + 2] else [p])).foldl (fun a q => a.bind (fun s => relocate s g q)) (some s)

/-- The place an exact-match INSERT takes (R191): free, made free, or the stash. -/
def exactPlace (s : State) (g : Nat) (wide : Bool) (key : Nat) : Option (Nat × State) :=
  match freePlace s g wide key with
  | some p => some (p, s)
  | none =>
    match ((exactSlots key wide).filter (fun p => decide (p < 2 ^ 16))).findSome? (fun p => (makeRoom s g wide p).map (fun t => (p, t))) with
    | some r => some r
    | none => (((List.range 8).map (· + 2 ^ 16)).find? (fun p => !unitUsed s g p)).map (fun p => (p, s.istat blkHTBL g 3))

/-- VALID entries of a bucket of four. -/
def bucketCount (s : State) (b : Nat) : Nat :=
  ([0, 1, 2, 3].filter (fun i => match entryAt s 7 (b * 4 + i) with | some e => e.valid | none => false)).length

/-- The first slot of a list with no VALID entry. -/
def freeIn (s : State) (code : Nat) (ps : List Nat) : Option Nat :=
  ps.find? (fun p => match entryAt s code p with | some e => !e.valid | none => true)

/-- The place of a new entry of a hashed table, or none when it is full. -/
def newPlace (s : State) (code group : Nat) (wide : Bool) (key : Nat) : Option (Nat × State) :=
  match code with
  | 4 => (exactPlace s group wide key).map (fun r => (exactPos group r.1, r.2))
  | 7 =>
    let n := s.rd FLOW.FLOW_SIZE
    if n = 0 then none else
      let b0 := hash0 40 key % 2 ^ n
      let b1 := hash1 40 key % 2 ^ n
      let b := if bucketCount s b1 < bucketCount s b0 then b1 else b0
      (freeIn s 7 [b * 4, b * 4 + 1, b * 4 + 2, b * 4 + 3]).map (fun p => (p, s))
  | _ => (freeIn s 8 (macSlots key)).map (fun p => (p, s))

/-! ## Commands (R211 to R215) -/

/-- The side word of an entry (R211); 0 where there is none. -/
def sideWord : Option Entry → Nat
  | some e => ownerVal e.owner + b2n e.wide * 2 ^ 13 + b2n e.static * 2 ^ 14 + e.ageClass * 2 ^ 16 + b2n e.bad * 2 ^ 28 +
      b2n e.old * 2 ^ 29 + b2n e.hit * 2 ^ 30 + b2n e.valid * 2 ^ 31
  | none => 0

/-- RES_POS and RES_SIDE of a command's entry (R216). -/
def setRes (s : State) (blk inst code pos : Nat) : State :=
  let shown := if code = 4 then pos % 2 ^ 20 else pos
  (s.hdw blk inst 0x100 shown).hdw blk inst 0x104 (sideWord (entryAt s code pos))

/-- A page serves a TABLE (R188, R213). -/
def servesTable (blk inst code : Nat) : Bool :=
  if blk = blkHTBL then code == 4 || (inst == 0 && (code == 1 || code == 2 || code == 3 || code == 9))
  else if blk = blkTCAM then code == 5 || code == 6
  else if blk = blkFLOW then code == 7 else code == 8

/-- A position lies in the table, its bank group or its partition (R213). -/
def posInRange (s : State) (code pos : Nat) : Bool :=
  let edge := 8192 * s.rd TCAM.LPM_BLOCKS
  match code with
  | 1 => pos < 4096
  | 2 => pos < 1024
  | 3 => pos < 65536
  | 9 => pos < 65536
  | 4 => pos < 65536 || (65536 ≤ pos && pos < 65544)
  | 5 => pos < edge
  | 6 => edge ≤ pos && pos < 262144
  | 7 => s.rd FLOW.FLOW_SIZE != 0 && pos < 4 * 2 ^ s.rd FLOW.FLOW_SIZE
  | _ => pos < 1048576

/-- The entry's key in `tables` for a command's POSITION. -/
def posOf (inst code pos : Nat) : Nat := if code = 4 then exactPos inst pos else pos

/-- Reserved bits of the entry data a WRITE or INSERT carries (R171, R189, R192, R194, R198, R199, R366). -/
def dataRsvd (code : Nat) (wide : Bool) (d : List Dword) : Bool :=
  let act := fun (i : Nat) => qw d i &&& 0xFFFF0000FE000000 != 0
  match code with
  | 1 => act 0 || qw d 1 != 0
  | 3 => act 0 || qw d 1 != 0
  | 2 => act 0 || qb d 1 63 13 != 0
  | 9 => qb d 1 63 14 != 0
  | 4 => act 7 || (!wide && (qw d 2 != 0 || qw d 3 != 0 || qw d 4 != 0 || qw d 5 != 0 || qw d 6 != 0))
  | 7 => act 5 || qb d 6 63 32 != 0
  | 8 => act 3 || qb d 1 63 16 != 0 || qb d 2 63 18 != 0
  | _ => act 5 || qb d 6 63 8 != 0 || qw d 7 != 0

/-- Longest-prefix order (R195): the nearest VALID neighbours of a block of rows allow its first and last PLEN. -/
def orderOk (s : State) (lo hi plenLo plenHi : Nat) (skip : Nat → Bool) : Bool :=
  let edge := 8192 * s.rd TCAM.LPM_BLOCKS
  let rows := (s.tables.filter (fun p => p.1 / 2 ^ 40 == 5 && p.2.valid)).map (fun p => (p.1 % 2 ^ 40, qb p.2.data 6 7 0))
  let rows := rows.filter (fun r => r.1 < edge && !skip r.1)
  let below := (rows.filter (fun r => decide (r.1 < lo))).getLast?
  let above := (rows.filter (fun r => decide (hi < r.1))).head?
  (match below with | some r => plenLo ≤ r.2 | none => true) && (match above with | some r => r.2 ≤ plenHi | none => true)

/-- The ARG1 fields of R211. -/
def argTable (c : CmdCtx) : Nat := c.a1 % 16
def argOwner (c : CmdCtx) : Nat := ownerIx (bits c.a1 27 16) (bit c.a1 28)
def argWide (c : CmdCtx) : Bool := bit c.a1 29

/-- The bits of ARG1 that R211 names. -/
def argMask : Nat := 0x3FFF07FF

/-- A soft error that the command's read of an entry finds is what the outside brings in bit 0 of `env` (log 23). -/
def readParity (c : CmdCtx) (code pos : Nat) (s : State) : State :=
  if bit (qw c.env 0) 0 then parityFail s code c.inst pos false else s

/-- A full table or group (R191, R213, R217, R219). -/
def fullResult (s : State) (blk inst : Nat) : CmdRes :=
  if blk = blkHTBL then .fail (raisePage ((s.bumpErr blk inst 2).istat blk inst 2) blk inst 3) 0x42
  else if blk = blkFLOW then .fail (s.bumpErr blk inst 1) 0x42
  else .fail s 0x42

/-- The tokens of a policer fill when its entry is written (R366). -/
def fillPolicer (s : State) (code pos : Nat) (d : List Dword) : State :=
  if code = 9 then { s with met := { s.met with pol := Tbl.put s.met.pol pos (256 * qb d 0 63 32, s.ns) } } else s

/-- Where a command's entry stands or would stand: its position, none when a hashed key is absent. -/
def cmdPos (c : CmdCtx) (code : Nat) (s : State) : Option Nat :=
  if code = 4 ∨ code = 7 ∨ code = 8 then findKey s code c.inst (argWide c) (keyIn code (argWide c) c.d)
  else some (c.a0 % 2 ^ 26)

/-- WRITE and INSERT (R212). -/
def tableStore (insert_ : Bool) (c : CmdCtx) (s : State) : CmdRes :=
  let code := argTable c
  let wide := argWide c
  let hashed := code = 4 ∨ code = 7 ∨ code = 8
  let key := keyIn code wide c.d
  let group := hash0 (keyBytes 4 wide) key % 64
  let new : Entry := { data := c.d, owner := argOwner c, wide := wide && code == 4, static := bit c.a1 10 && code == 8,
                       ageClass := if code = 7 then bits c.a1 9 6 else 0 }
  let new := if code = 7 then setFlowStamp new s.ns else new
  let store := fun (s : State) (p : Nat) => CmdRes.done (setRes (fillPolicer (putEntry s code p new) code p c.d) c.blk c.inst code p)
  if dataRsvd code wide c.d && servesTable c.blk c.inst code then .fail s 0x03
  else if (code = 5 ∨ code = 6) && 160 < qb c.d 6 7 0 && servesTable c.blk c.inst code then .fail s 0x02
  else if !servesTable c.blk c.inst code then
    .fail (if c.blk = blkHTBL then s.bumpErr blkHTBL c.inst 3 else s) 0x44
  else if ¬ hashed ∧ !posInRange s code (c.a0 % 2 ^ 26) then .fail s 0x46
  else if code = 4 ∧ group ≠ c.inst then { res := 0x45, ret := some [dw group], st := s }
  else if code = 7 ∧ s.flushing.contains (argOwner c) then .fail s 0x4B
  else
    let at_ := cmdPos c code s
    let s := match at_ with | some p => readParity c code p s | none => s
    let at_ := cmdPos c code s
    let old := at_.bind (fun p => entryAt s code p)
    let valid := match old with | some e => e.valid | none => false
    let expired := match old with | some e => code = 7 && e.valid && flowExpired s e s.ns | none => false
    let row := c.a0 % 2 ^ 26
    let plen := qb c.d 6 7 0
    if insert_ && valid && !expired then .fail s 0x41
    else if code = 5 && !orderOk s row row plen plen (fun r => r == row) then .fail s 0x47
    else
      let s := if insert_ && expired then s.bumpStat FLOW.EXPIRED 0 else s
      match at_ with
      | some p => store s p
      | none =>
        match newPlace s code c.inst wide key with
        | some (p, s) => store s p
        | none => fullResult s c.blk c.inst

/-- The checks READ, DELETE, SEARCH and CAS share: BAD_TABLE, and POS_RANGE where a POSITION is named. -/
def tableGate (byPos : Bool) (c : CmdCtx) (s : State) (k : Nat → CmdRes) : CmdRes :=
  let code := argTable c
  if !servesTable c.blk c.inst code then .fail (if c.blk = blkHTBL then s.bumpErr blkHTBL c.inst 3 else s) 0x44
  else if byPos && !posInRange s code (c.a0 % 2 ^ 26) then .fail s 0x46
  else k code

/-- READ (R212). -/
def tableRead (c : CmdCtx) (s : State) : CmdRes :=
  tableGate true c s fun code =>
    let p := posOf c.inst code (c.a0 % 2 ^ 26)
    let s := readParity c code p s
    match entryAt s code p with
    | some e =>
      if e.bad then .fail (setRes s c.blk c.inst code p) 0x49
      else
        let s := setRes s c.blk c.inst code p
        .data (if bit c.a1 4 then updEntry s code p (fun e => { e with hit := false }) else s) (padQ e.data 8)
    | none => .data (setRes s c.blk c.inst code p) []

/-- The group check of an exact-match key given in data. -/
def groupGate (c : CmdCtx) (code : Nat) (s : State) (k : CmdRes) : CmdRes :=
  let g := hash0 (keyBytes 4 (argWide c)) (keyIn 4 (argWide c) c.d) % 64
  if code = 4 ∧ g ≠ c.inst then { res := 0x45, ret := some [dw g], st := s } else k

/-- DELETE (R212). -/
def tableDelete (c : CmdCtx) (s : State) : CmdRes :=
  let code := argTable c
  tableGate (!(code == 4 || code == 7 || code == 8)) c s fun code => groupGate c code s <|
    match cmdPos c code s with
    | some p =>
      match entryAt s code p with
      | some e => if e.valid then .done (delEntry s code p) else .fail s 0x40
      | none => .fail s 0x40
    | none => .fail s 0x40

/-- SEARCH (R212): sets no HIT, refreshes no STAMP. -/
def tableSearch (c : CmdCtx) (s : State) : CmdRes :=
  tableGate false c s fun code => groupGate c code s <|
    let at_ := if code = 5 ∨ code = 6 then
        tcamFind s (code == 5) (qw c.d 0 + qw c.d 1 * 2 ^ 64 + qb c.d 2 31 0 * 2 ^ 128)
      else if code = 4 ∨ code = 7 ∨ code = 8 then cmdPos c code s
      else none
    match at_ with
    | some p =>
      let s := readParity c code p s
      match entryAt s code p with
      | some e => if e.bad then .fail s 0x49 else .data (setRes s c.blk c.inst code p) (padQ e.data 8)
      | none => .fail s (if code = 4 ∨ code = 8 then 0x49 else 0x40)
    | none => .fail s 0x40

/-- The qword of the CAS word (R212): STATE for a flow entry, ACTION otherwise. -/
def casWord (code : Nat) : Nat :=
  match code with
  | 4 => 7
  | 7 => 7
  | 8 => 3
  | 5 => 5
  | 6 => 5
  | _ => 0

/-- CAS (R212, R213). -/
def tableCas (c : CmdCtx) (s : State) : CmdRes :=
  tableGate true c s fun code =>
    let p := posOf c.inst code (c.a0 % 2 ^ 26)
    let s := readParity c code p s
    match entryAt s code p with
    | none => .fail s 0x40
    | some e =>
      let h0 := hash0 (keyBytes code e.wide) (keyIn code e.wide e.data)
      if e.bad then .fail s 0x49
      else if !e.valid || ((code = 4 || code = 7 || code = 8) && qb c.d 2 31 0 != h0) then .fail s 0x40
      else if qw e.data (casWord code) ≠ qw c.d 0 then
        { res := 0x43, ret := some (padQ e.data 8), st := setRes s c.blk c.inst code p }
      else
        let d := listSet (padQ e.data 8) (casWord code) (dw (qw c.d 1))
        let d := if bit c.a1 5 && code = 7 then listSet d 5 (dw (qw c.d 3)) else d
        .done (setRes (putEntry s code p { e with data := d }) c.blk c.inst code p)

/-- MOVE (R196): the rows copied, the source rows outside the destination cleared. -/
def tableMove (c : CmdCtx) (s : State) : CmdRes :=
  let src := c.a0 % 2 ^ 18
  let dst := c.a1 % 2 ^ 18
  let n := qb c.d 0 16 0
  let edge := 8192 * s.rd TCAM.LPM_BLOCKS
  let inSrc := fun (r : Nat) => src ≤ r && r < src + n
  let inDst := fun (r : Nat) => dst ≤ r && r < dst + n
  let rows := (s.tables.filter (fun p => p.1 / 2 ^ 40 == 5)).map (fun p => (p.1 % 2 ^ 40, p.2))
  let moved := rows.filter (fun r => inSrc r.1)
  let same := (src + n ≤ edge && dst + n ≤ edge) || (edge ≤ src && edge ≤ dst && src + n ≤ 262144 && dst + n ≤ 262144)
  let plens := (moved.filter (fun r => r.2.valid)).map (fun r => qb r.2.data 6 7 0)
  if c.blk ≠ blkTCAM then .fail (if c.blk = blkHTBL then s.bumpErr blkHTBL c.inst 3 else s) 0x44
  else if n = 0 ∨ 65536 < n then .fail s 0x02
  else if rows.any (fun r => r.2.valid && inDst r.1 && !inSrc r.1) then .fail s 0x41
  else if same && src < edge && plens ≠ [] && !orderOk s dst (dst + n - 1) (plens.headD 0) (plens.getLastD 0) inSrc then
    .fail s 0x47
  else if !same then .fail s 0x48
  else
    let kept := s.tables.filter (fun p => !(p.1 / 2 ^ 40 == 5 && (inSrc (p.1 % 2 ^ 40) || inDst (p.1 % 2 ^ 40))))
    let s := { s with tables := moved.foldl (fun (t : Tbl Entry) (r : Nat × Entry) => Tbl.put t (tkey 5 (r.1 - src + dst)) r.2) kept }
    .done (s.bumpStat TCAM.MOVED c.inst n)

/-- FLUSH_TENANT (R215). -/
def tableFlush (c : CmdCtx) (s : State) : CmdRes :=
  tableGate false c s fun code =>
    let x := argOwner c
    let edge := 8192 * s.rd TCAM.LPM_BLOCKS
    let mine := fun (p : Nat × Entry) =>
      let pos := p.1 % 2 ^ 40
      p.2.owner == x && p.1 / 2 ^ 40 == (if code = 6 then 5 else code) &&
        (match code with | 4 => pos / 2 ^ 20 == c.inst | 5 => pos < edge | 6 => edge ≤ pos | _ => true)
    if code = 7 then
      if s.flushing.contains x then .done s
      else if 16 ≤ s.flushing.length then .fail s 0x4A
      else .done { s with flushing := s.flushing ++ [x] }
    else
      let s := { s with tables := s.tables.filter (fun p => !mine p) }
      .done (if code = 8 then { s with learnQ := s.learnQ.filter (fun r => r.owner != x) } else s)

/-- A table command by its opcode (R212). -/
def tableEffect (op : Nat) (c : CmdCtx) (s : State) : CmdRes :=
  let m0 := if op = 7 then 0x3FFFF else 0x3FFFFFF
  let m1 := if op = 7 then 0x3FFFF else argMask
  ckArgs c s m0 m1 <|
    match op with
    | 1 => tableRead c s
    | 2 => tableStore false c s
    | 3 => tableStore true c s
    | 4 => tableDelete c s
    | 5 => tableSearch c s
    | 6 => tableCas c s
    | 7 => tableMove c s
    | _ => tableFlush c s

/-- A table command with its mirroring (R212, R389, R390): HTBL, TCAM and FLOW commands go out as CMD records, and
while the pair is PAIRED the command ends once the record is acknowledged. -/
def tableCommand (op : Nat) (c : CmdCtx) (s : State) : CmdRes :=
  let r := tableEffect op c s
  if c.blk = blkLEARN ∨ r.res ≠ 0 ∨ (pairState s ≠ 2 ∧ pairState s ≠ 3) then r
  else
    let st := mirrorRec r.st 0x03 ([dw (c.blk + c.inst * 2 ^ 8 + op * 2 ^ 24), dw (c.a0 + c.a1 * 2 ^ 32)] ++ padQ c.d 8)
    if pairState s ≠ 3 then { r with st := st }
    else
      let p := State.pk c.blk c.inst
      let w : Waiting := { mseq := st.twin.mseqTx, page := some p, since := st.ns }
      let st := setTwin st (fun t => { t with waiting := t.waiting ++ [w] })
      { res := r.res, ret := r.ret, wait := true,
        st := { st with running := Tbl.upd st.running p (fun x => { x with res := BitVec.ofNat 8 r.res }) } }

def tableBlk : TablePage → Nat
  | .htbl => blkHTBL
  | .tcam => blkTCAM
  | .flow => blkFLOW
  | .learn => blkLEARN

def execTableRead (p : TablePage) (c : CmdIn) (s : State) : Host.Outcome State Fault Refusal :=
  ok (pageCommand (tableBlk p) 0x01 (tableCommand 1) c s)
def execTableWrite (p : TablePage) (c : CmdIn) (s : State) : Host.Outcome State Fault Refusal :=
  ok (pageCommand (tableBlk p) 0x02 (tableCommand 2) c s)
def execInsert (p : TablePage) (c : CmdIn) (s : State) : Host.Outcome State Fault Refusal :=
  ok (pageCommand (tableBlk p) 0x03 (tableCommand 3) c s)
def execDelete (p : TablePage) (c : CmdIn) (s : State) : Host.Outcome State Fault Refusal :=
  ok (pageCommand (tableBlk p) 0x04 (tableCommand 4) c s)
def execSearch (p : TablePage) (c : CmdIn) (s : State) : Host.Outcome State Fault Refusal :=
  ok (pageCommand (tableBlk p) 0x05 (tableCommand 5) c s)
def execCas (p : TablePage) (c : CmdIn) (s : State) : Host.Outcome State Fault Refusal :=
  ok (pageCommand (tableBlk p) 0x06 (tableCommand 6) c s)
def execMove (p : TablePage) (c : CmdIn) (s : State) : Host.Outcome State Fault Refusal :=
  ok (pageCommand (tableBlk p) 0x07 (tableCommand 7) c s)
def execTableFlushTenant (p : TablePage) (c : CmdIn) (s : State) : Host.Outcome State Fault Refusal :=
  ok (pageCommand (tableBlk p) 0x08 (tableCommand 8) c s)

/-! ## Background scan and repair (R201, R202) -/

/-- R201: a tick of the background scan: the rows it reads in each page with bad parity are given by `bad`; the row of
page i is the scan's next, and a pass over the page ends every 8,192 ticks. -/
def scanTick (bad : BitVec 32) (s : State) : State :=
  let row := Tbl.getD s.scanAt 0 0
  let s := (List.range 32).foldl (fun (s : State) (i : Nat) =>
    let s := if bit bad.toNat i then parityFail s 5 i (8192 * i + row) true else s
    if row = 8191 then s.bumpStat TCAM.SCAN_PASS i else s) s
  { s with scanAt := Tbl.put s.scanAt 0 ((row + 1) % 8192) }

def execTcamScanTick (bad : BitVec 32) (s : State) : Host.Outcome State Fault Refusal := ok (scanTick bad s)

/-- The shadow record of an entry: its address (R202). -/
def shadowAt (s : State) (code pos : Nat) : Nat :=
  match code with
  | 5 => s.rd64 TCAM.SHADOW_BASE + 64 * pos
  | 6 => s.rd64 TCAM.SHADOW_BASE + 64 * pos
  | 2 => s.rd64 HTBL.SHADOW_BASE + 64 * (4096 + pos)
  | 3 => s.rd64 HTBL.SHADOW_BASE + 64 * (5120 + pos)
  | 9 => s.rd64 HTBL.SHADOW_BASE + 64 * (70656 + pos)
  | _ => s.rd64 HTBL.SHADOW_BASE + 64 * pos

/-- R202: a BAD direct entry or TCAM row is repaired from the shadow. -/
def scrubRepair (code pos : Nat) (s : State) : State :=
  let tcam := code = 5 ∨ code = 6
  let inst := if tcam then pos / 8192 else 0
  let blk := tablePage code
  let en := if tcam then bit (s.rd TCAM.SCRUB_CTRL) 0 else bit (s.rd HTBL.SCRUB_CTRL) 0
  match entryAt s code pos with
  | none => s
  | some e =>
    if !en || !e.bad || code = 4 || code = 7 || code = 8 then s
    else
      let d := s.memGetQ (shadowAt s code pos) 8
      if qb d 7 63 32 = (crc32c 0xFFFFFFFF ((qwBytes d).take 60)).toNat then
        let side := qb d 7 31 0
        let new : Entry := { data := listSet d 7 0, owner := ownerOfVal (side % 8192), ageClass := bits side 19 16,
                             old := bit side 29, hit := bit side 30, valid := bit side 31 }
        (putEntry s code pos new).bumpStat (if tcam then TCAM.SCRUBBED else HTBL.SCRUBBED) inst
      else raisePage ((s.bumpErr blk inst (if tcam then 2 else 1)).istat blk inst 1) blk inst 2

def execScrubRepair (table : BitVec 4) (pos : Nat) (s : State) : Host.Outcome State Fault Refusal :=
  ok (scrubRepair table.toNat pos s)

end Sys2Proof.Machine
end

