-- ==== Sys2Proof/Machine/Learn.lean ====
section
/-! DEFINITION. Learning, notifications, the MAC sweeper and the flow scanner (R204 to R210, R215). -/

namespace Sys2Proof.Machine

/-! ## The notification ring (R210) -/

/-- Write one entry of the ring, qwords 1 to 3 and then qword 0. -/
def notifyWrite (s : State) (q0 q1 q2 q3 : Nat) : State :=
  let n := s.rd LEARN.NR_SIZE
  let prod := s.rd LEARN.NR_PROD
  let a := s.rd64 LEARN.NR_BASE + 32 * (prod % 2 ^ n)
  let s := s.memPutQ (a + 8) [dw q1, dw q2, dw q3]
  let s := s.memPutQ a [dw (q0 + b2n (bit prod n) * 8)]
  (s.wr LEARN.NR_PROD 0 (prod + 1)).istat blkLEARN 0 0

/-- The ring is full. -/
def notifyFull (s : State) : Bool :=
  decide (2 ^ s.rd LEARN.NR_SIZE ≤ (s.rd LEARN.NR_PROD + 2 ^ 32 - s.rd LEARN.NR_CONS) % 2 ^ 32)

/-- A notification (R210): discarded uncounted without a ring; with a full ring it sets OVERRUN and is lost. -/
def notify (s : State) (type src old x : Nat) (key : Nat) (pos : Nat) : State :=
  if s.rd LEARN.NR_SIZE = 0 then s
  else if notifyFull s then
    let s := (s.wr LEARN.NR_STAT 0 1).bumpErr blkLEARN 0 2
    { s.istat blkLEARN 0 1 with nrOvr := true }
  else notifyWrite s (type + src * 2 ^ 4 + old * 2 ^ 22 + ownerVal x * 2 ^ 40) (key % 2 ^ 64) (key / 2 ^ 64 + pos * 2 ^ 16) s.ns

/-- R210: NR_CONS is written; once space returns one OVERRUN entry is written. -/
def nrCons (value : Word) (s : State) : State :=
  let ahead := (value.toNat + 2 ^ 32 - s.rd LEARN.NR_CONS) % 2 ^ 32
  if (s.rd LEARN.NR_PROD + 2 ^ 32 - s.rd LEARN.NR_CONS) % 2 ^ 32 < ahead then s.bumpErr blkLEARN 0 5
  else
    let s := s.wr LEARN.NR_CONS 0 value.toNat
    if s.nrOvr && s.rd LEARN.NR_SIZE != 0 && !notifyFull s then notifyWrite { s with nrOvr := false } 5 0 0 s.ns else s

def execNrConsWrite (who : Requester) (value : Word) (s : State) : Host.Outcome State Fault Refusal :=
  ok (pageWrite who blkLEARN 0 (nrCons value) s)

/-! ## Learning (R208, R209) -/

/-- A pipeline submits a learn request (R208, R209): dropped when the queue is full. -/
def submitLearn (s : State) (r : LearnReq) : State :=
  if 4096 ≤ s.learnQ.length then s.bumpStat LEARN.LRN_DROP 0 else { s with learnQ := s.learnQ ++ [r] }

/-- The source lookup of a packet that carries LEARN (R208): a hit sets HIT; a miss or another source asks to learn. -/
def learnSource (s : State) (key : List Dword) (src x : Nat) : State :=
  match findKey s 8 0 false (macKey key) with
  | some p =>
    let s := updEntry s 8 p (fun e => { e with hit := true })
    match entryAt s 8 p with
    | some e => if !e.static && qb e.data 2 17 0 != src then submitLearn s ⟨key, src, x⟩ else s
    | none => s
  | none => submitLearn s ⟨key, src, x⟩

/-- R208: the learning engine takes one request. -/
def takeLearn (r : LearnReq) (s : State) : State :=
  let key := macKey r.key
  let mk : Entry := { data := [dw key, dw (key / 2 ^ 64), dw r.src, 0], owner := r.owner, hit := true }
  if !bit (s.rd LEARN.LRN_CFG) 31 then s.bumpStat LEARN.LRN_DROP 0
  else
    match findKey s 8 0 false key with
    | some p =>
      match entryAt s 8 p with
      | none => s
      | some e =>
        if e.static then s.bumpErr blkLEARN 0 3
        else if qb e.data 2 17 0 = r.src then putEntry s 8 p { e with hit := true }
        else
          let old := qb e.data 2 17 0
          let s := putEntry s 8 p { e with data := listSet (padQ e.data 4) 2 (dw r.src), hit := true, old := false }
          notify (s.bumpStat LEARN.MOVES 0) 2 r.src old e.owner key p
    | none =>
      match newPlace s 8 0 false key with
      | some (p, s) => notify ((putEntry s 8 p mk).bumpStat LEARN.LEARNED 0) 1 r.src 0 r.owner key p
      | none => (notify (s.bumpErr blkLEARN 0 1) 4 r.src 0 r.owner key 0).istat blkLEARN 0 3

def execLearnRequest (s : State) : Host.Outcome State Fault Refusal :=
  ok (match s.learnQ with
    | r :: t => takeLearn r { s with learnQ := t }
    | [] => s)

/-! ## The sweeper and the scanner (R204 to R207) -/

/-- Schedule the next pass: 0 flow scan on slice 33, 1 MAC sweep on slice 32; a refusal is counted and retried after
1 ms of Rack Time (R207). -/
def schedulePass (s : State) (sweep : Bool) (at_ : Nat) : State :=
  let (blk, slice, k) := if sweep then (blkLEARN, 32, 1) else (blkFLOW, 33, 0)
  let (s, ok) := s.schedule slice at_ blk 1 0
  if ok then { s with tableRetry := Tbl.del s.tableRetry k }
  else
    let s := s.bumpErr blk 0 (if sweep then 6 else 4)
    { s with tableRetry := Tbl.put s.tableRetry k (s.ns + 1000000) }

/-- One sweep of the MAC table (R206). -/
def sweepPass (s : State) : State :=
  (s.tables.filter (fun p => p.1 / 2 ^ 40 == 8 && p.2.valid && !p.2.static)).foldl (fun s p =>
    let pos := p.1 % 2 ^ 40
    let e := p.2
    if e.hit then putEntry s 8 pos { e with hit := false, old := false }
    else if !e.old then putEntry s 8 pos { e with old := true }
    else
      notify ((delEntry s 8 pos).bumpStat LEARN.AGED 0) 3 (qb e.data 2 17 0) 0 e.owner (macKey e.data) pos) s

/-- The sweep deadline fires (R206, R207); the next one follows after the period. -/
def sweepFire (s : State) (deadline : Nat) (stepped : Bool) : State :=
  let period := s.rd LEARN.SWEEP_PERIOD * 1000000
  schedulePass (sweepPass s) true (if stepped then s.ns + period else deadline + period)

/-- The scan deadline fires (R205, R207): a pass starts, or is skipped while one runs. -/
def scanFire (s : State) (deadline : Nat) (stepped : Bool) : State :=
  let period := s.rd FLOW.FLOW_SCAN * 1000000
  let s := if s.scanning then (s.bumpErr blkFLOW 0 2).istat blkFLOW 0 1
           else { s with scanning := true, scanPos := s.flushing.length }
  schedulePass s false (if stepped then s.ns + period else deadline + period)

/-- What the end of a scan pass removes (R204, R205, R215): the expired flows, and the flows of the owners `gone`. -/
def passRemoves (s : State) (gone : List Nat) : State :=
  let flow := fun (p : Nat × Entry) => p.1 / 2 ^ 40 == 7 && p.2.valid
  let dead := s.tables.filter (fun p => flow p && !gone.contains p.2.owner && flowExpired s p.2 s.ns)
  let s := s.bumpStat FLOW.EXPIRED 0 dead.length
  let t := s.tables.filter (fun p => !(flow p && (gone.contains p.2.owner || flowExpired s p.2 s.ns)))
  { s with tables := t, scanning := false, scanPos := 0, flushing := s.flushing.drop gone.length }

/-- A scan pass ends (R204, R205, R215): expired entries and those of the owners flushing since its start are gone. -/
def scanEnd (s : State) : State :=
  if !s.scanning then s
  else
    let gone := s.flushing.take s.scanPos
    let s := passRemoves s gone
    checkClose (if gone.isEmpty then s else s.istat blkFLOW 0 2)

/-- R204: a queued removal deletes the entry only if it is still expired. -/
def queuedRemoval (pos : Nat) (s : State) : State :=
  if !s.removeQ.contains pos then s
  else
    let s := { s with removeQ := setDel s.removeQ pos }
    match entryAt s 7 pos with
    | some e => if e.valid && flowExpired s e s.ns then (delEntry s 7 pos).bumpStat FLOW.EXPIRED 0 else s
    | none => s

/-- The pass deadline of a table that is pending fires; with none pending or to be retried, the row is the first
deadline (log 24). -/
def passRow (sweep : Bool) (s : State) : State :=
  let (blk, k) := if sweep then (blkLEARN, 1) else (blkFLOW, 0)
  match s.anyEvent blk 1 0 with
  | some (n, e) =>
    let s := s.fireEvent n e
    if sweep then sweepFire s e.deadline false else scanFire s e.deadline false
  | none =>
    if (Tbl.get? s.tableRetry k).isSome then s
    else if sweep then sweepFire s s.ns false else scanFire s s.ns false

/-- R207: a refused schedule is tried again after 1 ms; the pass it was for then starts at the next deadline. -/
def passRetry (sweep : Bool) (s : State) : State :=
  match Tbl.get? s.tableRetry (b2n sweep) with
  | none => s
  | some t => let s := s.reach t; schedulePass s sweep s.ns

def execMacSweepStart (s : State) : Host.Outcome State Fault Refusal := ok (passRow true s)
def execFlowScanStart (s : State) : Host.Outcome State Fault Refusal := ok (passRow false s)
def execFlowScanPassEnd (s : State) : Host.Outcome State Fault Refusal := ok (scanEnd s)
def execFlowQueuedRemoval (pos : Nat) (s : State) : Host.Outcome State Fault Refusal := ok (queuedRemoval pos s)
def execTableSchedRetry (sweep : Bool) (s : State) : Host.Outcome State Fault Refusal := ok (passRetry sweep s)

end Sys2Proof.Machine
end

