-- ==== Sys2Proof/Machine/Cipher.lean ====
section
/-! DEFINITION. Packet buffer cells, key slots, and the cipher engines' queues (R298 to R311, R327). -/

namespace Sys2Proof.Machine

/-! ## Packet buffer cells (R327, R331, R344) -/

/-- The device address of a cell (R344). -/
def cellAddr (i : Nat) : Nat := 0x100000000 + 256 * i

/-- The first cell of the lowest gap of `n` cells: chains take cells in a row (log 25). -/
def cellGap (n : Nat) : Nat → List (Nat × Nat) → Option Nat
  | at_, [] => if at_ + n ≤ 655360 then some at_ else none
  | at_, (c, k) :: t => if at_ + n ≤ c then some at_ else cellGap n (c + k) t

/-- Cells allocated. -/
def cellsUsed (s : State) : Nat := (s.cells.map Prod.snd).sum

/-- Allocate a chain of 1 to 39 cells from the provider's cell quota. -/
def allocCells (s : State) (n : Nat) : Option (Nat × State) :=
  if n = 0 ∨ 39 < n ∨ Config.cellQuota < cellsUsed s + n then none
  else (cellGap n 0 s.cells).map (fun c => (c, { s with cells := Tbl.put s.cells c n }))

/-- Free a whole chain by its first cell. -/
def freeCells (s : State) (c : Nat) : State := { s with cells := Tbl.del s.cells c }

/-! ## Key slots (R307 to R311) -/

def KeySlot.mode (k : KeySlot) : Nat := qb k.ctl 0 3 0
def KeySlot.owner (k : KeySlot) : Nat := ownerIx (qb k.ctl 0 19 8) (bit (qw k.ctl 0) 20)
def KeySlot.pktOk (k : KeySlot) : Bool := bit (qw k.ctl 0) 6
def KeySlot.jobOk (k : KeySlot) : Bool := bit (qw k.ctl 0) 7

/-- Bytes of a key by KLEN, and of its wrapped form (R309). -/
def keyLen (klen : Nat) : Nat := if klen = 0 then 16 else if klen = 1 then 32 else 64

/-- The greatest sequence number of a slot (R308). -/
def KeySlot.limit (k : KeySlot) : Nat := if bit (qw k.ctl 0) 33 then 2 ^ 64 - 1 else 2 ^ 32 - 1

/-- A slot comes into the cache; the one used longest ago leaves when 65,536 are held (R310). -/
def cacheSlot (s : State) (n : Nat) : State :=
  { s with cached := (if 65536 ≤ (setDel s.cached n).length then (setDel s.cached n).drop 1 else setDel s.cached n) ++ [n] }

/-- The next sequence number of a slot, with a block of 65,536 reserved before it is used (R311); none at the limit. -/
def takeSeq (s : State) (n : Nat) : Option (Nat × State) :=
  match Tbl.get? s.slots n with
  | none => none
  | some k =>
    if k.limit ≤ k.seq then none
    else
      let resv := if k.resv ≤ k.seq then k.seq + 65536 else k.resv
      some (k.seq, { s with slots := Tbl.put s.slots n { k with seq := k.seq + 1, resv := resv } })

/-! ## Engines (R300, R301, R306) -/

def engineOf (s : State) (e : Nat) : Engine := Tbl.getD s.engines e {}
def setEngine (s : State) (e : Nat) (g : Engine) : State := { s with engines := Tbl.put s.engines e g }

/-- Packet jobs of one pipeline and one slot keep their order (R300). -/
def sameStream (a b : Job) : Bool := a.pipe.isSome && a.pipe == b.pipe && a.slot == b.slot

/-- A packet job's packet is dropped. -/
def dropJob (s : State) (j : Job) : State :=
  match j.pkt with
  | some p => sendFate s p.1.src 0x09 0
  | none => s

/-- A job that cannot run ends (R303, R305, R311): a provider job with a result, a packet job dropped and counted; one
that found SEQ at its limit counts in KEYS too. -/
def failJob (s : State) (e : Nat) (j : Job) (code : Nat) : State :=
  let s := if code = 0x44 then (s.bumpErr blkKEYS 0 2).istat blkKEYS 0 1 else s
  if j.pipe.isSome then dropJob (s.bumpErr blkCIPHER e 2) j else endWaiting s blkCIPHER e 0x01 code

/-- The waiting jobs that may start, in queue order, with their positions: no fetch runs for them and no earlier job
of their stream waits, runs or is suspended. -/
def readyJobs (g : Engine) : List (Nat × Job) :=
  ((g.queue.zipIdx).filter (fun p => !p.1.fetching &&
    !((g.queue.take p.2).any (sameStream p.1)) && !(g.susp.any (sameStream p.1)) &&
    (match g.run with | some r => !sameStream p.1 r | none => true))).map (fun p => (p.2, p.1))

/-- The position and job of lowest PRIO number, the first of equals. -/
def bestJob (js : List (Nat × Job)) : Option (Nat × Job) :=
  js.foldl (fun a p => match a with
    | some b => if p.2.prio < b.2.prio then some p else a
    | none => some p) none

/-- The job encrypts or makes a tag. -/
def Job.encrypts (j : Job) : Bool := if j.pipe.isSome then !j.decrypt else !bit (qw j.qws 0) 4

/-- What the slot says of a job that starts (R303, R305, R311): 0 or the code it fails with. -/
def slotCode (s : State) (j : Job) : Nat :=
  match Tbl.get? s.slots j.slot with
  | none => 0x41
  | some k =>
    if k.corrupt then 0x46
    else if !(if j.pipe.isSome then k.pktOk && (k.mode == 1 || k.mode == 2) else k.jobOk && k.mode == qb j.qws 0 3 0) then 0x41
    else if j.encrypts && k.limit ≤ k.seq then 0x44
    else 0

/-- The job with the key and control it starts with; a packet job that encrypts takes its SEQ (R304, R310, R311). -/
def takeKey (s : State) (j : Job) : State × Job :=
  match Tbl.get? s.slots j.slot with
  | none => (s, j)
  | some k =>
    if j.pipe.isSome && j.encrypts then
      match takeSeq s j.slot with
      | some (n, s) => (s, { j with key := some (listSet k.ctl 2 (dw n), k.key) })
      | none => (s, j)
    else (s, { j with key := some (k.ctl, k.key) })

/-- A preemption: PREEMPT_MAX takes a time within the 40 ns of R301 that nothing fixes (log 1). -/
def notePreempt (s : State) (e : Nat) : State :=
  let (v, s) := s.fresh 32
  (s.bumpStat CIPHER.SUSPEND e).raiseMax CIPHER.PREEMPT_MAX e (v.toNat % 41)

/-- Engine `e` starts and resumes jobs while it can (R300, R301, R306, R310). -/
def startJobs (e : Nat) : Nat → State → State
  | 0, s => s
  | f + 1, s =>
    let g := engineOf s e
    let best := bestJob (readyJobs g)
    let back := bestJob ((g.susp.zipIdx).map (fun p => (p.2, p.1)))
    let begin := fun (s : State) (g : Engine) (i : Nat) (j : Job) =>
      let rest := g.queue.take i ++ g.queue.drop (i + 1)
      if !s.dax.drbgOk then startJobs e f (failJob (setEngine s e { g with queue := rest }) e j 0x45)
      else if (Tbl.get? s.slots j.slot).isSome && !s.cached.contains j.slot then
        let s := setEngine s e { g with queue := listSet g.queue i { j with fetching := true } }
        startJobs e f ((s.bumpStat KEYS.MISS 0).emit (.memRead 0 0xFFF 5 (s.rd64 KEYS.SLOT_BASE + 128 * j.slot) 128 false))
      else
        match slotCode s j with
        | 0 =>
          let (s, j) := takeKey s j
          cacheSlot (setEngine s e { g with queue := rest, run := some j }) j.slot
        | c => startJobs e f (failJob (setEngine s e { g with queue := rest }) e j c)
    match g.run, best, back with
    | none, none, none => s
    | none, none, some (i, j) => setEngine s e { g with susp := g.susp.take i ++ g.susp.drop (i + 1), run := some j }
    | none, some (i, j), none => begin s g i j
    | none, some (i, j), some (k, b) =>
      if j.prio < b.prio then begin s g i j
      else setEngine s e { g with susp := g.susp.take k ++ g.susp.drop (k + 1), run := some b }
    | some r, some (i, j), _ =>
      if j.prio < r.prio ∧ g.susp.length < 4 ∧ s.dax.drbgOk ∧ s.cached.contains j.slot ∧ slotCode s j = 0 then
        startJobs e f (notePreempt (setEngine s e { g with run := none, susp := g.susp ++ [r], queue := listSet g.queue i j }) e)
      else if j.prio < r.prio ∧ (!s.dax.drbgOk ∨ !s.cached.contains j.slot ∨ slotCode s j ≠ 0) then begin s g i j
      else s
    | some _, none, _ => s

/-- Without entropy the queued jobs of an engine end (R306). -/
def refuseQueue (s : State) (e : Nat) : State :=
  if s.dax.drbgOk then s
  else (engineOf s e).queue.foldl (fun (s : State) (j : Job) => failJob s e j 0x45)
    (setEngine s e { engineOf s e with queue := [] })

/-- Let an engine start what it can. -/
def runEngine (s : State) (e : Nat) : State :=
  let s := refuseQueue s e
  startJobs e (2 * ((engineOf s e).queue.length + (engineOf s e).susp.length) + 2) s

/-- A pipeline submits a packet job (R298, R300, R304): dropped when the engine is unavailable or full. -/
def submitPacketJob (s : State) (pipe : Nat) (j : Job) : State :=
  let e := pipe / 2
  let p := State.pk blkCIPHER e
  if s.faulted.contains p || !s.enabled blkCIPHER e then dropJob (s.bumpErr blkCIPHER e 3) j
  else if 1024 ≤ (engineOf s e).queue.length then dropJob ((s.bumpErr blkCIPHER e 0).istat blkCIPHER e 1) j
  else
    let g := engineOf s e
    runEngine (setEngine s e { g with queue := g.queue ++ [j] }) e

end Sys2Proof.Machine
end

