-- ==== Sys2Proof/Machine/Egress.lean ====
section
/-! DEFINITION. The egress side of a pipeline: edits, pacing, MACsec transmit, Ethernet ports, vports (R82, R180 to R184,
R312 to R314). -/

namespace Sys2Proof.Machine

/-! ## Offsets of the parse vector (R147) -/

/-- A layer offset word, 1 L2 to 6 IL4: none when not VALID. -/
def layerOff (pv : List Byte) (m : Nat) : Option Nat :=
  let w := leNat (cut pv (2 * m - 2) 2)
  if bit w 15 then some (w % 1024) else none

/-! ## IP header fixes -/

/-- The one's-complement checksum that a header of these bytes, with its checksum field 0, takes. -/
def checksum (bs : List Byte) : Nat := 65535 - (sum16 bs % 65535 + (if sum16 bs != 0 && sum16 bs % 65535 == 0 then 65535 else 0))

/-- An IPv4 header at an offset gets its checksum. -/
def fixV4Sum (bs : List Byte) (off : Nat) : List Byte :=
  let ihl := be bs off 1 % 16 * 4
  let bs := overlay bs (off + 10) [0, 0]
  overlay bs (off + 10) (beBytes 2 (checksum (cut bs off ihl)))

/-- Lengths of the IP header at an offset: IPv4 total length and checksum, IPv6 payload length. -/
def fixLen (bs : List Byte) (off : Nat) : List Byte :=
  match be bs off 1 / 16 with
  | 4 => fixV4Sum (overlay bs (off + 2) (beBytes 2 (bs.length - off))) off
  | 6 => overlay bs (off + 4) (beBytes 2 (bs.length - off - 40))
  | _ => bs

/-- The ECN field of the IP header at an offset. -/
def ecnOf (bs : List Byte) (off : Nat) : Nat :=
  match be bs off 1 / 16 with
  | 4 => be bs (off + 1) 1 % 4
  | 6 => be bs (off + 1) 1 / 16 % 4
  | _ => 0

/-- ECN set to CE. -/
def setCe (bs : List Byte) (off : Nat) : List Byte :=
  match be bs off 1 / 16 with
  | 4 => fixV4Sum (overlay bs (off + 1) (leBytes 1 (be bs (off + 1) 1 ||| 3))) off
  | 6 => overlay bs (off + 1) (leBytes 1 (be bs (off + 1) 1 ||| 0x30))
  | _ => bs

/-- TTL or hop limit less one, with its checksum; none when it would reach 0 (R183). -/
def decTtl (bs : List Byte) (off : Nat) : Option (List Byte) :=
  match be bs off 1 / 16 with
  | 4 => if be bs (off + 8) 1 ≤ 1 then none else some (fixV4Sum (overlay bs (off + 8) (leBytes 1 (be bs (off + 8) 1 - 1))) off)
  | 6 => if be bs (off + 7) 1 ≤ 1 then none else some (overlay bs (off + 7) (leBytes 1 (be bs (off + 7) 1 - 1)))
  | _ => some bs

/-! ## Edits (R182, R183) -/

/-- `n` bytes removed at an offset, bytes inserted at an offset. -/
def cutOut (bs : List Byte) (off n : Nat) : List Byte := bs.take off ++ bs.drop (off + n)
def insertAt (bs : List Byte) (off : Nat) (x : List Byte) : List Byte := bs.take off ++ x ++ bs.drop off

/-- A frame has an 802.1Q tag. -/
def tagged (bs : List Byte) : Bool := be bs 12 2 == 0x8100 || be bs 12 2 == 0x88A8

/-- Where the EtherType that follows the tags stands. -/
def etherAt (bs : List Byte) : Nat := if tagged bs then (if be bs 16 2 = 0x8100 then 20 else 16) else 12

/-- The template's bytes with its fixes, for a frame of `len` bytes in all (R182). -/
def templateBytes (t : List Dword) (hash : Word) (rest : List Byte) : List Byte :=
  let n := qb t 0 6 0
  let l3 := qb t 0 22 16
  let l4 := qb t 0 30 24
  let bs := (qwBytes (t.drop 1)).take n ++ rest
  let bs := if bit (qw t 0) 10 then overlay (overlay bs (l4 + 4) (beBytes 2 (bs.length - l4))) (l4 + 6) [0, 0] else bs
  let bs := if bit (qw t 0) 11 then overlay bs l4 (beBytes 2 (0xC000 + hash.toNat % 0x4000)) else bs
  let bs := if bit (qw t 0) 8 then fixV4Sum (overlay bs (l3 + 2) (beBytes 2 (bs.length - l3))) l3 else bs
  if bit (qw t 0) 9 then overlay bs (l3 + 4) (beBytes 2 (bs.length - l3 - 40)) else bs

/-- The edits of R183, in order: none when the packet is dropped. The L3 offset follows what is removed and inserted. -/
def edit (s : State) (p : Pkt) (r : List Dword) : Option (List Byte) :=
  let kind := qb r 2 16 14
  let l3 := layerOff p.pv 2
  let pop := bit (qw r 2) 18 && tagged p.bytes
  let bs := if pop then cutOut p.bytes 12 4 else p.bytes
  let back := fun (o : Option Nat) => if pop then o.map (· - 4) else o
  let l3 := back l3
  let il2 := back (layerOff p.pv 4)
  let il3 := back (layerOff p.pv 5)
  let mpls := be bs (etherAt bs) 2 = 0x8847 ∨ be bs (etherAt bs) 2 = 0x8848
  if (kind = 2 ∧ il2.isNone) ∨ (kind = 3 ∧ ¬ mpls) then none
  else
    let (bs, l3) :=
      if kind = 2 then (bs.drop (il2.getD 0), il3.map (· - il2.getD 0))
      else if kind = 3 then (cutOut bs (etherAt bs + 2) 4, l3.map (· - 4))
      else (bs, l3)
    let dec := if bit (qw r 2) 17 then (match l3 with | some o => decTtl bs o | none => some bs) else some bs
    match dec with
    | none => none
    | some bs =>
      let push := bit (qw r 2) 19
      let bs := if push then insertAt bs 12 (beBytes 2 0x8100 ++ beBytes 2 (qb r 2 47 32)) else bs
      let l3 := if push then l3.map (· + 4) else l3
      let t := padQ (Tbl.getD s.tmpls (qb r 2 13 0) []) 16
      some (if kind = 1 then templateBytes t p.hash bs
            else if kind = 4 then templateBytes t p.hash (bs.drop (l3.getD 0))
            else bs)

/-! ## MACsec (R312 to R314) -/

/-- The key of an SA: octet and PORT, RX, AN, SC as in qword 0 bits 7:0 (R313). -/
def saKey (oct port : Nat) (rx : Bool) (an sc : Nat) : Nat := oct * 256 + port + b2n rx * 8 + an * 16 + sc * 64
def saAt (s : State) (oct port : Nat) (rx : Bool) (an sc : Nat) : Option (List Dword) :=
  (Tbl.get? s.sas (saKey oct port rx an sc)).filter (fun d => bit (qw d 0) 8)

/-- Count in a MACsec statistics counter of a port (R318). -/
def macCount (s : State) (oct port code : Nat) : State :=
  let k := (oct * 8 + port) * 16 + code
  { s with macStat := Tbl.put s.macStat k (Tbl.getD s.macStat k 0 + 1) }

/-- The confidentiality offset of a PORT_CFG word. -/
def confOffset (cfg : Nat) : Nat := match bits cfg 6 5 with | 1 => 30 | 2 => 50 | _ => 0

/-- The nonce of a frame (IEEE 802.1AE, log 27): SCI and PN, or for XPN SSCI and PN exclusive-or SALT. -/
def macNonce (d : List Dword) (pn : Nat) : BitVec 128 :=
  if bit (qw d 0) 9 then
    BitVec.ofNat 128 (leNat (beBytes 4 (qb d 3 31 0) ++ beBytes 8 pn) ^^^ (qw d 4 + qb d 5 31 0 * 2 ^ 64))
  else BitVec.ofNat 128 (leNat (beBytes 8 (qw d 1) ++ beBytes 4 pn))

/-- The key bytes of a slot. -/
def slotKey (s : State) (n : Nat) : List Byte := ((Tbl.get? s.slots n).map (fun k => k.key)).getD []

/-- Protect a frame on transmit (R314): none when it is dropped. -/
def macsecTx (s : State) (port : Nat) (bs : List Byte) : State × Option (List Byte) :=
  let oct := port / 8
  let k := port % 8
  let cfg := s.rd MACSEC.PORT_CFG oct k
  if !bit cfg 0 || !bit cfg 3 then (s, some bs)
  else
    let an := bits cfg 11 10
    match saAt s oct k false an 0 with
    | none => (s, none)
    | some d =>
      let limit := if bit (qw d 0) 9 then 2 ^ 64 - 1 else 2 ^ 32 - 1
      let pn := qw d 2
      if limit ≤ pn then (macCount s oct k 8, none)
      else
        let enc := bit cfg 4
        let sci := bit cfg 7
        let tci := an + b2n enc * 0x0C + b2n sci * 0x20
        let off := confOffset cfg
        let head := bs.take 12 ++ beBytes 2 0x88E5 ++ leBytes 1 tci ++
          leBytes 1 (if bs.length - 12 < 48 then bs.length - 12 else 0) ++ beBytes 4 pn ++
          (if sci then beBytes 8 (qw d 1) else [])
        let body := bs.drop 12
        let clear := if enc then body.take off else body
        let secret := if enc then body.drop off else []
        let (ct, tag) := Config.encrypt 1 (slotKey s (qb d 0 29 10)) (macNonce d pn) (head ++ clear) secret
        let s := { s with sas := Tbl.put s.sas (saKey oct k false an 0) (listSet d 2 (dw (pn + 1))) }
        let s := macCount s oct k 6
        let s := if enc then macCount s oct k 7 else s
        let s := if limit / 4 * 3 ≤ pn + 1 && pn < limit / 4 * 3 then s.istat blkMACSEC oct 1 else s
        (s, some (head ++ clear ++ ct ++ beBytes 16 tag.toNat))

/-- The receive SC and its SA by SCI and AN. -/
def macsecSa (s : State) (oct k sci an : Nat) : Option (Nat × Option (List Dword)) :=
  ((List.range 4).find? (fun sc => (List.range 4).any (fun a =>
    match saAt s oct k true a sc with | some d => qw d 1 == sci | none => false))).map (fun sc => (sc, saAt s oct k true an sc))

/-- Check a received frame (R314): none when it is dropped; otherwise the frame the parser sees. -/
def macsecRx (s : State) (port : Nat) (bs : List Byte) : State × Option (List Byte) :=
  let oct := port / 8
  let k := port % 8
  let cfg := s.rd MACSEC.PORT_CFG oct k
  let strict := bits cfg 2 1 = 2
  if !bit cfg 0 then (s, some bs)
  else if be bs 12 2 ≠ 0x88E5 then
    if bits cfg 2 1 = 0 then (macCount s oct k 5, some bs)
    else (macCount s oct k 4, if strict then none else some bs)
  else
    let tci := be bs 14 1
    let sciIn := bit tci 5
    let hdr := if sciIn then 28 else 20
    let sci := if sciIn then be bs 20 8 else be bs 6 6 * 65536 + 1
    let body := bs.drop hdr
    let bare := bs.take 12 ++ body
    let miss := fun (s : State) (code : Nat) =>
      (macCount s oct k code, if strict then none else some bare)
    if bits cfg 2 1 = 0 then (macCount s oct k 5, some bare)
    else
      match macsecSa s oct k sci (tci % 4) with
      | none => miss s 3
      | some (_, none) => miss s 3
      | some (sc, some d) =>
        let low := qw d 2
        let pn32 := be bs 16 4
        let pn := if bit (qw d 0) 9 then
            (if pn32 < low % 2 ^ 32 ∧ 2 ^ 31 ≤ low % 2 ^ 32 - pn32 then low / 2 ^ 32 * 2 ^ 32 + 2 ^ 32 + pn32
             else low / 2 ^ 32 * 2 ^ 32 + pn32)
          else pn32
        let enc := bit tci 2
        let off := confOffset cfg
        let data := body.take (body.length - 16)
        let clear := if enc then data.take off else data
        let (pt, tag) := Config.decrypt 1 (slotKey s (qb d 0 29 10)) (macNonce d pn) (bs.take hdr ++ clear)
          (if enc then data.drop off else [])
        if bit cfg 8 && pn < low then miss s 2
        else if beBytes 16 tag.toNat ≠ body.drop (body.length - 16) then miss (s.istat blkMACSEC oct 0) 1
        else
          let next := pn + 1 - s.rd MACSEC.REPLAY_WIN oct k
          let s := { s with sas := Tbl.put s.sas (saKey oct k true (tci % 4) sc) (listSet d 2 (dw (max low next))) }
          (macCount s oct k 0, some (bs.take 12 ++ clear ++ pt))

/-! ## Ethernet ports (R82, R86) -/

/-- Count in an EMAC statistics counter of a port (R86). -/
def emacCount (s : State) (port code n : Nat) : State :=
  let k := port * 16 + code
  { s with emacStat := Tbl.put s.emacStat k (Tbl.getD s.emacStat k 0 + dw n) }

/-- The link of an Ethernet port is up. -/
def linkUp (s : State) (port : Nat) : Bool := (Tbl.getD s.octUp (port / 8) []).contains (port % 8)

/-- The pipeline that owns an Ethernet port (R76). -/
def pipeOfEth (s : State) (port : Nat) : Nat := s.rd OCTET.PIPE_MAP (port / 8) % 32

/-- The send work item of a frame asks for its egress stamp (R109). -/
def wantsStamp (s : State) (src : Option (Nat × BitVec 16)) : Bool :=
  match src with
  | some (k, idx) =>
    match (Tbl.get? s.queues k).bind (fun q => q.items.find? (fun i => i.idx == idx)) with
    | some i => bit (entSpec (i.entries.headD [])) 2
    | none => false
  | none => false

/-- A frame is released to an Ethernet port (R117, R177): oversize, link down, or queued there; without TSTAMP its send
work item completes now. -/
def transmit (s : State) (port : Nat) (bs : List Byte) (src : Option (Nat × BitVec 16)) : State :=
  if s.rd EMAC.MAX_FRAME (port / 8) < bs.length then sendFate s src 0x08 0
  else if !linkUp s port then sendFate s src 0x0A 0
  else
    match macsecTx s port bs with
    | (s, none) => sendFate s src 0x09 0
    | (s, some out) =>
      let s := { s with txq := Tbl.put s.txq port (Tbl.getD s.txq port [] ++ [(out, src)]) }
      if wantsStamp s src then
        match src with
        | some (k, idx) => updItem s k idx (fun i => { i with fate := some (0, bs.length), waitPort := some port })
        | none => s
      else sendFate s src 0 bs.length

/-- The first frame of an Ethernet port's queue goes out, stamped and counted; `rest` still waits (R26). -/
def frameOut (s : State) (port : Nat) (bs : List Byte) (rest : List (List Byte × Option (Nat × BitVec 16))) : State :=
  let s := { s with txq := Tbl.put s.txq port rest }
  emacCount (emacCount (s.emit (.frame port bs s.ns)) port 2 1) port 3 bs.length

/-- An ETH_SEND with TSTAMP completes with its frame's stamp (R117). -/
def stampSend (s : State) (k : Nat) (idx : BitVec 16) : State :=
  flushItems (updItem s k idx (fun i => { i with waitPort := none, portStamp := true, stamp := s.ns, trace := s.traceable,
                                                 flags := i.flags ||| 32 })) k

/-- A frame leaves an Ethernet port (R26, R117). -/
def frameLeaves (port : Nat) (s : State) : State :=
  match Tbl.getD s.txq port [] with
  | [] => s
  | (bs, src) :: rest =>
    let s := frameOut s port bs rest
    match src with
    | some (k, idx) => if wantsStamp s src then stampSend s k idx else s
    | none => s

def execFrameSent (port : Fin 1024) (s : State) : Host.Outcome State Fault Refusal := ok (frameLeaves port.val s)

/-! ## Vports (R179, R180, R229) -/

/-- A vport entry of a host port, in the pipeline that owns its octet. -/
def vportKey (pipe port v : Nat) : Nat := (pipe * 128 + port) * 1024 + v
def vportOf (s : State) (port v : Nat) : List Dword := Tbl.getD s.vports (vportKey (pipeOfPort s port) port v) []
def vportValid (e : List Dword) : Bool := bit (qw e 0) 12
def vportFunc (e : List Dword) : Nat := qb e 0 11 0
def vportOwner (e : List Dword) : Nat := ownerIx (qb e 1 11 0) (bit (qw e 0) 60)

/-- A packet that goes to the RDMA engine of a host port (R229): Ethernet, at most one tag, IPv4 or IPv6 without extension
headers, UDP to port 4791. -/
def isRdma (bs : List Byte) : Bool :=
  let at_ := if be bs 12 2 = 0x8100 then 16 else 12
  let l3 := at_ + 2
  match be bs at_ 2 with
  | 0x0800 => be bs (l3 + 9) 1 == 17 && be bs (l3 + be bs l3 1 % 16 * 4 + 2) 2 == 4791
  | 0x86DD => be bs (l3 + 6) 1 == 17 && be bs (l3 + 42) 2 == 4791
  | _ => false

/-- The queue a vport target resolves to (R180). -/
def vportQueue (s : State) (port v : Nat) (r : List Dword) (hash : Word) : Option Nat :=
  let e := vportOf s port v
  if !vportValid e then none
  else
    let st := Tbl.getD s.stbls ((pipeOfPort s port * 1024 + qb e 0 57 48) * 512 + hash.toNat % 512) 0
    let q := if bit (qw r 0) 26 then qb r 0 38 27
      else if bit (qw e 0) 13 && bit st 15 then st % 4096
      else qb e 0 43 32
    let k := fkey port (vportFunc e) * 4096 + q
    match Tbl.get? s.queues k with
    | some x => if x.kind = 1 ∧ (x.state = 1 ∨ x.state = 2 ∨ x.state = 3) then some k else none
    | none => none

/-- A frame counted as dropped at a vport (R180, R187). -/
def queueDrop (s : State) (port : Nat) (p : Pkt) : State :=
  let pipe := pipeOfPort s port
  sendFate ((s.bumpStat SPREAD.QDROP pipe).istat blkSPREAD pipe 1) p.src 0x09 0

/-- A packet for a vport (R180, R229): to the RDMA engine, whose rows take it up, or into a receive queue. -/
def toVport (s : State) (port v : Nat) (r : List Dword) (p : Pkt) (ptype : Nat) : State :=
  if vportValid (vportOf s port v) && isRdma p.bytes then sendFate s p.src 0 p.bytes.length
  else
    match vportQueue s port v r p.hash with
    | none => queueDrop s port p
    | some k => placeFrame s (pipeOfPort s port) k
        { bytes := p.bytes, stamp := p.stamp, trace := p.trace, tsOk := p.tsOk, hash := p.hash, ptype := ptype,
          l3ok := bit (be p.pv 14 1) 5, l4ok := p.l4ok, src := p.src }

/-! ## Pacing (R184) -/

/-- Where a packet goes after edits and pacing: the target as in bits 20:0 of an action record's qword 0. -/
def release (s : State) (p : Pkt) (a : ActSet) : State :=
  match a.fwd with
  | none => s
  | some g =>
    match qb g.recd 0 2 0 with
    | 1 => transmit s (qb g.recd 0 13 4) p.bytes p.src
    | 2 => toVport s (qb g.recd 0 20 14) (qb g.recd 0 13 4) g.recd p a.ptype
    | _ => s

/-- The pacing class of a pipeline. -/
def paceOf (s : State) (pipe cls : Nat) : Pace := Tbl.getD s.paces (pipe * 256 + cls) {}
def setPace (s : State) (pipe cls : Nat) (c : Pace) : State := { s with paces := Tbl.put s.paces (pipe * 256 + cls) c }

/-- R184: pace a packet: released at once, held until its release time, or dropped. -/
def pace (s : State) (pipe : Nat) (p : Pkt) (a : ActSet) : State :=
  match (if p.rdma then some p.cls else a.pace.map (fun g => qb g.recd 1 29 22)) with
  | none => release s p a
  | some cls =>
    let rate := s.rd CLASS.PACE_RATE pipe (2 * cls)
    let burst := s.rd CLASS.PACE_BURST pipe (2 * cls) * 65536
    let c := paceOf s pipe cls
    if rate = 0 then release s p a
    else if s.rd CLASS.PACE_DEPTH pipe ≤ c.held.length then sendFate (s.bumpStat CLASS.PACEDROP pipe) p.src 0x09 0
    else
      let t := max c.next (s.now - burst)
      let rel := max t s.now
      let next := t + p.bytes.length * rate
      if rel ≤ s.now ∧ c.held.isEmpty then release (setPace s pipe cls { c with next := next }) p a
      else
        let at_ := (rel + 65535) / 65536
        let (s, ok) := s.schedule pipe at_ blkCLASS 1 cls
        if ok then setPace s pipe cls { next := next, held := c.held ++ [(at_, p, a)] }
        else sendFate (s.bumpErr blkCLASS pipe 3) p.src 0x09 0

/-- A pacing deadline fires: the class's oldest packet leaves (R184). -/
def paceFire (s : State) (pipe cls : Nat) : State :=
  let c := paceOf s pipe cls
  match c.held with
  | [] => s
  | (_, p, a) :: rest => release (setPace s pipe cls { c with held := rest }) p a

def execPaceRelease (pipe : Fin 32) (cls : Fin 256) (s : State) : Host.Outcome State Fault Refusal :=
  ok (match s.pendingEvent pipe.val blkCLASS 1 cls.val with
    | some e => paceFire (s.fireEvent pipe.val e) pipe.val cls.val
    | none => s)

/-- The egress pipeline of a resolved target. -/
def egressPipe (s : State) (r : List Dword) : Nat :=
  if qb r 0 2 0 = 2 then pipeOfPort s (qb r 0 20 14) else pipeOfEth s (qb r 0 13 4)

/-- R174 step 8 in the egress pipeline: EDIT, PACE, then out. -/
def egress (s : State) (p : Pkt) (a : ActSet) : State :=
  let pipe := match a.fwd with | some g => egressPipe s g.recd | none => 0
  match a.edit with
  | none => pace s pipe p a
  | some g =>
    match edit s p g.recd with
    | none => sendFate (s.bumpStat CLASS.EDITDROP pipe) p.src 0x09 0
    | some bs => pace s pipe { p with bytes := bs } a

end Sys2Proof.Machine
end

