-- ==== Sys2Proof/Machine/Packet.lean ====
section
/-! DEFINITION. A packet in its ingress pipeline: source words, keys, lookup programs, merging, hashing, carrying the
action set out, malformed packets and fragments (R154 to R185, R208, R331, R366, R367). -/

namespace Sys2Proof.Machine

/-! ## Source words (R167, R170) -/

/-- Source word `w` of a packet, but for the range bits. -/
def baseWord (p : Pkt) (w : Nat) : Nat :=
  if w < 64 then be p.pv (2 * w) 2
  else
    match w with
    | 80 => p.inPort
    | 81 => p.inHost
    | 82 => if p.owner = 4096 then 0x8000 else p.owner
    | 83 => be p.pv 13 1 % 16 + b2n p.second * 256 + b2n p.rdma * 512
    | 84 => p.bytes.length
    | _ => 0

/-- A comparator sets its range bit (R170). -/
def rangeHit (p : Pkt) (e : Nat) : Bool :=
  let v := baseWord p (e % 128) / 2 ^ bits e 11 8 &&& bits e 31 16
  bit e 7 && bits e 47 32 ≤ v && v ≤ bits e 63 48

/-- A word of range bits. -/
def rangeWord (s : State) (pipe : Nat) (p : Pkt) (i : Nat) : Nat :=
  ((List.range 16).map (fun k => b2n (rangeHit p (Tbl.getD s.ranges (pipe * 256 + 16 * i + k) (0 : Dword)).toNat) * 2 ^ k)).sum

/-- Source word `w` (R167). -/
def srcWord (s : State) (pipe : Nat) (p : Pkt) (w : Nat) : Nat :=
  if 64 ≤ w ∧ w < 80 then rangeWord s pipe p (w - 64) else baseWord p w

/-! ## Keys and lookups (R168, R169) -/

/-- The selectors of a key profile. -/
def keySel (s : State) (pipe prof : Nat) : List Byte := Tbl.getD s.keyProf (pipe * 64 + prof) []

/-- The key a profile builds: selector i fills bits 16i + 15 to 16i. -/
def buildKey (s : State) (pipe prof : Nat) (p : Pkt) : Nat :=
  (((keySel s pipe prof).zipIdx).map (fun x =>
    if bit x.1.toNat 7 then srcWord s pipe p (x.1.toNat % 128) * 2 ^ (16 * x.2) else 0)).sum

/-- A profile with a VALID selector among 8 to 27 builds a wide exact-match key (R190). -/
def wideKey (s : State) (pipe prof : Nat) : Bool := (((keySel s pipe prof).take 28).drop 8).any (fun b => bit b.toNat 7)

/-- The steps of a lookup program: TABLE and KEYPROF (R169, R186). -/
def program (s : State) (pipe prof : Nat) : List (Nat × Nat) :=
  (List.range 6).map (fun j =>
    let w := s.rd CLASS.PROG pipe (4 * prof + j / 2) / 65536 ^ (j % 2)
    (w % 16, bits w 9 4))

/-- The hits of a program, in step order; FINAL ends it (R169, R171). -/
def runProgram (pipe : Nat) (p : Pkt) : List (Nat × Nat) → State → List Hit × State
  | [], s => ([], s)
  | (t, kp) :: rest, s =>
    if t = 0 then runProgram pipe p rest s
    else
      match lookup s t (buildKey s pipe kp p) (wideKey s pipe kp) p.stamp with
      | (none, s) => runProgram pipe p rest s
      | (some h, s) =>
        if h.final then ([h], s)
        else
          let r := runProgram pipe p rest s
          (h :: r.1, r.2)

/-! ## Merging (R173) -/

/-- The hit that supplies a group: the highest PRIO among those that carry it, the earlier step on a tie. -/
def supplier (hits : List Hit) (has : List Dword → Bool) : Option Hit :=
  hits.foldl (fun a h =>
    if !has h.recd then a
    else match a with
      | some b => if b.prio < h.prio then some h else some b
      | none => some h) none

/-- The group a hit supplies. -/
def grpOf (h : Option Hit) : Option Grp := h.map (fun h => { owner := h.owner, recd := h.recd })

/-- The action set of a list of hits (R173). -/
def mergeHits (hits : List Hit) : ActSet :=
  let fwd := supplier hits (fun r => qb r 0 2 0 != 0)
  { fwd := grpOf fwd,
    police := grpOf (supplier hits (fun r => bit (qw r 1) 16)),
    count := grpOf (supplier hits (fun r => bit (qw r 1) 21)),
    learn := grpOf (supplier hits (fun r => bit (qw r 1) 52)),
    mirror := grpOf (supplier hits (fun r => bit (qw r 1) 51)),
    cores := grpOf (supplier hits (fun r => bit (qw r 1) 39)),
    cipher := grpOf (supplier hits (fun r => bit (qw r 3) 20)),
    edit := grpOf (supplier hits (fun r => qb r 2 19 14 != 0)),
    pace := grpOf (supplier hits (fun r => bit (qw r 1) 30)),
    ptype := match fwd with | some h => h.ptype | none => 0 }

/-! ## Hashing (R178) -/

/-- The input of a hash profile. -/
def hashInput (s : State) (pipe prof : Nat) (p : Pkt) : List Byte :=
  (Tbl.getD s.hprofs prof []).flatMap (fun b => if bit b.toNat 7 then beBytes 2 (srcWord s pipe p (b.toNat % 128)) else [])

/-- The Toeplitz hash of bytes under a 40-byte key; a key never written is all zero (log 3). -/
def toeplitz (key input : List Byte) : Word :=
  let k := beNat key * 2 ^ (8 * (40 - key.length))
  (List.range (8 * input.length)).foldl (fun h i =>
    if bit (be input (i / 8) 1) (7 - i % 8) then h ^^^ w32 (k / 2 ^ (320 - 32 - i)) else h) 0

/-- H of a packet with its FWD group's profile and kind; 0 without a FWD group (log 28). -/
def spreadHash (s : State) (pipe : Nat) (p : Pkt) (a : ActSet) : Word :=
  match a.fwd with
  | none => 0
  | some g =>
    let inp := hashInput s pipe (qb g.recd 0 24 21) p
    if bit (qw g.recd 0) 25 then crc32c 0xFFFFFFFF inp else toeplitz (Tbl.getD s.tkeys p.owner (List.replicate 40 0)) inp

/-- Classification: the action set and H, counted in CLS. -/
def classify (s : State) (pipe : Nat) (p : Pkt) : ActSet × Pkt × State :=
  let r := runProgram pipe p (program s pipe (be p.pv 13 1 % 8)) (s.bumpStat CLASS.CLS pipe)
  let a := mergeHits r.1
  (a, { p with hash := spreadHash r.2 pipe p a }, r.2)

/-! ## Owner checks (R175) -/

/-- A group of an owner may name a resource of that owner or of the provider. -/
def mayName (g : Grp) (x : Nat) : Bool := g.owner == 4096 || x == 4096 || x == g.owner

/-- The owner of a policer (R366); the provider where none was written. -/
def policerOwner (s : State) (i : Nat) : Nat :=
  match entryAt s 9 i with | some e => ownerOfVal (qw e.data 1) | none => 4096

/-- A FWD group names a vport it may not name; a vport that is not VALID has no owner (log 28). -/
def fwdForeign (s : State) (g : Grp) : Bool :=
  let e := vportOf s (qb g.recd 0 20 14) (qb g.recd 0 13 4)
  qb g.recd 0 2 0 == 2 && vportValid e && !mayName g (vportOwner e)

/-- A CIPHER group names a slot it may not name; a slot that is not VALID fails in the engine. -/
def slotForeign (s : State) (g : Grp) : Bool :=
  match Tbl.get? s.slots (qb g.recd 3 19 0) with | some k => !mayName g k.owner | none => false

/-- R175: discard the groups that name what they may not; the Bool: the packet is dropped. -/
def checkOwners (s : State) (pipe : Nat) (a : ActSet) : State × ActSet × Bool :=
  let bad := fun (g : Option Grp) (p : Grp → Bool) => match g with | some g => p g | none => false
  let pol := bad a.police (fun g => !mayName g (policerOwner s (qb g.recd 1 15 0)))
  let cip := bad a.cipher (slotForeign s)
  let fwd := bad a.fwd (fwdForeign s)
  let n := b2n pol + b2n cip + b2n fwd
  let s := if n = 0 then s else (s.bumpErr blkCLASS pipe 1 n).istat blkCLASS pipe 0
  (s, { a with police := if pol then none else a.police }, cip || fwd)

/-! ## Carrying out (R174) -/

/-- The bucket of a policer: tokens in 2^-8 B. -/
def tokensOf (s : State) (i : Nat) : Nat := (Tbl.getD s.met.pol i ((0, 0) : Nat × Nat)).1

/-- A charge of LEN bytes to a policer: whether it conforms (R367). -/
def policeCharge (s : State) (i len : Nat) : State × Bool :=
  let inst := i / 2048
  match (entryAt s 9 i).filter (fun e => bit (qw e.data 1) 13 && e.live) with
  | none => ((s.bumpErr blkMETER inst 2).bumpStat METER.CONFORM inst, true)
  | some _ =>
    if 256 * len ≤ tokensOf s i then
      let t := Tbl.getD s.met.pol i ((0, 0) : Nat × Nat)
      ({ s with met := { s.met with pol := Tbl.put s.met.pol i (t.1 - 256 * len, t.2) } }.bumpStat METER.CONFORM inst, true)
    else (s.bumpStat METER.EXCEED inst, false)

/-- R174 step 1: the packet, marked perhaps; none when it is dropped. -/
def police (s : State) (pipe : Nat) (p : Pkt) (a : ActSet) : State × Option Pkt :=
  match a.police with
  | none => (s, some p)
  | some g =>
    let i := qb g.recd 1 15 0
    match policeCharge s i p.bytes.length with
    | (s, true) => (s, some p)
    | (s, false) =>
      let l3 := layerOff p.pv 2
      let ect := match l3 with | some o => ecnOf p.bytes o == 1 || ecnOf p.bytes o == 2 | none => false
      let ce := match l3 with | some o => ecnOf p.bytes o == 3 | none => false
      if bit (qw g.recd 1) 17 && ect then (s, some { p with bytes := setCe p.bytes (l3.getD 0) })
      else if bit (qw g.recd 1) 17 && ce then (s, some p)
      else
        let x := policerOwner s i
        let s := charge (s.bumpStat CLASS.POLDROP pipe) pipe x 16 1 p.stamp
        (charge s pipe x 17 p.bytes.length p.stamp, none)

/-- Step 2: TC is charged to TENANT's meters. -/
def countStep (s : State) (pipe : Nat) (p : Pkt) (a : ActSet) : State :=
  match a.count with
  | none => s
  | some g =>
    let tc := qb g.recd 1 20 18
    charge (charge s pipe p.owner tc p.bytes.length p.stamp) pipe p.owner (8 + tc) 1 p.stamp

/-- Step 3 (R208). -/
def learnStep (s : State) (pipe : Nat) (p : Pkt) (a : ActSet) : State :=
  match a.learn with
  | none => s
  | some _ =>
    let key := buildKey s pipe (s.rd LEARN.LRN_CFG % 64) p
    let src := p.inPort % 1024 + p.inHost % 128 * 2 ^ 10 + b2n (bit p.inPort 12) * 2 ^ 17
    learnSource s [dw key, dw (key / 2 ^ 64)] src p.owner

/-- Step 4: a copy of the packet as received, cut, to MIRROR_PORT. -/
def mirrorStep (s : State) (pipe : Nat) (received : List Byte) (a : ActSet) : State :=
  match a.mirror with
  | none => s
  | some g => transmit s (qb g.recd 1 50 41) (received.take (s.rd CLASS.MIRROR_TRUNC pipe)) none

/-- The descriptor cell of a packet item (R331). -/
def descriptorCell (s : State) (pipe : Nat) (p : Pkt) : List Byte :=
  p.pv ++ (List.range 24).flatMap (fun i => leBytes 2 (srcWord s pipe p (64 + i))) ++ leBytes 8 p.stamp ++ leBytes 1 (b2n p.trace) ++
    List.replicate 71 0

/-- Deliver a packet to a work group of the Proofer (R330, R331): whether it was taken. -/
def deliverPkt (s : State) (pipe : Nat) (p : Pkt) (type group ptype cause : Nat) : State × Bool :=
  match allocCells s (1 + (p.bytes.length + 255) / 256) with
  | none => (s, false)
  | some (c, t) =>
    let t := (t.memPut (cellAddr c) (descriptorCell s pipe p)).memPut (cellAddr (c + 1)) p.bytes
    match deliver t group type p.owner p.hash.toNat 0 (c + p.bytes.length * 2 ^ 20 + pipe * 2 ^ 34)
        (p.hash.toNat + ptype * 2 ^ 32 + cause * 2 ^ 48) with
    | (t, true) => (t, true)
    | (t, false) => (freeCells t c, false)

/-- The path group entry a packet takes (R181): entries passed over, and the Ethernet port. -/
def pathPick (s : State) (group start : Nat) : Nat → Nat → Nat × Option Nat
  | 0, k => (k, none)
  | f + 1, k =>
    let e := Tbl.getD s.pgrps (group * 256 + (start + k) % 256) 0
    if bit e 15 && linkUp s (e % 1024) then (k, some (e % 1024)) else pathPick s group start f (k + 1)

/-- Step 8: resolve the target and pass the packet to the egress pipeline (R180, R181). -/
def forwardStep (s : State) (pipe : Nat) (p : Pkt) (a : ActSet) : State :=
  match a.fwd with
  | none => s
  | some g =>
    if qb g.recd 0 2 0 ≠ 3 then egress s p a
    else
      let start := if p.rdma then be p.bytes ((layerOff p.pv 3).getD 0 + 1) 1 else p.hash.toNat % 256
      let (k, port) := pathPick s (qb g.recd 0 13 4) start 256 0
      let s := if k = 0 then s else s.bumpStat SPREAD.SKIP pipe k
      match port with
      | none => sendFate ((s.bumpStat SPREAD.PDROP pipe).istat blkSPREAD pipe 0) p.src 0x09 0
      | some port => egress s p { a with fwd := some { g with recd := listSet g.recd 0 (dw (1 + port * 16)) } }

/-- Steps 6 to 8. -/
def moveOn (s : State) (pipe : Nat) (p : Pkt) (a : ActSet) : State :=
  match a.fwd with
  | none => sendFate (s.bumpStat CLASS.NOFWD pipe) p.src 0x09 0
  | some g =>
    if qb g.recd 0 2 0 = 4 then sendFate s p.src 0x09 0
    else
      match a.cipher with
      | none => forwardStep s pipe p a
      | some c =>
        let dec := bit (qw c.recd 3) 21
        if dec && p.second then forwardStep (s.bumpErr blkCLASS pipe 2) pipe p a
        else submitPacketJob s pipe { qws := [], prio := qb c.recd 3 24 22, slot := qb c.recd 3 19 0, pipe := some pipe,
                                      pkt := some (p, a), decrypt := dec }

/-- Carry an action set out (R174, R175). -/
def carry (s : State) (pipe : Nat) (p : Pkt) (a : ActSet) : State :=
  let (s, a, drop) := checkOwners s pipe a
  match police s pipe p a with
  | (s, none) => sendFate s p.src 0x09 0
  | (s, some q) =>
    let s := mirrorStep (learnStep (countStep s pipe q a) pipe q a) pipe p.bytes a
    let refuse := fun (s : State) => s.bumpErr blkCLASS pipe 0
    match a.cores with
    | none => if drop then sendFate s p.src 0x09 0 else moveOn s pipe q a
    | some g =>
      let copy := bit (qw g.recd 1) 40
      match deliverPkt s pipe q (if copy then 0x02 else 0x01) (qb g.recd 1 38 31) a.ptype 0 with
      | (s, true) => if !copy then sendFate s p.src 0 q.bytes.length
                     else if drop then sendFate s p.src 0x09 0 else moveOn s pipe q a
      | (s, false) => if !copy then sendFate ((refuse s).istat blkCLASS pipe 1) p.src 0x09 0
                      else if drop then sendFate (refuse s) p.src 0x09 0 else moveOn (refuse s) pipe q a

/-- Classify and carry out. -/
def classifyAndCarry (s : State) (pipe : Nat) (p : Pkt) : State :=
  let (a, p, s) := classify s pipe p
  carry s pipe p a

/-! ## Fragments (R162 to R164) -/

/-- An exception delivery for a packet: its sender is told; refused, the packet is dropped (R156, R163). -/
def exception (s : State) (pipe : Nat) (p : Pkt) (type group ptype cause : Nat) : State × Bool :=
  match deliverPkt s pipe p type group ptype cause with
  | (s, true) => (sendFate s p.src 0 p.bytes.length, true)
  | (s, false) => (sendFate ((s.bumpErr blkPARSE pipe 0).istat blkPARSE pipe 1) p.src 0x09 0, false)

/-- A fragment goes to the EXC_GROUP of the FRAG page. -/
def fragException (s : State) (pipe : Nat) (p : Pkt) (ptype cause : Nat) : State :=
  (exception s pipe p 0x04 (s.rd FRAG.EXC_GROUP % 256) ptype cause).1

/-- The key of a fragment (R162). -/
def fragKey (p : Pkt) (f : FragPt) : List Byte :=
  leBytes 2 p.owner ++ (if f.v6 then cut p.bytes (f.l3 + 8) 32 else cut p.bytes (f.l3 + 12) 8) ++ leBytes 1 f.proto ++ beBytes 4 f.id

/-- The lowest free entry of the table. -/
def fragFree (s : State) : Option Nat :=
  (List.range (s.frags.length + 1)).find? (fun n => decide (n < 8192) && (Tbl.get? s.frags n).isNone)

/-- Fragments parked in the device. -/
def fragParked (s : State) : Nat := (s.frags.map (fun f => f.2.parked.length)).sum

/-- The table is full (R163). -/
def fragFull (s : State) (pipe : Nat) (p : Pkt) (ptype : Nat) : State :=
  fragException ((s.bumpStat FRAG.FULL 0).istat blkFRAG 0 0) pipe p ptype 1

/-- A fragment follows a decision (R163). -/
def follow (s : State) (pipe : Nat) (p : Pkt) (d : ActSet × Word) : State :=
  let st := be p.pv 15 1 ||| 4
  carry (s.bumpStat FRAG.FOLLOWED 0) pipe { p with pv := overlay p.pv 15 (leBytes 1 st), hash := d.2 } d.1

/-- Schedule the expiry of an entry. -/
def fragLife (s : State) (pipe n last : Nat) : State × Bool :=
  s.schedule pipe (last + s.rd FRAG.FRAG_LIFE * 1000) blkFRAG 2 n

/-- A fragment meets the table (R163). -/
def fragment (s : State) (pipe : Nat) (p : Pkt) (f : FragPt) : State :=
  let key := fragKey p f
  match s.frags.find? (fun e => e.2.key == key) with
  | none =>
    match fragFree s, f.first with
    | none, true =>
      let (a, q, s) := classify s pipe p
      fragFull s pipe q a.ptype
    | none, false => fragFull s pipe p 0
    | some n, true =>
      let (a, q, s) := classify s pipe p
      match fragLife s pipe n p.stamp with
      | (s, true) => carry { s with frags := Tbl.put s.frags n { owner := p.owner, key := key, decided := some (a, q.hash),
                                                                 last := p.stamp, pipe := pipe } } pipe q a
      | (s, false) => carry (s.bumpErr blkFRAG 0 1) pipe q a
    | some n, false =>
      if 2048 ≤ fragParked s then fragException (s.bumpErr blkFRAG 0 2) pipe p 0 3
      else
        match s.schedule pipe (p.stamp + s.rd FRAG.FRAG_PARK * 1000) blkFRAG 1 n with
        | (s, true) => { s with frags := Tbl.put s.frags n { owner := p.owner, key := key, parked := [p], pipe := pipe } }
        | (s, false) => fragException (s.bumpErr blkFRAG 0 1) pipe p 0 3
  | some (n, e) =>
    match e.decided, f.first with
    | some d, false =>
      follow { s with frags := Tbl.put s.frags n { e with last := p.stamp } } pipe p d
    | some _, true =>
      let (a, q, s) := classify s pipe p
      carry { s with frags := Tbl.put s.frags n { e with decided := some (a, q.hash), last := p.stamp } } pipe q a
    | none, false =>
      if 16 ≤ e.parked.length ∨ 2048 ≤ fragParked s then fragException (s.bumpErr blkFRAG 0 2) pipe p 0 3
      else { s with frags := Tbl.put s.frags n { e with parked := e.parked ++ [p] } }
    | none, true =>
      let (a, q, s) := classify s pipe p
      let s := s.cancelAll blkFRAG 1 n
      let (s, ok) := fragLife s pipe n p.stamp
      let s := if ok then { s with frags := Tbl.put s.frags n { e with decided := some (a, q.hash), last := p.stamp, parked := [] } }
               else { s with frags := Tbl.del s.frags n }.bumpErr blkFRAG 0 1
      e.parked.foldl (fun s x => follow s e.pipe x (a, q.hash)) (carry s pipe q a)

/-- A park deadline fires (R163): the parked fragments go to the exception queue. -/
def fragParkFire (s : State) (n : Nat) : State :=
  match Tbl.get? s.frags n with
  | none => s
  | some e =>
    let s := { s with frags := Tbl.del s.frags n }
    let s := (s.bumpStat FRAG.PARK_TO 0 e.parked.length).istat blkFRAG 0 1
    e.parked.foldl (fun s p => fragException s e.pipe p 0 2) s

/-- An expiry fires (R163): the entry is freed, or expiry is scheduled again from LAST. -/
def fragLifeFire (s : State) (n : Nat) : State :=
  match Tbl.get? s.frags n with
  | none => s
  | some e =>
    if e.last + s.rd FRAG.FRAG_LIFE * 1000 ≤ s.ns then { s with frags := Tbl.del s.frags n }.bumpStat FRAG.EXPIRED 0
    else
      match fragLife s e.pipe n e.last with
      | (s, true) => s
      | (s, false) => { s with frags := Tbl.del s.frags n }.bumpErr blkFRAG 0 1

def execFragParkExpiry (entry : Nat) (s : State) : Host.Outcome State Fault Refusal :=
  ok (match s.anyEvent blkFRAG 1 entry with
    | some (n, e) => fragParkFire (s.fireEvent n e) entry
    | none => s)

def execFragLifeExpiry (entry : Nat) (s : State) : Host.Outcome State Fault Refusal :=
  ok (match s.anyEvent blkFRAG 2 entry with
    | some (n, e) => fragLifeFire (s.fireEvent n e) entry
    | none => s)

/-- R163, R166: every entry of an owner is freed. -/
def fragFlush (s : State) (x : Nat) : State :=
  (s.frags.filter (fun f => f.2.owner == x)).foldl (fun (s : State) (f : Nat × Frag) =>
    let s := (s.cancelAll blkFRAG 1 f.1).cancelAll blkFRAG 2 f.1
    let s := { s with frags := Tbl.del s.frags f.1 }
    let s := if f.2.parked.isEmpty then s else s.bumpErr blkFRAG 0 0 f.2.parked.length
    f.2.parked.foldl (fun (s : State) (p : Pkt) => sendFate s p.src 0x09 0) s) s

def cmdFragFlush (c : CmdCtx) (s : State) : CmdRes :=
  ckArgs c s 0x80000FFF 0xFFFFFFFF <| .done (fragFlush s (ownerIx (c.a0 % 4096) (bit c.a0 31)))

def execFragFlushTenant (c : CmdIn) (s : State) : Host.Outcome State Fault Refusal := ok (pageCommand blkFRAG 0x01 cmdFragFlush c s)

/-! ## The walk and what follows (R155, R156, R165) -/

/-- A malformed packet (R155, R156). -/
def malformedPkt (s : State) (pipe : Nat) (p : Pkt) (cause : Nat) : State :=
  let id := p.inPort % 1024 + b2n (bit p.inPort 12) * 1024
  let k := (pipe * 2048 + id) * 16 + cause
  let cfg := s.rd PARSE.PROF_CFG pipe (be p.pv 13 1 % 8)
  let s := { s with malCnt := Tbl.put s.malCnt k (Tbl.getD s.malCnt k 0 + 1) }.istat blkPARSE pipe 0
  let s := charge s pipe p.owner 39 1 p.stamp
  match bits cfg 9 8 with
  | 1 =>
    match exception s pipe p 0x03 (bits cfg 23 16) 0 cause with
    | (s, true) => s.bumpStat PARSE.EXC pipe
    | (s, false) => s
  | 2 => classifyAndCarry s pipe p
  | _ => sendFate s p.src 0x09 0

/-- A packet walks in its ingress pipeline under a port profile (R147 to R165), then meets the fragment table or the
classifier. -/
def walkPkt (s : State) (pipe prof : Nat) (p : Pkt) : State :=
  let r := parse s pipe prof p.bytes
  let p := { p with pv := r.pv, l4ok := !r.l4.isEmpty && r.l4.all id }
  let s := s.bumpStat PARSE.PKTS pipe
  let bad := (r.l4.filter (fun b => !b)).length
  let s := if bad = 0 then s else s.bumpStat PARSE.L4BAD pipe bad
  if r.cause ≠ 0 then malformedPkt s pipe p r.cause
  else
    match r.frag with
    | some f => fragment s pipe p f
    | none => classifyAndCarry s pipe p

/-- The tenant of an Ethernet port (R167, R189): from the port table; the provider where no live entry names one. -/
def ethOwner (s : State) (port : Nat) : Nat :=
  match (entryAt s 2 port).filter Entry.live with
  | some e => ownerOfVal (qw e.data 1)
  | none => 4096

/-- A packet received on an Ethernet port enters its pipeline. -/
def ingressEth (s : State) (port : Nat) (bs : List Byte) (trace : Bool) (src : Option (Nat × BitVec 16)) : State :=
  let pipe := pipeOfEth s port
  walkPkt s pipe (profOf s pipe false port)
    { bytes := bs, inPort := port, inHost := 0, owner := ethOwner s port, stamp := s.ns, trace := trace, tsOk := src.isNone, src := src }

/-- A packet that enters on a vport of a host port. -/
def ingressVport (s : State) (port v : Nat) (bs : List Byte) (rdma : Bool) (src : Option (Nat × BitVec 16)) : State :=
  let pipe := pipeOfPort s port
  let e := vportOf s port v
  walkPkt s pipe (profOf s pipe true v)
    { bytes := bs, inPort := v + 4096, inHost := port, owner := if vportValid e then vportOwner e else 4096, stamp := s.ns,
      trace := s.traceable, tsOk := false, rdma := rdma, src := src }

/-! ## Frames from the wire (R26, R83, R86, R312) -/

/-- A MAC control PAUSE or priority flow control frame (R83). -/
def isPause (bs : List Byte) : Bool := be bs 12 2 == 0x8808 && (be bs 14 2 == 0x0001 || be bs 14 2 == 0x0101)

/-- A frame arrives on an Ethernet port, its FCS removed: `ovf` when the pipeline is overloaded by small frames (R2). -/
def ethRx (port : Nat) (bs : List Byte) (fcsOk ovf : Bool) (s : State) : State :=
  if !linkUp s port then s
  else
    let n := bs.length
    let s := emacCount (emacCount s port 0 1) port 1 n
    if n + 4 < 64 then emacCount s port 6 1
    else if s.rd EMAC.MAX_FRAME (port / 8) < n then emacCount s port 5 1
    else if !fcsOk then emacCount s port 4 1
    else if isPause bs then emacCount s port 0xA 1
    else if ovf && n + 4 < 96 then emacCount s port 9 1
    else
      match macsecRx s port bs with
      | (s, none) => s
      | (s, some bs) =>
        ingressEth s port bs (s.traceable && bit (s.rd OCTET.LANE_CALSTAT (port / 8)) (port % 8)) none

def execEthFrameRx (port : Fin 1024) (frame : List Byte) (fcsOk ovf : Bool) (dt : Nat) (s : State) :
    Host.Outcome State Fault Refusal :=
  ok (ethRx port.val frame fcsOk ovf (s.pass dt))

end Sys2Proof.Machine
end

