-- ==== Sys2Proof/Machine/PipeCmds.lean ====
section
/-! DEFINITION. The commands of the CLASS and SPREAD pages: key profiles, comparators, records, templates, hash profiles and
keys, path groups, spread tables, vports (R168, R170, R172, R178 to R182, R186, R187). -/

namespace Sys2Proof.Machine

/-- An argument that a command does not take. -/
def anyArg : Nat := 0xFFFFFFFF

/-- A reserved bit of a data qword is set: the qwords' masks of bits in use. -/
def qwRsvd (d : List Dword) (masks : List Nat) : Bool := (masks.zipIdx).any (fun m => qw d m.2 &&& m.1 != qw d m.2)

/-- Selector bytes out of range: WORD above 87 (R168, R178). -/
def badWords (bs : List Byte) : Bool := bs.any (fun b => decide (87 < b.toNat % 128))

/-! ## CLASS (R186) -/

def cmdKeyprofWrite (c : CmdCtx) (s : State) : CmdRes :=
  ckArgs c s 0x3F anyArg <|
    let bs := (qwBytes c.d).take 40
    if badWords bs then .fail s 0x02 else .done { s with keyProf := Tbl.put s.keyProf (c.inst * 64 + c.a0) bs }

def cmdKeyprofRead (c : CmdCtx) (s : State) : CmdRes :=
  ckArgs c s 0x3F anyArg <| .data s (bytesQw (keySel s c.inst c.a0) 8)

def cmdRangeWrite (c : CmdCtx) (s : State) : CmdRes :=
  ckArgs c s 0xFF anyArg <|
    let w := qb c.d 0 6 0
    if qb c.d 0 15 12 ≠ 0 then .fail s 0x03
    else if 64 ≤ w ∧ w < 80 ∨ 87 < w then .fail s 0x02
    else .done { s with ranges := Tbl.put s.ranges (c.inst * 256 + c.a0) (c.d.getD 0 0) }

def cmdRangeRead (c : CmdCtx) (s : State) : CmdRes :=
  ckArgs c s 0xFF anyArg <| .data s [Tbl.getD s.ranges (c.inst * 256 + c.a0) 0]

/-- The bits of an action record in use (R172). -/
def arecMask : List Nat := [0x7FFFFFFFF7, 0x1FFFFFFFFFFFFF, 0xFFFF000FFFFF, 0x1FFFFFF]

def cmdArecWrite (c : CmdCtx) (s : State) : CmdRes :=
  ckArgs c s 0xFFFF anyArg <|
    if qwRsvd c.d arecMask then .fail s 0x03
    else if c.a0 = 0 ∨ 4 < qb c.d 0 2 0 ∨ 4 < qb c.d 2 16 14 then .fail s 0x02
    else .done { s with arecs := Tbl.put s.arecs c.a0 (padQ c.d 4) }

def cmdArecRead (c : CmdCtx) (s : State) : CmdRes :=
  ckArgs c s 0xFFFF anyArg <| if c.a0 = 0 then .fail s 0x02 else .data s (padQ (Tbl.getD s.arecs c.a0 []) 8)

def cmdTmplWrite (c : CmdCtx) (s : State) : CmdRes :=
  ckArgs c s 0x3FFF 0x1 <|
    let first := c.a1 = 0
    if first ∧ qwRsvd c.d [0x7F7F0F7F] then .fail s 0x03
    else if first ∧ 120 < qb c.d 0 6 0 then .fail s 0x02
    else
      let old := padQ (Tbl.getD s.tmpls c.a0 []) 16
      .done { s with tmpls := Tbl.put s.tmpls c.a0 (if first then padQ c.d 8 ++ old.drop 8 else old.take 8 ++ padQ c.d 8) }

def cmdTmplRead (c : CmdCtx) (s : State) : CmdRes :=
  ckArgs c s 0x3FFF 0x1 <| .data s (((padQ (Tbl.getD s.tmpls c.a0 []) 16).drop (8 * c.a1)).take 8)

def execKeyprofWrite (c : CmdIn) (s : State) : Host.Outcome State Fault Refusal := ok (pageCommand blkCLASS 0x01 cmdKeyprofWrite c s)
def execRangeWrite (c : CmdIn) (s : State) : Host.Outcome State Fault Refusal := ok (pageCommand blkCLASS 0x02 cmdRangeWrite c s)
def execArecWrite (c : CmdIn) (s : State) : Host.Outcome State Fault Refusal := ok (pageCommand blkCLASS 0x03 cmdArecWrite c s)
def execTmplWrite (c : CmdIn) (s : State) : Host.Outcome State Fault Refusal := ok (pageCommand blkCLASS 0x04 cmdTmplWrite c s)
def execKeyprofRead (c : CmdIn) (s : State) : Host.Outcome State Fault Refusal := ok (pageCommand blkCLASS 0x11 cmdKeyprofRead c s)
def execRangeRead (c : CmdIn) (s : State) : Host.Outcome State Fault Refusal := ok (pageCommand blkCLASS 0x12 cmdRangeRead c s)
def execArecRead (c : CmdIn) (s : State) : Host.Outcome State Fault Refusal := ok (pageCommand blkCLASS 0x13 cmdArecRead c s)
def execTmplRead (c : CmdIn) (s : State) : Host.Outcome State Fault Refusal := ok (pageCommand blkCLASS 0x14 cmdTmplRead c s)

/-! ## SPREAD (R187) -/

def cmdHprofWrite (c : CmdCtx) (s : State) : CmdRes :=
  ckArgs c s 0xF anyArg <|
    let bs := (qwBytes c.d).take 18
    if badWords bs then .fail s 0x02 else .done { s with hprofs := Tbl.put s.hprofs c.a0 bs }

def cmdHprofRead (c : CmdCtx) (s : State) : CmdRes := ckArgs c s 0xF anyArg <| .data s (bytesQw (Tbl.getD s.hprofs c.a0 []) 8)

def cmdTkeyWrite (c : CmdCtx) (s : State) : CmdRes :=
  ckArgs c s 0x80000FFF anyArg <|
    .done { s with tkeys := Tbl.put s.tkeys (ownerIx c.a0 (bit c.a0 31)) ((qwBytes c.d).take 40) }

def cmdTkeyRead (c : CmdCtx) (s : State) : CmdRes :=
  ckArgs c s 0x80000FFF anyArg <| .data s (bytesQw (Tbl.getD s.tkeys (ownerIx c.a0 (bit c.a0 31)) []) 8)

/-- 32 entries of 16 bits each as the data of a command carries them. -/
def halfWords (d : List Dword) : List Nat := (List.range 32).map (fun k => leNat (cut (qwBytes d) (2 * k) 2))

/-- 32 entries of a table from an index, as command data. -/
def halfData (t : Tbl Nat) (base : Nat) : List Dword :=
  bytesQw ((List.range 32).flatMap (fun k => leBytes 2 (Tbl.getD t (base + k) 0))) 8

/-- Store 32 entries from an index. -/
def putHalves (t : Tbl Nat) (base : Nat) (d : List Dword) : Tbl Nat :=
  ((halfWords d).zipIdx).foldl (fun (t : Tbl Nat) (x : Nat × Nat) => Tbl.put t (base + x.2) x.1) t

def cmdPgrpWrite (c : CmdCtx) (s : State) : CmdRes :=
  ckArgs c s 0x3FF 0x7 <|
    if (halfWords c.d).any (fun e => bits e 14 10 != 0) then .fail s 0x03
    else .done { s with pgrps := putHalves s.pgrps (c.a0 * 256 + 32 * c.a1) c.d }

def cmdPgrpRead (c : CmdCtx) (s : State) : CmdRes := ckArgs c s 0x3FF 0x7 <| .data s (halfData s.pgrps (c.a0 * 256 + 32 * c.a1))

def stblBase (c : CmdCtx) : Nat := (c.inst * 1024 + c.a0) * 512 + 32 * c.a1

def cmdStblWrite (c : CmdCtx) (s : State) : CmdRes :=
  ckArgs c s 0x3FF 0xF <|
    if (halfWords c.d).any (fun e => bits e 14 12 != 0) then .fail s 0x03
    else .done { s with stbls := putHalves s.stbls (stblBase c) c.d }

def cmdStblRead (c : CmdCtx) (s : State) : CmdRes := ckArgs c s 0x3FF 0xF <| .data s (halfData s.stbls (stblBase c))

/-- VPORT_WRITE names a port whose octet another pipeline owns. -/
def vportForeign (c : CmdCtx) (s : State) : Bool := pipeOfPort s (c.a0 % 128) != c.inst

def cmdVportWrite (c : CmdCtx) (s : State) : CmdRes :=
  ckArgs c s 0x03FF007F anyArg <|
    if qwRsvd c.d [0x13FF0FFF00003FFF, 0xFFF] then .fail s 0x03
    else if vportForeign c s then .fail s 0x40
    else .done { s with vports := Tbl.put s.vports (vportKey c.inst (c.a0 % 128) (bits c.a0 25 16)) (padQ c.d 2) }

def cmdVportRead (c : CmdCtx) (s : State) : CmdRes :=
  ckArgs c s 0x03FF007F anyArg <|
    if vportForeign c s then .fail s 0x40
    else .data s (padQ (Tbl.getD s.vports (vportKey c.inst (c.a0 % 128) (bits c.a0 25 16)) []) 8)

def execHprofWrite (c : CmdIn) (s : State) : Host.Outcome State Fault Refusal := ok (pageCommand blkSPREAD 0x01 cmdHprofWrite c s)
def execTkeyWrite (c : CmdIn) (s : State) : Host.Outcome State Fault Refusal := ok (pageCommand blkSPREAD 0x02 cmdTkeyWrite c s)
def execPgrpWrite (c : CmdIn) (s : State) : Host.Outcome State Fault Refusal := ok (pageCommand blkSPREAD 0x03 cmdPgrpWrite c s)
def execStblWrite (c : CmdIn) (s : State) : Host.Outcome State Fault Refusal := ok (pageCommand blkSPREAD 0x04 cmdStblWrite c s)
def execVportWrite (c : CmdIn) (s : State) : Host.Outcome State Fault Refusal := ok (pageCommand blkSPREAD 0x05 cmdVportWrite c s)
def execHprofRead (c : CmdIn) (s : State) : Host.Outcome State Fault Refusal := ok (pageCommand blkSPREAD 0x11 cmdHprofRead c s)
def execTkeyRead (c : CmdIn) (s : State) : Host.Outcome State Fault Refusal := ok (pageCommand blkSPREAD 0x12 cmdTkeyRead c s)
def execPgrpRead (c : CmdIn) (s : State) : Host.Outcome State Fault Refusal := ok (pageCommand blkSPREAD 0x13 cmdPgrpRead c s)
def execStblRead (c : CmdIn) (s : State) : Host.Outcome State Fault Refusal := ok (pageCommand blkSPREAD 0x14 cmdStblRead c s)
def execVportRead (c : CmdIn) (s : State) : Host.Outcome State Fault Refusal := ok (pageCommand blkSPREAD 0x15 cmdVportRead c s)

end Sys2Proof.Machine
end

