-- ==== Sys2Proof/Machine/Spaces.lean ====
section
/-! DEFINITION. The device address map and what may reach it (R135, R344, R352). -/

namespace Sys2Proof.Machine

/-- The rows of R344 open to descriptors: first address and end, by space code. -/
def spaceRow (s : State) (space : Nat) : Option (Nat × Nat) :=
  match space with
  | 0x80 => some (0x1000000000, 0x2800000000)
  | 0x81 => some (0x10000000000, 0x10000000000 + s.rd64 MEMENC.DDR_USABLE)
  | 0x82 => some (0x100000000, 0x10A000000)
  | _ => none

/-- The closed rows of R344: register pages, hub SRAM, context window. -/
def closedRows : List (Nat × Nat) := [(0, 0x20000000), (0x40000000, 0x40800000), (0x200000000, 0x400000000)]

/-- Two ranges meet. -/
def meets (a n lo hi : Nat) : Bool := decide (a < hi) && decide (lo < a + n)

/-- The region entry that holds for an address: the highest VALID one (R352); none for entries 0 and 1. -/
def regionAt (s : State) (a : Nat) : Option (List Dword) :=
  ((s.regions.filter (fun r => bit (qw r.2 2) 0 && decide (qw r.2 0 ≤ a) && decide (a ≤ qw r.2 1))).getLast?).map Prod.snd

/-- A range touches a SECURE region: at its start, or where a region begins or ends within it. -/
def touchesSecure (s : State) (a n : Nat) : Bool :=
  (a :: s.regions.flatMap (fun r => [qw r.2 0, qw r.2 1 + 1])).any (fun x =>
    decide (a ≤ x) && decide (x < a + n) && (match regionAt s x with | some r => bit (qw r 2) 1 | none => false))

/-- A range of device memory named with a space code (R138, R344): 0, 0x24 ADDR_RANGE, 0x26 DENIED. -/
def devCheck (s : State) (space a n : Nat) : Nat :=
  if 2 ^ 64 < a + n then 0x24
  else if closedRows.any (fun r => meets a n r.1 r.2) then 0x26
  else
    match spaceRow s space with
    | none => 0x24
    | some (lo, hi) => if a < lo ∨ hi < a + n then 0x24 else if touchesSecure s a n then 0x26 else 0

/-- A range of device memory without a space code (R302, R344): it lies in one open row. -/
def devAny (s : State) (a n : Nat) : Nat :=
  if devCheck s 0x80 a n = 0 ∨ devCheck s 0x81 a n = 0 ∨ devCheck s 0x82 a n = 0 then 0
  else if [0x80, 0x81, 0x82].any (fun c => devCheck s c a n == 0x26) then 0x26
  else 0x24

end Sys2Proof.Machine
end

