-- ==== Sys2Proof/Machine/CipherRows.lean ====
section
/-! DEFINITION. The ends of cipher jobs, ESP, key slot fetches, the DRBG's health, and the commands of the CIPHER, KEYS and
MACSEC pages (R299 to R318). -/

namespace Sys2Proof.Machine

/-! ## ESP (R304) -/

/-- The bytes of a nonce: SALT, then the explicit IV, as the NONCE field counts them (R302, R304). -/
def espNonce (salt : Nat) (iv : List Byte) : BitVec 128 := BitVec.ofNat 128 (leNat (beBytes 4 salt ++ iv))

/-- The region start: the ANCHOR marker's offset plus START_OFF; none without the marker or beyond the packet. -/
def espStart (p : Pkt) (ctl : List Dword) : Option Nat :=
  (layerOff p.pv (qb ctl 0 23 21)).bind (fun o =>
    if o + qb ctl 0 31 24 ≤ p.bytes.length then some (o + qb ctl 0 31 24) else none)

/-- The header at an offset is IPv4, or IPv6 without extension headers. -/
def plainL3 (bs : List Byte) (o : Nat) : Bool :=
  match be bs o 1 / 16 with
  | 4 => true
  | 6 => !([0, 43, 44, 51, 60].contains (be bs (o + 6) 1))
  | _ => false

/-- FIX_L3: protocol or next header, lengths and checksum of the header at the L3 marker. -/
def fixL3 (p : Pkt) (bs : List Byte) (proto : Nat) : List Byte :=
  match layerOff p.pv 2 with
  | none => bs
  | some o =>
    if plainL3 p.bytes o then
      fixLen (overlay bs (o + (if be bs o 1 / 16 = 4 then 9 else 6)) (leBytes 1 proto)) o
    else bs

/-- Encrypt a packet by the control and key its job started with: the packet's bytes, or none without a region. -/
def espSeal (p : Pkt) (ctl : List Dword) (key : List Byte) : Option (List Byte) :=
  (espStart p ctl).map (fun at_ =>
    let body := p.bytes.drop at_
    let seq := qw ctl 2
    let iv := beBytes 8 seq
    let head := beBytes 4 (qb ctl 1 31 0) ++ beBytes 4 seq
    let pad := (4 - (body.length + 2) % 4) % 4
    let plain := body ++ (List.range pad).map (fun i => BitVec.ofNat 8 (i + 1)) ++ leBytes 1 pad ++ leBytes 1 (qb ctl 0 47 40)
    let nonce := espNonce (qb ctl 1 63 32) iv
    let gmac := qb ctl 0 3 0 = 2
    let (ct, tag) := if gmac then (plain, (Config.encrypt 2 key nonce (head ++ iv ++ plain) []).2)
                     else Config.encrypt 1 key nonce head plain
    let bs := p.bytes.take at_ ++ head ++ iv ++ ct ++ leBytes 16 tag.toNat
    if bit (qw ctl 0) 32 then fixL3 p bs 50 else bs)

/-- Decrypt a packet: none where there is no region; otherwise its bytes, or none when SPI, ICV or padding is wrong. -/
def espOpen (p : Pkt) (ctl : List Dword) (key : List Byte) : Option (Option (List Byte)) :=
  (espStart p ctl).map (fun at_ =>
    let region := p.bytes.drop at_
    if region.length < 34 ∨ be region 0 4 ≠ qb ctl 1 31 0 then none
    else
      let head := region.take 8
      let iv := cut region 8 8
      let ct := (region.drop 16).take (region.length - 32)
      let nonce := espNonce (qb ctl 1 63 32) iv
      let gmac := qb ctl 0 3 0 = 2
      let (plain, tag) := if gmac then (ct, (Config.decrypt 2 key nonce (head ++ iv ++ ct) []).2)
                          else Config.decrypt 1 key nonce head ct
      let n := plain.length
      let pad := be plain (n - 2) 1
      let next := be plain (n - 1) 1
      if leBytes 16 tag.toNat ≠ region.drop (region.length - 16) then none
      else if n < pad + 2 ∨ cut plain (n - 2 - pad) pad ≠ (List.range pad).map (fun i => BitVec.ofNat 8 (i + 1)) then none
      else
        let bs := p.bytes.take at_ ++ plain.take (n - 2 - pad)
        some (if bit (qw ctl 0) 32 then fixL3 p bs next else bs))

/-! ## Provider jobs (R299, R302, R303) -/

/-- Ciphertext or plaintext and tag of a provider job: XTS takes its data units one by one, each with the next number. -/
def jobData (d : List Dword) (key : List Byte) (aad data : List Byte) : List Byte × BitVec 128 :=
  let mode := qb d 0 3 0
  let dec := bit (qw d 0) 4
  let nonce := qw d 6 + qw d 7 * 2 ^ 64
  let run := fun (n : Nat) (aad data : List Byte) =>
    if dec then Config.decrypt mode key (BitVec.ofNat 128 n) aad data else Config.encrypt mode key (BitVec.ofNat 128 n) aad data
  if mode = 3 then
    let u := if bit (qw d 0) 28 then 4096 else 512
    ((List.range (data.length / u)).flatMap (fun i => (run (nonce + i) [] (cut data (u * i) u)).1), 0)
  else run nonce aad data

/-- Bytes that nothing fixes (log 1). -/
def freshBytes (s : State) (n : Nat) : List Byte × State :=
  ((List.range n).map (fun i => Config.freeValue 8 (s.free + i)), { s with free := s.free + n })

/-- A provider job ends (R303): the state and its RESULT. -/
def endProviderJob (s : State) (e : Nat) (j : Job) (reply : ReadEnd) : State × Nat :=
  let d := j.qws
  let key := match j.key with | some k => k.2 | none => []
  let n := qb d 5 31 0
  match reply with
  | .data _ =>
    let data := Memory.readBytes s.mem (qw d 1) n
    let aad := Memory.readBytes s.mem (qw d 3) (qb d 0 47 32)
    let (out, tag) := jobData d key aad data
    let s := (s.bumpStat CIPHER.JOBS e).bumpStat CIPHER.BYTES e n
    if bit (qw d 0) 4 && qb d 0 3 0 != 3 && Memory.readBytes s.mem (qw d 4) 16 != leBytes 16 tag.toNat then
      let (junk, s) := freshBytes s n
      (((s.memPut (qw d 2) junk).bumpErr blkCIPHER e 1).istat blkCIPHER e 0, 0x40)
    else
      let s := s.memPut (qw d 2) out
      (if !bit (qw d 0) 4 && qb d 0 3 0 != 3 then s.memPut (qw d 4) (leBytes 16 tag.toNat) else s, 0)
  | _ => (s.bumpStat CIPHER.JOBS e, 0x43)

/-! ## Ends of jobs -/

/-- Commands of KEYS that wait for the old copy of a slot end once no job holds one (R310). -/
def checkKeyWaits (s : State) : State :=
  if s.engines.any (fun g => (g.2.run.toList ++ g.2.susp).any (fun j => j.old)) then s
  else endWaiting (endWaiting s blkKEYS 0 0x02 0) blkKEYS 0 0x04 0

/-- A packet job's charges (R364): the protected region and one packet, at the job's end. -/
def espCharge (s : State) (pipe : Nat) (p : Pkt) (n : Nat) : State :=
  charge (charge s pipe p.owner 30 n s.ns) pipe p.owner 31 1 s.ns

/-- A packet job ends (R304, R305). -/
def endPacketJob (s : State) (e : Nat) (j : Job) : State :=
  match j.pkt, j.key with
  | some (p, a), some (ctl, key) =>
    let pipe := j.pipe.getD 0
    let n := p.bytes.length - (espStart p ctl).getD p.bytes.length
    let s := espCharge ((s.bumpStat CIPHER.JOBS e).bumpStat CIPHER.BYTES e n) pipe p n
    if j.decrypt then
      match espOpen p ctl key with
      | none => dropJob (s.bumpErr blkCIPHER e 2) j
      | some none => dropJob ((s.bumpErr blkCIPHER e 1).istat blkCIPHER e 0) j
      | some (some bs) =>
        walkPkt s pipe (profOf s pipe (bit p.inPort 12) (p.inPort % 1024)) { p with bytes := bs, second := true }
    else
      match espSeal p ctl key with
      | none => dropJob (s.bumpErr blkCIPHER e 2) j
      | some bs =>
        if 9600 < bs.length then dropJob (s.bumpErr blkCIPHER e 4) j
        else forwardStep s pipe { p with bytes := bs } a
  | _, _ => dropJob s j

/-- The running job of an engine ends; the engine goes on. -/
def jobEnds (e : Nat) (reply : ReadEnd) (s : State) : State :=
  let g := engineOf s e
  match g.run with
  | none => s
  | some j =>
    if s.faulted.contains (State.pk blkCIPHER e) then s
    else
      let s := setEngine s e { g with run := none }
      let s := if j.pipe.isSome then endPacketJob s e j
        else
          let (s, code) := endProviderJob s e j reply
          endWaiting s blkCIPHER e 0x01 code
      checkKeyWaits (runEngine s e)

def execCipherJobComplete (e : Fin 16) (reply : ReadEnd) (s : State) : Host.Outcome State Fault Refusal :=
  ok (jobEnds e.val reply s)

/-- A reset of an engine (R315): packet jobs dropped and counted; its provider command has ended with 0x07. -/
def engineReset (s : State) (e : Nat) : State :=
  let g := engineOf s e
  let js := (g.queue ++ g.susp ++ g.run.toList).filter (fun j => j.pipe.isSome)
  let s := js.foldl dropJob ({ s with engines := Tbl.del s.engines e }.bumpErr blkCIPHER e 3 js.length)
  checkKeyWaits s

/-- All engines start what they can. -/
def runEngines (s : State) : State := s.engines.foldl (fun s g => runEngine s g.1) s

/-- R309, R310: a slot record has been fetched. -/
def slotFetched (n : Nat) (good : Bool) (s : State) : State :=
  if s.engines.any (fun g => g.2.queue.any (fun j => j.fetching && j.slot == n)) then
    let s := { s with engines := Tbl.mapV s.engines (fun _ g =>
      { g with queue := g.queue.map (fun (j : Job) => if j.slot = n then { j with fetching := false } else j) }) }
    let (v, s) := s.fresh 32
    let s := (cacheSlot s n).raiseMax KEYS.FETCH_MAX 0 (v.toNat % 501)
    let s := if good then s
      else raisePage (({ s with slots := Tbl.upd s.slots n (fun k => { k with corrupt := true }) }.bumpErr blkKEYS 0 0).istat blkKEYS 0 0)
        blkKEYS 0 1 0 (BitVec.ofNat 16 n)
    runEngines s
  else s

def execSlotFetchComplete (slot : BitVec 20) (good : Bool) (s : State) : Host.Outcome State Fault Refusal :=
  ok (slotFetched slot.toNat good s)

/-- R306: the DRBG fails: queued jobs end, running and suspended ones complete. -/
def drbgFails (s : State) : State :=
  let s := { s with dax := { s.dax with drbgOk := false } }.istat blkKEYS 0 2
  s.engines.foldl (fun (s : State) (g : Nat × Engine) =>
    runEngine s g.1) s

def execDrbgHealthFailure (s : State) : Host.Outcome State Fault Refusal := ok (drbgFails s)

def execDrbgRecovery (s : State) : Host.Outcome State Fault Refusal :=
  ok (runEngines { s with dax := { s.dax with drbgOk := true } })

/-! ## JOB (R302, R303) -/

/-- The fields of a job descriptor are in range and its memory is there. -/
def jobRanges (s : State) (d : List Dword) : Bool :=
  let mode := qb d 0 3 0
  let n := qb d 5 31 0
  let src := qb d 0 55 48
  let dst := qb d 0 63 56
  let aad := qb d 0 47 32
  let fits := fun (space a n : Nat) => n = 0 || devCheck s space a n == 0
  let tagged_ := mode != 3
  (1 ≤ mode && mode ≤ 3) && (0x80 ≤ src && src ≤ 0x82) && (0x80 ≤ dst && dst ≤ 0x82) && decide (n ≤ 16777216) &&
    !(mode == 2 && n != 0) && !(mode == 3 && n % (if bit (qw d 0) 28 then 4096 else 512) != 0) &&
    (qw d 1 == qw d 2 || !meets (qw d 1) n (qw d 2) (qw d 2 + n)) &&
    fits src (qw d 1) n && fits dst (qw d 2) n && (!tagged_ || fits src (qw d 3) aad) &&
    (!tagged_ || fits (if bit (qw d 0) 4 then src else dst) (qw d 4) 16)

def cmdJob (c : CmdCtx) (s : State) : CmdRes :=
  if qwRsvd c.d [0xFFFFFFFF1FFFFFFF, 0xFFFFFFFFFFFFFFFF, 0xFFFFFFFFFFFFFFFF, 0xFFFFFFFFFFFFFFFF, 0xFFFFFFFFFFFFFFFF, 0xFFFFFFFF] ||
      (qb c.d 0 3 0 != 3 && qb c.d 7 63 32 != 0) then .fail s 0x03
  else if !jobRanges s c.d then .fail s 0x02
  else if 1024 ≤ (engineOf s c.inst).queue.length then .fail s 0x08
  else
    let j : Job := { qws := c.d, prio := qb c.d 0 7 5, slot := qb c.d 0 27 8 }
    let g := engineOf s c.inst
    let s := runEngine (setEngine s c.inst { g with queue := g.queue ++ [j] }) c.inst
    let g := engineOf s c.inst
    if (g.queue ++ g.susp ++ g.run.toList).any (fun j => j.pipe.isNone) then .later s
    else .fail s (if !s.dax.drbgOk then 0x45 else slotCode s j)

def execJob (c : CmdIn) (s : State) : Host.Outcome State Fault Refusal := ok (pageCommand blkCIPHER 0x01 cmdJob c s)

/-! ## KEYS (R308 to R311, R317) -/

def cmdKeyStage (c : CmdCtx) (s : State) : CmdRes :=
  ckArgs c s 0x1 anyArg <|
    let old := padQ s.keyStage 9
    .done { s with keyStage := if c.a0 = 0 then padQ c.d 8 ++ old.drop 8 else old.take 8 ++ [c.d.getD 0 0] }

/-- There is no table of slots. -/
def noTable (s : State) : Bool := s.rd64 KEYS.SLOT_BASE == 0

/-- Key length or use against MODE (R308). -/
def badLen (d : List Dword) : Bool :=
  let mode := qb d 0 3 0
  let klen := qb d 0 5 4
  ((mode == 1 || mode == 2 || mode == 4) && klen == 2) || (mode == 3 && klen == 0) ||
    (bit (qw d 0) 6 && mode != 1 && mode != 2) || (bit (qw d 0) 7 && mode == 4)

/-- Jobs that have started with a slot hold an old copy from now on; the command waits for them (R310). -/
def slotChanged (s : State) (n : Nat) : CmdRes :=
  let mark := fun (j : Job) => if j.slot = n then { j with old := true } else j
  let s := { s with engines := Tbl.mapV s.engines (fun _ g => { g with run := g.run.map mark, susp := g.susp.map mark }) }
  if s.engines.any (fun g => (g.2.run.toList ++ g.2.susp).any (fun j => j.old)) then .later s else .done s

def cmdSlotWrite (c : CmdCtx) (s0 : State) : CmdRes :=
  let s := { s0 with keyStage := [] }
  ckArgs c s 0xFFFFF anyArg <|
    let klen := qb c.d 0 5 4
    let mode := qb c.d 0 3 0
    let anchor := qb c.d 0 23 21
    let wrapped := (qwBytes (padQ s0.keyStage 9)).take (keyLen klen + 8)
    if qwRsvd c.d [0x0000FF03FFFFFFFF, 0xFFFFFFFFFFFFFFFF, 0xFFFFFFFFFFFFFFFF, 0, 0, 0, 0, 0] then .fail s 0x03
    else if mode = 0 ∨ 4 < mode ∨ klen = 3 ∨ anchor = 0 ∨ anchor = 7 ∨ qw c.d 2 = 0 then .fail s 0x02
    else
      match s.dax.importKey.bind (fun k => Config.aesUnwrap k wrapped) with
      | none => .fail (s.bumpErr blkKEYS 0 1) 0x40
      | some key =>
        if badLen c.d then .fail s 0x41
        else if noTable s then .fail s 0x42
        else slotChanged { s with slots := Tbl.put s.slots c.a0 { ctl := padQ c.d 3, key := key.take (keyLen klen),
                                                                  seq := qw c.d 2, resv := qw c.d 2 } } c.a0

def cmdSlotRead (c : CmdCtx) (s : State) : CmdRes :=
  ckArgs c s 0xFFFFF anyArg <|
    if noTable s then .fail s 0x42
    else
      match Tbl.get? s.slots c.a0 with
      | none => .data s []
      | some k => .data s [k.ctl.getD 0 0, k.ctl.getD 1 0, dw k.seq]

def cmdSlotInvalidate (c : CmdCtx) (s : State) : CmdRes :=
  ckArgs c s 0xFFFFF anyArg <|
    if noTable s then .fail s 0x42
    else if s.sas.any (fun d => bit (qw d.2 0) 8 && qb d.2 0 29 10 == c.a0) then .fail s 0x43
    else slotChanged { s with slots := Tbl.del s.slots c.a0, cached := setDel s.cached c.a0 } c.a0

def execKeyStage (c : CmdIn) (s : State) : Host.Outcome State Fault Refusal := ok (pageCommand blkKEYS 0x01 cmdKeyStage c s)
def execSlotWrite (c : CmdIn) (s : State) : Host.Outcome State Fault Refusal := ok (pageCommand blkKEYS 0x02 cmdSlotWrite c s)
def execSlotRead (c : CmdIn) (s : State) : Host.Outcome State Fault Refusal := ok (pageCommand blkKEYS 0x03 cmdSlotRead c s)
def execSlotInvalidate (c : CmdIn) (s : State) : Host.Outcome State Fault Refusal :=
  ok (pageCommand blkKEYS 0x04 cmdSlotInvalidate c s)

/-- A unit reset of KEYS (R307, R311): SEQ resumes at the end of the last reserved block. -/
def keysReset (s : State) : State :=
  { s with slots := Tbl.mapV s.slots (fun _ k => { k with seq := max k.seq k.resv }), cached := [], keyStage := [] }

/-! ## MACSEC (R313, R318) -/

def cmdSaWrite (c : CmdCtx) (s : State) : CmdRes :=
  let rx := bit (qw c.d 0) 3
  if qwRsvd c.d [0x3FFFFFFF, 0xFFFFFFFFFFFFFFFF, 0xFFFFFFFFFFFFFFFF, 0xFFFFFFFF, 0xFFFFFFFFFFFFFFFF, 0xFFFFFFFF, 0, 0] ||
      (!rx && qb c.d 0 7 6 != 0) then .fail s 0x03
  else if !((Tbl.get? s.slots (qb c.d 0 29 10)).map (fun k => k.mode == 4)).getD false then .fail s 0x40
  else .done { s with sas := Tbl.put s.sas (c.inst * 256 + qb c.d 0 7 0) (padQ c.d 6) }

def cmdSaRead (c : CmdCtx) (s : State) : CmdRes :=
  ckArgs c s (if bit c.a0 3 then 0xFF else 0x3F) anyArg <| .data s (Tbl.getD s.sas (c.inst * 256 + c.a0 % 256) [])

def cmdSaDisable (c : CmdCtx) (s : State) : CmdRes :=
  ckArgs c s (if bit c.a0 3 then 0xFF else 0x3F) anyArg <|
    .done { s with sas := Tbl.upd s.sas (c.inst * 256 + c.a0 % 256) (fun d =>
      listSet d 0 (dw (qw d 0 &&& 0xFFFFFFFFFFFFFEFF))) }

def execSaWrite (c : CmdIn) (s : State) : Host.Outcome State Fault Refusal := ok (pageCommand blkMACSEC 0x01 cmdSaWrite c s)
def execSaRead (c : CmdIn) (s : State) : Host.Outcome State Fault Refusal := ok (pageCommand blkMACSEC 0x02 cmdSaRead c s)
def execSaDisable (c : CmdIn) (s : State) : Host.Outcome State Fault Refusal := ok (pageCommand blkMACSEC 0x03 cmdSaDisable c s)

end Sys2Proof.Machine
end

