-- ==== Sys2Proof/Machine/Memory.lean ====
section
/-! DEFINITION. The memory controllers, requester ports, encryption regions, training and patrol scrub (R344 to R357). -/

namespace Sys2Proof.Machine

/-! ## Where an address goes (R344, R345) -/

/-- The controller page of a kind. -/
def ctlBlk (ddr : Bool) : Nat := if ddr then blkDDRC else blkHBMC
def memKey (ddr : Bool) (inst : Nat) : Nat := inst + 8 * b2n ddr
def memCtlOf (s : State) (ddr : Bool) (inst : Nat) : MemCtl := Tbl.getD s.memctl (memKey ddr inst) {}
def setMemCtl (s : State) (ddr : Bool) (inst : Nat) (m : MemCtl) : State := { s with memctl := Tbl.put s.memctl (memKey ddr inst) m }

/-- Eight channels are populated, or four (R347). -/
def eightChannels (s : State) : Bool := [4, 5, 6, 7].any (fun i => s.rd DDRC.CAPACITY i != 0)

/-- The controller that serves an address of HBM or DDR5 (R345). -/
def controllerOf (s : State) (a : Nat) : Option (Bool × Nat) :=
  if 0x1000000000 ≤ a ∧ a < 0x2800000000 then some (false, bits (a - 0x1000000000) 9 8)
  else if 0x10000000000 ≤ a ∧ a < 0x10000000000 + s.rd64 MEMENC.DDR_USABLE then
    some (true, if eightChannels s then bits (a - 0x10000000000) 10 8 else bits (a - 0x10000000000) 9 8)
  else none

/-! ## Errors (R346, R347, R351, R355) -/

/-- A corrected error. -/
def correctedError (s : State) (ddr : Bool) (i : Nat) : State :=
  let s := if ddr then s.bumpStat DDRC.CE i else s.bumpStat HBMC.CE i
  raisePage s (ctlBlk ddr) i 1

/-- An uncorrectable line, or a failed integrity tag of a DDR5 line, found by a read or (`scrub`) by the scrub. -/
def badLine (s : State) (ddr : Bool) (i addr : Nat) (tag scrub : Bool) : State :=
  let line := addr / 64 * 64
  let s := if ddr then (s.bumpStat DDRC.UE i).wr64 DDRC.UE_ADDR i line else (s.bumpStat HBMC.UE i).wr64 HBMC.UE_ADDR i line
  let s := (s.bumpErr (ctlBlk ddr) i (b2n scrub)).istat (ctlBlk ddr) i 0
  let s := if ddr && tag then ((s.bumpStat MEMENC.TAGFAIL 0).bumpErr blkMEMENC 0 0).istat blkMEMENC 0 0 else s
  raisePage s (ctlBlk ddr) i 2

/-! ## Requests (R348 to R352) -/

/-- A real-time port's buffer level: it enters panic at PANIC_HI and leaves at PANIC_LO (R349). -/
def portLevel (s : State) (port level : Nat) : State :=
  if 8 ≤ port then s
  else
    let w := s.rd HBMC.PANIC 0 (2 * port)
    if s.panic.contains port then (if level ≤ bits w 25 16 then { s with panic := setDel s.panic port } else s)
    else if bits w 9 0 ≤ level then
      let s := { s with panic := s.panic ++ [port] }
      (s.wr64 HBMC.PANIC_STAT 0 (s.rd64 HBMC.PANIC_STAT ||| 2 ^ port)).istat blkHBMC 0 1
    else s

/-- A SECURE region is open to harts and the hub only (R352). -/
def secureOpen (port : Nat) : Bool := (8 ≤ port && port < 40) || port == 47

/-- The context window: a hart reaches the bench copy of a context that a hart of its tile has locked (R325, R344). -/
def windowCtx (s : State) (port a : Nat) : Option (Nat × Ctx) :=
  if 0x200000000 ≤ a ∧ a < 0x400000000 ∧ 8 ≤ port ∧ port < 40 then
    let h := (a - 0x200000000) / 256
    match Tbl.get? s.ctxs h with
    | some c => match c.lock with
      | some (hart, _) => if tileOf hart = port - 8 then some (h, c) else none
      | none => none
    | none => none
  else none

/-- Read or write bytes on behalf of a port. -/
def serveBytes (s : State) (port a len : Nat) (write : Option (List Byte)) : State :=
  match write with
  | some bs => s.memPut a bs
  | none => s.emit (.memData port (some (Memory.readBytes s.mem a len)))

/-- Nothing is served: a read returns poisoned data, or an access fault to a hart. -/
def denyBytes (s : State) (port : Nat) (write : Option (List Byte)) : State :=
  match write with
  | some _ => s
  | none => s.emit (.memData port none)

/-- The last 1 MiB of hub SRAM, which harts may read once they are released (R408). -/
def hubSram (s : State) (port a n : Nat) : Bool :=
  8 ≤ port && port < 40 && s.boot.stage == 5 && decide (0x40700000 ≤ a) && decide (a + n ≤ 0x40800000)

/-- R349: a requester port presents a request. `ecc`: 0 good, 1 corrected, 2 uncorrectable, 3 a failed tag. -/
def memRequest (port a len : Nat) (write : Option (List Byte)) (level ecc : Nat) (s : State) : State :=
  let s := portLevel s port level
  let n := match write with | some bs => bs.length | none => len
  match windowCtx s port a with
  | some (h, c) =>
    match write with
    | some bs => (updCtx s h (fun c => { c with dirty := true })).memPut a bs
    | none => s.emit (.memData port (some (((qwBytes (ctxWords s h c) ++ Memory.readBytes s.mem (0x200000040 + 256 * h) 192).drop (a % 256)).take len)))
  | none =>
    if 0x100000000 ≤ a ∧ a + n ≤ 0x10A000000 then serveBytes s port a len write
    else if hubSram s port a n && write.isNone then serveBytes s port a len write
    else
      match controllerOf s a with
      | none => denyBytes s port write
      | some (ddr, i) =>
        let row := if ddr then (spaceRow s 0x81) else spaceRow s 0x80
        if (match row with | some r => decide (r.2 < a + n) | none => true) then denyBytes s port write
        else if touchesSecure s a n && !secureOpen port then denyBytes s port write
        else if s.stateOf (ctlBlk ddr) i ≤ 2 then denyBytes (s.bumpErr (ctlBlk ddr) i 2) port write
        else
          let whole := a % 64 == 0 && n % 64 == 0
          match (if write.isSome && whole then 0 else ecc) with
          | 0 => serveBytes s port a len write
          | 1 => serveBytes (correctedError s ddr i) port a len write
          | e =>
            let s := badLine s ddr i a (e == 3) false
            match write with
            | some bs => s.memPut a bs
            | none => denyBytes s port write

def execMemoryRequest (port : Fin 48) (addr : Dword) (len : Nat) (write : Option (List Byte)) (_hint : BitVec 2) (level : BitVec 10)
    (ecc : BitVec 2) (s : State) : Host.Outcome State Fault Refusal :=
  ok (memRequest port.val addr.toNat len write level.toNat ecc.toNat s)

/-! ## Regions (R352, R357) -/

/-- A range lies in, or meets, the rows of HBM and DDR5. -/
def meetsHbm (b l : Nat) : Bool := decide (b < 0x2800000000) && decide (0x1000000000 ≤ l)
def meetsDdr (l : Nat) : Bool := decide (0x10000000000 ≤ l)

/-- The bytes of a region that lie in HBM or in DDR5: the first and their number. -/
def regionSpan (s : State) (b l : Nat) : Nat × Nat :=
  if meetsHbm b l then (max b 0x1000000000, min l 0x27FFFFFFFF + 1 - max b 0x1000000000)
  else if meetsDdr l then
    (max b 0x10000000000, min (l + 1) (0x10000000000 + s.rd64 MEMENC.DDR_USABLE) - max b 0x10000000000)
  else (b, 0)

def cmdRegionWrite (c : CmdCtx) (s : State) : CmdRes :=
  ckArgs c s 0x1F anyArg <|
    let b := qw c.d 0
    let l := qw c.d 1
    if qwRsvd c.d [0xFFFFFFFFFFFFFFFF, 0xFFFFFFFFFFFFFFFF, 7, 0, 0, 0, 0, 0] then .fail s 0x03
    else if c.a0 < 2 ∨ b % 4096 ≠ 0 ∨ l < b then .fail s 0x02
    else if bit (qw c.d 2) 1 && meetsDdr l then .fail s 0x40
    else if meetsHbm b l && meetsDdr l then .fail s 0x41
    else
      let s := { s with regions := Tbl.put s.regions c.a0 [dw b, dw l, dw (qb c.d 2 1 0)] }
      if bit (qw c.d 2) 2 then
        let r := freshBytes s (regionSpan s b l).2
        .done (r.2.memPut (regionSpan s b l).1 r.1)
      else .done s

/-- The region entries 0 and 1 are fixed. -/
def regionRow (s : State) (n : Nat) : List Dword :=
  match n with
  | 0 => [dw 0x1000000000, dw 0x27FFFFFFFF, 1]
  | 1 => [dw 0x10000000000, dw (0x10000000000 + s.rd64 MEMENC.DDR_USABLE - 1), 1]
  | _ => Tbl.getD s.regions n []

def cmdRegionRead (c : CmdCtx) (s : State) : CmdRes := ckArgs c s 0x1F anyArg <| .data s (regionRow s c.a0)

def execRegionWrite (c : CmdIn) (s : State) : Host.Outcome State Fault Refusal := ok (pageCommand blkMEMENC 0x01 cmdRegionWrite c s)
def execRegionRead (c : CmdIn) (s : State) : Host.Outcome State Fault Refusal := ok (pageCommand blkMEMENC 0x02 cmdRegionRead c s)

/-! ## Training, activation, swaps (R353, R354, R356) -/

/-- The page is a DDRC page. -/
def isDdr (c : CmdCtx) : Bool := c.blk == blkDDRC

/-- SPEED exceeds what the population allows (R347). -/
def tooFast (s : State) (c : CmdCtx) : Bool :=
  isDdr c && decide ((if bits (s.rd DDRC.DIMM_CFG c.inst) 15 8 = 0 then 6400 else 5600) < s.rd DDRC.SPEED c.inst)

def cmdTrainStart (c : CmdCtx) (s : State) : CmdRes :=
  if tooFast s c then .fail s 0x42
  else if s.stateOf c.blk c.inst ≠ 1 then .fail s 0x43
  else .done (s.setState c.blk c.inst 2)

/-- Lanes of a controller. -/
def lanes (ddr : Bool) : Nat := if ddr then 80 else 1280

def cmdDlyWrite (c : CmdCtx) (s : State) : CmdRes :=
  ckArgs c s 0x107FF anyArg <|
    let lane := c.a0 % 2048
    let st := s.stateOf c.blk c.inst
    let m := memCtlOf s (isDdr c) c.inst
    if qwRsvd c.d [0x0000007F01FF01FF] then .fail s 0x03
    else if lanes (isDdr c) ≤ lane then .fail s 0x02
    else if st ≠ 2 ∧ (c.a0 < 65536 ∨ st ≠ 3) then .fail s 0x43
    else .done (setMemCtl s (isDdr c) c.inst { m with codes := Tbl.put m.codes (2 * lane + c.a0 / 65536) (c.d.getD 0 0) })

def cmdDlyRead (c : CmdCtx) (s : State) : CmdRes :=
  ckArgs c s 0x107FF anyArg <|
    let lane := c.a0 % 2048
    if lanes (isDdr c) ≤ lane then .fail s 0x02
    else .data s [Tbl.getD (memCtlOf s (isDdr c) c.inst).codes (2 * lane + c.a0 / 65536) 0]

/-- The pass bitmap is what the DRAM answers. -/
def cmdTrainPattern (c : CmdCtx) (s : State) : CmdRes :=
  ckArgs c s 0x1FFF anyArg <| if s.stateOf c.blk c.inst ≠ 2 then .fail s 0x43 else .data s (padQ c.env 8)

def cmdGoActive (c : CmdCtx) (s : State) : CmdRes :=
  if s.stateOf c.blk c.inst ≠ 2 then .fail s 0x43 else .done (s.setState c.blk c.inst 3)

/-- Ranks of a controller: the pseudo-channels of a stack; the ranks the DIMMs answer with, or one for each DIMM. -/
def rankCount (s : State) (c : CmdCtx) : Nat :=
  if !isDdr c then 32
  else if qb c.env 0 4 0 ≠ 0 then qb c.env 0 4 0
  else if bits (s.rd DDRC.DIMM_CFG c.inst) 15 8 = 0 then 1 else 2

def cmdSwap (c : CmdCtx) (s : State) : CmdRes :=
  if s.stateOf c.blk c.inst ≠ 3 then .fail s 0x43
  else
    .done (setMemCtl (s.setState c.blk c.inst 4) (isDdr c) c.inst
      { memCtlOf s (isDdr c) c.inst with swap := some (c.a0 + c.a1 * 2 ^ 32), ranks := List.range (rankCount s c) })

/-- The last rank has exchanged: the sets are exchanged, DLY_ACTIVE toggles. -/
def swapDone (s : State) (ddr : Bool) (i : Nat) : State :=
  let m := memCtlOf s ddr i
  let codes := m.codes.foldl (fun (t : Tbl Dword) (p : Nat × Dword) => Tbl.put t (p.1 ^^^ 1) p.2) []
  let s := setMemCtl (s.setState (ctlBlk ddr) i 3) ddr i { codes := codes }
  let s := if ddr then s.wr DDRC.DLY_ACTIVE i ((s.rd DDRC.DLY_ACTIVE i) ^^^ 1) else s.wr HBMC.DLY_ACTIVE i ((s.rd HBMC.DLY_ACTIVE i) ^^^ 1)
  s.istat (ctlBlk ddr) i 2

/-- R354: the first refresh of a rank at or after the deadline. -/
def swapRank (ddr : Bool) (i rank : Nat) (s : State) : State :=
  let m := memCtlOf s ddr i
  match m.swap with
  | none => s
  | some d =>
    if s.stateOf (ctlBlk ddr) i ≠ 4 ∨ !m.ranks.contains rank then s
    else
      let s := setMemCtl (s.reach d) ddr i { m with ranks := setDel m.ranks rank }
      if (setDel m.ranks rank).isEmpty then swapDone s ddr i else s

/-- A unit reset of a controller (R354): contents and codes are kept; a SWAP not yet complete is finished. -/
def memCtlReset (s : State) (ddr : Bool) (i : Nat) : State :=
  if s.stateOf (ctlBlk ddr) i = 4 then swapDone s ddr i else s

/-- R355: the patrol scrub reads a line. -/
def scrubLine (ddr : Bool) (i addr ecc : Nat) (s : State) : State :=
  let period := if ddr then s.rd DDRC.SCRUB_PERIOD i else s.rd HBMC.SCRUB_PERIOD i
  if s.stateOf (ctlBlk ddr) i < 3 ∨ period = 0 then s
  else
    match ecc with
    | 0 => s
    | 1 => correctedError s ddr i
    | e => badLine s ddr i addr (e == 3) true

def execTrainStart (ddr : Bool) (c : CmdIn) (s : State) : Host.Outcome State Fault Refusal := ok (pageCommand (ctlBlk ddr) 0x01 cmdTrainStart c s)
def execDlyWrite (ddr : Bool) (c : CmdIn) (s : State) : Host.Outcome State Fault Refusal := ok (pageCommand (ctlBlk ddr) 0x02 cmdDlyWrite c s)
def execDlyRead (ddr : Bool) (c : CmdIn) (s : State) : Host.Outcome State Fault Refusal := ok (pageCommand (ctlBlk ddr) 0x03 cmdDlyRead c s)
def execTrainPattern (ddr : Bool) (c : CmdIn) (s : State) : Host.Outcome State Fault Refusal :=
  ok (pageCommand (ctlBlk ddr) 0x04 cmdTrainPattern c s)
def execGoActive (ddr : Bool) (c : CmdIn) (s : State) : Host.Outcome State Fault Refusal := ok (pageCommand (ctlBlk ddr) 0x05 cmdGoActive c s)
def execSwap (ddr : Bool) (c : CmdIn) (s : State) : Host.Outcome State Fault Refusal := ok (pageCommand (ctlBlk ddr) 0x06 cmdSwap c s)
def execSwapRankRefresh (ddr : Bool) (inst : Fin 8) (rank : BitVec 5) (s : State) : Host.Outcome State Fault Refusal :=
  ok (swapRank ddr inst.val rank.toNat s)
def execPatrolScrubDeadline (ddr : Bool) (inst : Fin 8) (addr : Dword) (ecc : BitVec 2) (s : State) :
    Host.Outcome State Fault Refusal := ok (scrubLine ddr inst.val addr.toNat ecc.toNat s)

end Sys2Proof.Machine
end

