-- ==== Sys2Proof/Machine/Images.lean ====
section
/-! DEFINITION. What the contexts of a QP and of an NVMe queue hold beyond their header (R256): the manual leaves qwords 1
to 31 to the owning unit; this is the form in which the model mirrors them and takes them over (R389, R394). -/

namespace Sys2Proof.Machine

/-- A message of the responder as qwords, and back. -/
def msgWords (m : RMsg) : List Nat :=
  [m.msg + m.kind * 2 ^ 24 + b2n m.length.isSome * 2 ^ 28 + b2n m.imm.isSome * 2 ^ 29 + b2n m.trace * 2 ^ 30 + m.rseq * 2 ^ 32,
   m.va, m.rkey + m.dmaLen % 2 ^ 32 * 2 ^ 32, m.placed, m.length.getD 0, m.psn0 + m.lastPsn * 2 ^ 32, (m.imm.getD 0).toNat, m.stamp]
def wordsMsg (w : List Nat) : RMsg :=
  let a := w.getD 0 0
  { msg := bits a 23 0, kind := bits a 27 24, rseq := bits a 63 32, va := w.getD 1 0, rkey := bits (w.getD 2 0) 31 0,
    dmaLen := bits (w.getD 2 0) 63 32, placed := w.getD 3 0, length := if bit a 28 then some (w.getD 4 0) else none,
    psn0 := bits (w.getD 5 0) 31 0, lastPsn := bits (w.getD 5 0) 63 32, imm := if bit a 29 then some (w32 (w.getD 6 0)) else none,
    stamp := w.getD 7 0, trace := bit a 30 }

/-- Groups of `n` of a list. -/
def chunks (n : Nat) : Nat → List Nat → List (List Nat)
  | 0, _ => []
  | f + 1, l => if l = [] then [] else l.take n :: chunks n f (l.drop n)

/-- A QP as qwords: number, attributes, requester, responder, then PSNs beyond ePSN, open messages, response cache. -/
def qpWords (n : Nat) (q : Qp) : List Dword :=
  ([n] ++ (padQ q.attr 5).map (fun d => d.toNat) ++
   [q.state + b2n q.srSend * 2 ^ 4 + b2n q.srRecv * 2 ^ 5, q.nextPsn + q.una * 2 ^ 32, q.ackTo + q.nextMsg * 2 ^ 32, q.nextRseq,
    q.rto, q.epsn + q.rqBase * 2 ^ 32, q.rxSeq, q.doneMsg, q.got.length, q.msgs.length, q.cache.length] ++
   q.got ++ q.msgs.flatMap msgWords ++ q.cache.flatMap (fun c => [c.1, c.2.toNat])).map dw

/-- The QP of a list of qwords, its contexts at a base handle. -/
def wordsQp (handle : Nat) (d : List Dword) : Nat × Qp :=
  let w := d.map (fun q => q.toNat)
  let g := w.getD 14 0
  let m := w.getD 15 0
  let c := w.getD 16 0
  let rest := w.drop 17
  (w.getD 0 0, { state := bits (w.getD 6 0) 3 0, attr := (d.drop 1).take 5, handle := handle, srSend := bit (w.getD 6 0) 4,
                 srRecv := bit (w.getD 6 0) 5, nextPsn := bits (w.getD 7 0) 31 0, una := bits (w.getD 7 0) 63 32,
                 ackTo := bits (w.getD 8 0) 31 0, nextMsg := bits (w.getD 8 0) 63 32, nextRseq := w.getD 9 0, rto := w.getD 10 0,
                 epsn := bits (w.getD 11 0) 31 0, rqBase := bits (w.getD 11 0) 63 32, rxSeq := w.getD 12 0, doneMsg := w.getD 13 0,
                 got := rest.take g, msgs := (chunks 8 m ((rest.drop g).take (8 * m))).map wordsMsg,
                 cache := (chunks 2 c ((rest.drop (g + 8 * m)).take (2 * c))).map (fun p => (p.getD 0 0, dw (p.getD 1 0))) })

/-- The part of a QP's qwords that one of its four contexts holds. -/
def qpPart (n : Nat) (q : Qp) (i : Nat) : List Dword := ((qpWords n q).drop (31 * i)).take 31

/-- An NVMe queue as qwords: controller and queue number, the queue, and the controller it needs to go on. -/
def nvqWords (i y : Nat) (isCq : Bool) (c : NvCtl) (q : NvQ) : List Dword :=
  [i + y * 2 ^ 16 + b2n isCq * 2 ^ 32 + b2n q.phase * 2 ^ 33 + b2n q.ien * 2 ^ 34, q.base, q.size + q.head * 2 ^ 32,
   q.tail + q.cq * 2 ^ 32, q.prio + q.iv * 2 ^ 32, c.sel + c.state * 2 ^ 12 + c.pin * 2 ^ 16 + c.weight * 2 ^ 24 + c.owner * 2 ^ 40,
   c.maxq + c.mqes * 2 ^ 32, c.cc.toNat + c.aqa.toNat * 2 ^ 32, c.asq, c.acq, c.intms.toNat, c.nsids.length].map dw ++
  ((c.nsids.take 4).map (fun n => dw (n.1 + n.2 * 2 ^ 32)) ++ List.replicate (4 - min 4 c.nsids.length) 0) ++
  (q.done.take 15).map (fun x => dw (x + 1))

/-- What those qwords say: controller, queue number, whether it is a completion queue, the controller, the queue. -/
def wordsNvq (port handle : Nat) (d : List Dword) : Nat × Nat × Bool × NvCtl × NvQ :=
  let a := qw d 0
  let e := qw d 5
  (bits a 15 0, bits a 31 16, bit a 32,
   { port := port, sel := bits e 11 0, owner := bits e 55 40, maxq := bits (qw d 6) 31 0, mqes := bits (qw d 6) 63 32, pin := bits e 23 16,
     weight := bits e 39 24, state := bits e 15 12, cc := w32 (qw d 7), aqa := w32 (qw d 7 / 2 ^ 32), asq := qw d 8, acq := qw d 9,
     intms := w32 (qw d 10),
     nsids := ((d.drop 12).take (min 4 (qw d 11))).map (fun n => (bits n.toNat 31 0, bits n.toNat 63 32)) },
   { base := qw d 1, size := bits (qw d 2) 31 0, handle := handle, head := bits (qw d 2) 63 32, tail := bits (qw d 3) 31 0,
     cq := bits (qw d 3) 63 32, prio := bits (qw d 4) 31 0, iv := bits (qw d 4) 63 32, ien := bit a 34, phase := bit a 33,
     fetch := bits (qw d 2) 63 32, done := (d.drop 16).filterMap (fun x => if x = 0 then none else some (x.toNat - 1)) })

end Sys2Proof.Machine
end

