-- ==== Sys2Proof/Machine/Nvme.lean ====
section
/-! DEFINITION. The NVMe front end: controllers, completions and events, arbitration, I/O commands, range locks, backings and
their loss (R131, R273 to R291). -/

namespace Sys2Proof.Machine

/-! ## Controllers and queues (R273, R276, R277) -/

def setCtl (s : State) (i : Nat) (c : NvCtl) : State := { s with ctls := Tbl.put s.ctls i c }
def updCtl (s : State) (i : Nat) (f : NvCtl → NvCtl) : State := { s with ctls := Tbl.upd s.ctls i f }
def setNs (s : State) (n : Nat) (x : NvNs) : State := { s with nss := Tbl.put s.nss n x }

/-- The controller of a function. -/
def ctlOf (s : State) (port sel : Nat) : Option (Nat × NvCtl) := s.ctls.find? (fun c => c.2.port == port && c.2.sel == sel)

/-- A queue of a controller. -/
def NvCtl.sq? (c : NvCtl) (y : Nat) : Option NvQ := Tbl.get? c.sqs y
def NvCtl.cq? (c : NvCtl) (y : Nat) : Option NvQ := Tbl.get? c.cqs y
def updSq (s : State) (i y : Nat) (f : NvQ → NvQ) : State := updCtl s i (fun c => { c with sqs := Tbl.upd c.sqs y f })
def updCq (s : State) (i y : Nat) (f : NvQ → NvQ) : State := updCtl s i (fun c => { c with cqs := Tbl.upd c.cqs y f })

/-- Entries from `a` to `b` in a queue of `n`. -/
def ringDist (n a b : Nat) : Nat := if n = 0 then 0 else (b + n - a % n) % n

/-- The controllers' status: CSTS.SHST and the rest (R274, R275). -/
def cstsOf (c : NvCtl) : Nat :=
  let live := fun (st : Nat) => st == 1 || st == 2 || st == 3
  b2n (live c.state) + b2n (c.state == 4) * 2 + (if c.state = 2 then 4 else if c.state = 3 then 8 else 0)

/-- The MSI-X table size of a function as its port presents it (R93). -/
def msixSize (s : State) (port sel : Nat) : Nat :=
  let a := (hportOf s port).shown
  if sel = 0 then a.pf0 else if sel = 1 then a.pf1 else if sel < 0x800 then a.vf0 else a.vf1

/-- The calendar slice of the front end (log 29). -/
def nvSlice : Nat := 35

/-! ## Completions (R131, R277, R278) -/

/-- A completion entry (NVMe 2.0): Dword 0, SQHD, SQ, command ID, phase and status. -/
def cqe (x : NvCpl) (sqhd : Nat) (phase : Bool) : List Dword :=
  [dw (x.dw0 % 2 ^ 32), dw (sqhd + x.sq * 2 ^ 16 + x.cid * 2 ^ 32 + b2n phase * 2 ^ 48 + x.status * 2 ^ 49)]

/-- The completion queue of an SQ. -/
def cqOfSq (c : NvCtl) (y : Nat) : Nat := match c.sq? y with | some q => if y = 0 then 0 else q.cq | none => 0

/-- SQHD moves past entries whose completions are visible (R277). -/
def slideHead : Nat → NvQ → NvQ
  | 0, q => q
  | f + 1, q =>
    if q.done.contains q.head ∧ q.head ≠ q.fetch then
      slideHead f { q with done := setDel q.done q.head, head := (q.head + 1) % q.size }
    else q

/-- An SQ with one more entry done. -/
def markDone (q : NvQ) (slot : Nat) : NvQ := slideHead (q.done.length + 1) { q with done := setAdd q.done slot }

/-- The entry an SQ's next completion shows in SQHD: as once this completion is visible. -/
def sqhdAfter (c : NvCtl) (x : NvCpl) : Nat := match c.sq? x.sq with | some q => (markDone q x.slot).head | none => 0

/-- The interrupt of a completion queue (R274, R294): at once, or by threshold and time. -/
def cqInterrupt (s : State) (i y : Nat) : State :=
  match Tbl.get? s.ctls i with
  | none => s
  | some c =>
    match c.cq? y with
    | none => s
    | some q =>
      if !q.ien then s
      else
        let f := (Tbl.getD c.feats 0x08 (0 : Word)).toNat
        let thr := bits f 7 0
        let time := bits f 15 8
        if y = 0 ∨ time = 0 ∨ thr < q.coal + 1 then sendVector (updCq s i y (fun q => { q with coal := 0 })) c.port c.sel q.iv
        else
          let s := updCq s i y (fun q => { q with coal := q.coal + 1 })
          if c.coalAt.isSome then s
          else
            let at_ := s.ns + time * 100000
            match s.schedule nvSlice at_ blkNVME 3 i with
            | (s, true) => updCtl s i (fun c => { c with coalAt := some at_ })
            | (s, false) => sendVector (updCq (s.bumpErr blkNVME 0 8) i y (fun q => { q with coal := 0 })) c.port c.sel q.iv

/-- Every command fetched is completed or discarded: a shutdown ends (R275). -/
def checkShutdown (s : State) (i : Nat) : State :=
  match Tbl.get? s.ctls i with
  | some c => if c.state = 2 ∧ !(s.nvCmds.any (fun x => x.ctl == i)) ∧ c.cqs.all (fun q => q.2.held.isEmpty) then
      updCtl s i (fun c => { c with state := 3 }) else s
  | none => s

/-- The meters of a completed I/O command: counter and amount (R364). -/
def nvMeters (x : NvCmd) : List (Nat × Nat) :=
  let bytes := if x.status = 0 ∧ (x.op = 1 ∨ x.op = 2) then 4096 * (x.ranges.map Prod.snd).sum else 0
  [(if x.op = 2 then 25 else if x.op = 1 then 26 else 27, 1)] ++ (if bytes = 0 then [] else [(if x.op = 2 then 28 else 29, bytes)])

/-- The contexts of a controller's queue changed: mirrored for a paired port (R389). -/
def mirrorNvq (s : State) (i y : Nat) (isCq : Bool) (f : NvQ → NvQ) (more : Bool) : State :=
  match Tbl.get? s.ctls i with
  | none => s
  | some c =>
    match (if isCq then c.cq? y else c.sq? y) with
    | none => s
    | some q => mirrorCtx s c.port q.handle (nvqWords i y isCq c (f q)) more

/-- The meters and counters of a completed I/O command (R296, R364). -/
def nvCount (s : State) (i : Nat) (x : NvCmd) : State :=
  let owner := ((Tbl.get? s.ctls i).map (fun c => c.owner)).getD 4096
  (nvMeters x).foldl (fun (s : State) (n : Nat × Nat) =>
    let s := charge s 0 owner n.1 n.2 s.ns
    if n.1 = 28 then s.bumpStat NVME.RD_BYTES 0 n.2 else if n.1 = 29 then s.bumpStat NVME.WR_BYTES 0 n.2 else s) (s.bumpStat NVME.CMDS 0)

/-- A completion is visible: the SQ window moves, the command's lock entries are released, the interrupt goes. -/
def nvVisible (s : State) (i : Nat) (x : NvCpl) : State :=
  let y := match Tbl.get? s.ctls i with | some c => cqOfSq c x.sq | none => 0
  let s := updSq s i x.sq (fun q => markDone q x.slot)
  let s := match x.token with
    | some t =>
      match s.nvCmds.find? (fun c => c.token == t) with
      | some c => nvCount { s with nvCmds := s.nvCmds.filter (fun c => c.token != t) } i c
      | none => s
    | none => s
  checkShutdown (cqInterrupt s i y) i

/-- The next free slot of a completion queue, if it has one. -/
def NvQ.full (q : NvQ) : Bool := ringDist q.size q.head ((q.tail + 1) % q.size) == 0

/-- Write a completion into a queue with room (R98, R278): visible now, or with its MACK while PAIRED. -/
def writeCqe (s : State) (i y : Nat) (x : NvCpl) : State :=
  match Tbl.get? s.ctls i with
  | none => s
  | some c =>
    match c.cq? y with
    | none => s
    | some q =>
      let o := Out.hostWrite c.port c.sel (q.base + 16 * q.tail) (cqe x (sqhdAfter c x) q.phase)
      let tail := (q.tail + 1) % q.size
      let s := updCq s i y (fun q => { q with tail := tail, phase := if tail = 0 then !q.phase else q.phase })
      let handle := ((c.sq? x.sq).map (fun q => q.handle)).getD 0
      let s := { s with ctxs := Tbl.upd (Tbl.upd s.ctxs handle (fun c => { c with dirty := true, ref := true })) q.handle
                                 (fun c => { c with dirty := true, ref := true }) }
      let s := mirrorNvq (mirrorNvq s i x.sq false (fun q => markDone q x.slot) true) i y true id true
      let s := match x.token.bind (fun t => s.nvCmds.find? (fun c => c.token == t)) with
        | some m => (nvMeters m).foldl (fun (s : State) (n : Nat × Nat) => mirrorMeter s c.port c.owner n.1 n.2) s
        | none => s
      if pairState s = 3 ∧ portPaired s c.port then
        complete s c.port handle x.slot 3 { mseq := 0, outs := [o], nv := [(i, x)] }
      else
        nvVisible (if portPaired s c.port then mirrorRec s 0x02 [dw (handle + x.slot * 2 ^ 32 + 3 * 2 ^ 48)] |>.emit o else s.emit o) i x

/-- Error Information (R293): what a failed completion leaves, newest first, 16 at most. -/
def logError (s : State) (i : Nat) (sq cid status nsid : Nat) : State :=
  updCtl s i (fun c => { c with errLog := ([c.errLog.length + 1, sq, cid, status * 2, nsid] :: c.errLog).take 16 })

/-- Complete a command (R131): into its queue, or held while the queue is full. -/
def nvComplete (s : State) (i : Nat) (x : NvCpl) : State :=
  let s := if x.status = 0 then s else logError s i x.sq x.cid x.status 0
  match Tbl.get? s.ctls i with
  | none => s
  | some c =>
    let y := cqOfSq c x.sq
    match c.cq? y with
    | none => s
    | some q => if q.full || !q.held.isEmpty then updCq s i y (fun q => { q with held := q.held ++ [x] }) else writeCqe s i y x

/-- Held completions are written in order while there is room (R131). -/
def drainCq (i y : Nat) : Nat → State → State
  | 0, s => s
  | f + 1, s =>
    match (Tbl.get? s.ctls i).bind (fun c => c.cq? y) with
    | none => s
    | some q =>
      match q.held with
      | [] => s
      | x :: t => if q.full then s else drainCq i y f (writeCqe (updCq s i y (fun q => { q with held := t })) i y x)

/-! ## Asynchronous events (R274, R290, R292) -/

/-- Report what is due while a request is outstanding; a type reported is masked until its log page is read. -/
def reportEvents (i : Nat) : Nat → State → State
  | 0, s => s
  | f + 1, s =>
    match Tbl.get? s.ctls i with
    | none => s
    | some c =>
      match c.aers, c.aerDue.find? (fun e => !c.aerMask.contains (e % 8)) with
      | a :: rest, some e =>
        let s := updCtl s i (fun c => { c with aers := rest, aerDue := c.aerDue.erase e, aerMask := setAdd c.aerMask (e % 8) })
        reportEvents i f (nvComplete s i { sq := 0, slot := a / 65536, cid := a % 65536, status := 0, dw0 := e, token := none })
      | _, _ => s

/-- An event for a controller: type, information, log page. -/
def nvEvent (s : State) (i type info page : Nat) : State :=
  let e := type + info * 256 + page * 65536
  reportEvents i 4 (updCtl s i (fun c => { c with aerDue := setAdd c.aerDue e }))

/-- An invalid doorbell (R274): 0 register, 1 value. -/
def badDoorbell (s : State) (i y info : Nat) : State :=
  nvEvent (logError (s.bumpErr blkNVME 0 3) i y 0xFFFF 0 0) i 0 info 0x01

/-- A Namespace Attribute Changed notice to the controllers of a namespace that ask for it (R290, R294). -/
def nsNotice (s : State) (n : Nat) : State :=
  s.ctls.foldl (fun (s : State) (c : Nat × NvCtl) =>
    match c.2.nsids.find? (fun x => x.2 == n) with
    | some (nsid, _) =>
      let s := updCtl s c.1 (fun c => { c with changed := setAdd c.changed nsid })
      if bit (Tbl.getD c.2.feats 0x0B (0 : Word)).toNat 8 then nvEvent s c.1 2 0 0x04 else s
    | none => s) s

/-! ## Controller states (R275) -/

/-- FATAL (R275). -/
def ctlFatal (s : State) (i : Nat) : State := (updCtl s i (fun c => { c with state := 4 })).istat blkNVME 0 0

/-- Commands that meet a condition are discarded: their lock entries are released, their deadlines cancelled. -/
def nvDiscard (s : State) (p : NvCmd → Bool) : State :=
  let gone := s.nvCmds.filter p
  let s := { s with nvCmds := s.nvCmds.filter (fun c => !p c) }
  gone.foldl (fun (s : State) (c : NvCmd) => s.cancelAll blkNVME 1 c.token) s

/-- Every context of a controller's queues is released. -/
def freeNvQueues (s : State) (c : NvCtl) : State :=
  (c.sqs ++ c.cqs).foldl (fun (s : State) (q : Nat × NvQ) => destroyCtx s q.2.handle) s

/-- A controller reset (R275): in-flight commands discarded, queues deleted. -/
def ctlReset (s : State) (i : Nat) : State :=
  match Tbl.get? s.ctls i with
  | none => s
  | some c =>
    let s := (nvDiscard s (fun x => x.ctl == i)).cancelAll blkNVME 3 i
    let s := setTwin s (fun t => { t with waiting := t.waiting.filter (fun w => !(w.nv.any (fun x => x.1 == i))) })
    setCtl (freeNvQueues s c) i { c with state := 0, sqs := [], cqs := [], feats := [], nq := none, aers := [], aerDue := [],
                                         aerMask := [], coalAt := none, rrPtr := 0, wrr := [0, 0, 0] }

/-- A context for a queue of a controller (R276). -/
def nvCtx (s : State) (c : NvCtl) : State × Option Nat := createCtx s 1 3 c.owner c.pin c.port

/-- CC.EN rises on a DISABLED controller (R275). -/
def ctlEnable (s : State) (i : Nat) (c : NvCtl) : State :=
  let cc := c.cc.toNat
  let asqs := bits c.aqa.toNat 11 0
  let acqs := bits c.aqa.toNat 27 16
  if bits cc 10 7 ≠ 0 ∨ bits cc 6 4 ≠ 0 ∨ 1 < bits cc 13 11 ∨ c.mqes < asqs ∨ c.mqes < acqs ∨ asqs = 0 ∨ acqs = 0 ∨
      c.asq % 4096 ≠ 0 ∨ c.acq % 4096 ≠ 0 then ctlFatal (s.bumpErr blkNVME 0 4) i
  else
    match nvCtx s c with
    | (s, none) => ctlFatal (s.bumpErr blkNVME 0 5) i
    | (s, some h) =>
      match nvCtx s c with
      | (s, none) => ctlFatal (freeHandle (s.bumpErr blkNVME 0 5) h) i
      | (s, some k) =>
        let s := setCtl s i { c with state := 1, sqs := [(0, { base := c.asq, size := asqs + 1, handle := h })],
                                     cqs := [(0, { base := c.acq, size := acqs + 1, handle := k, ien := true })] }
        mirrorNvq (mirrorNvq s i 0 false id true) i 0 true id false

/-- CC is written (R274, R275). -/
def ccWrite (s : State) (port sel : Nat) (value : Nat) : State :=
  match ctlOf s port sel with
  | none => s
  | some (i, c) =>
    let was := bit c.cc.toNat 0
    let en := bit value 0
    let shn := bits value 15 14
    let c := { c with cc := w32 (value % 2 ^ 24) }
    let s := setCtl s i c
    if !was && en && c.state == 0 then ctlEnable s i c
    else if was && !en && (c.state == 1 || c.state == 2 || c.state == 3 || c.state == 4) then ctlReset s i
    else if (shn == 1 || shn == 2) && c.state == 1 then checkShutdown (updCtl s i (fun c => { c with state := 2 })) i
    else s

/-- An FLR or reset of the function (R275): as CC.EN falling, registers to reset values. -/
def ctlFlr (s : State) (i : Nat) : State :=
  match Tbl.get? s.ctls i with
  | none => s
  | some c => if c.state = 5 then s else
      updCtl (ctlReset s i) i (fun c => { c with cc := 0, aqa := 0, asq := 0, acq := 0, intms := 0, errLog := [], changed := [] })

/-- A queue context of a controller is LOST (R275). -/
def ctlLost (s : State) (h : Nat) : State :=
  match s.ctls.find? (fun c => (c.2.sqs ++ c.2.cqs).any (fun q => q.2.handle == h)) with
  | some (i, c) =>
    let s := s.istat blkNVME 0 2
    if c.state = 1 ∨ c.state = 2 then ctlFatal (nvDiscard s (fun x => x.ctl == i)) i else s
  | none => s

/-! ## Range locks (R283, R284) -/

/-- Entries in use. -/
def locksUsed (s : State) : Nat := (s.nvCmds.map (fun c => c.ranges.length)).sum

/-- Two commands conflict: the same namespace, ranges that overlap, not both Reads (R284). -/
def conflicts (a b : NvCmd) : Bool :=
  a.ns == b.ns && !(a.op == 2 && b.op == 2) &&
    a.ranges.any (fun x => b.ranges.any (fun y => decide (x.1 < y.1 + y.2) && decide (y.1 < x.1 + x.2)))

/-- An earlier-fetched command that a command must wait for. -/
def blocked (s : State) (x : NvCmd) : Bool := s.nvCmds.any (fun c => decide (c.token < x.token) && conflicts c x)

def updCmd (s : State) (t : Nat) (f : NvCmd → NvCmd) : State :=
  { s with nvCmds := s.nvCmds.map (fun c => if c.token = t then f c else c) }

/-- A fetched I/O command completes. -/
def cmdDone (s : State) (x : NvCmd) (status : Nat) : State :=
  let s := updCmd (s.cancelAll blkNVME 1 x.token) x.token (fun c => { c with status := status, phase := 3 })
  nvComplete s x.ctl { sq := x.sq, slot := x.slot, cid := x.cid, status := status, dw0 := 0, token := some x.token }

/-! ## Backings (R285 to R290) -/

/-- The pieces of a range: a write of more than 32 blocks splits at multiples of 32 (R285). -/
def pieces (split : Bool) : Nat → Nat → Nat → List (Nat × Nat)
  | 0, _, _ => []
  | f + 1, at_, n =>
    if n = 0 then []
    else if !split then [(at_, n)]
    else
      let k := min n (32 - at_ % 32)
      (at_, k) :: pieces split f (at_ + k) (n - k)

/-- The pieces of a command. -/
def cmdPieces (x : NvCmd) : List (Nat × Nat) :=
  x.ranges.flatMap (fun r => pieces ((x.op == 1 || x.op == 8) && decide (32 < r.2)) (r.2 / 32 + 2) r.1 r.2)

/-- OP of a backing request and of an NVME_MAP item (R332). -/
def bkOp (op : Nat) : Nat := match op with | 2 => 0 | 1 => 1 | 8 => 2 | _ => 3

/-- Read data goes to the host by the PRPs: the first page at PRP1, the rest shown at PRP2 (log 30). -/
def prpWrite (s : State) (port sel : Nat) (sqe : List Dword) (bs : List Byte) : State :=
  let p1 := qw sqe 3
  let n := 4096 - p1 % 4096
  let s := s.hostPayload port sel p1 (bs.take n)
  if bs.length ≤ n then s else s.hostPayload port sel (qw sqe 4) (bs.drop n)

/-- The data that a command brings, read by its PRP entries (R283, log 30). -/
def prpRead (s : State) (port sel : Nat) (sqe : List Dword) (len : Nat) : State :=
  let p1 := qw sqe 3
  let n := 4096 - p1 % 4096
  let s := s.hostReads port sel 8 p1 (min n len) (s.relaxed port sel)
  if len ≤ n then s else s.hostReads port sel 8 (qw sqe 4) (len - n) (s.relaxed port sel)

/-- The slot of a cached block. -/
def cacheSlotOf (x : NvNs) (b : Nat) : Nat := b % max 1 (qb x.data 5 31 0)
def cachedAll (x : NvNs) (rs : List (Nat × Nat)) : Bool :=
  bit (qw x.data 0) 61 && qb x.data 5 31 0 != 0 &&
    rs.all (fun r => (List.range r.2).all (fun k => Tbl.get? x.cache (cacheSlotOf x (r.1 + k)) == some (r.1 + k)))
def cacheAddr (x : NvNs) (b : Nat) : Nat := qw x.data 4 + 4096 * cacheSlotOf x b

/-- A command's BK_TIMEOUT deadline at a time (R290, R291). -/
def bkTimeoutAt (s : State) (t at_ : Nat) : State :=
  match s.schedule nvSlice at_ blkNVME 1 t with
  | (s, true) => updCmd s t (fun c => { c with timeout := some at_, timeoutRetry := none })
  | (s, false) => updCmd (s.bumpErr blkNVME 0 8) t (fun c => { c with timeout := some at_, timeoutRetry := some (s.ns + 100000) })

/-- A deadline of BK_TIMEOUT for a command (R290). -/
def bkTimeout (s : State) (t : Nat) : State := bkTimeoutAt s t (s.ns + s.rd NVME.BK_TIMEOUT * 1000000)

/-- A namespace's BK_HOLD deadline at a time (R290, R291). -/
def bkHoldAt (s : State) (n : Nat) (x : NvNs) (at_ : Nat) : State :=
  match s.schedule nvSlice at_ blkNVME 2 n with
  | (s, true) => setNs s n { x with hold := some at_, holdRetry := none }
  | (s, false) => setNs (s.bumpErr blkNVME 0 8) n { x with hold := some at_, holdRetry := some (s.ns + 100000) }

/-- One request to a backing queue (R287): LBA in backing blocks. -/
def backingOut (s : State) (x : NvCmd) (d : List Dword) (bkq lba n : Nat) : State :=
  let k := if bit (qw d 2) 45 then 8 else 1
  s.emit (.backing x.token bkq (bkOp x.op) (qw d 1 + lba * k) (n * k))

/-- A command is carried out (R285 to R289): from the cache, by the mapper, or at the linear backing. -/
def startAtBacking (s : State) (x : NvCmd) : State :=
  match Tbl.get? s.nss x.ns with
  | none => cmdDone s x 0x06
  | some n =>
    let port := ((Tbl.get? s.ctls x.ctl).map (fun c => c.port)).getD 0
    let sel := ((Tbl.get? s.ctls x.ctl).map (fun c => c.sel)).getD 0
    let s := s.raiseMax RLOCK.STALL_MAX 0 (if x.phase = 0 ∧ x.since ≠ 0 then s.ns - x.since else 0)
    let hit := x.op == 2 && cachedAll n x.ranges
    if hit && !bit (qw x.sqe 8) 0 then
      let bs := x.ranges.flatMap (fun r => (List.range r.2).flatMap (fun k => Memory.readBytes s.mem (cacheAddr n (r.1 + k)) 4096))
      cmdDone (prpWrite (s.bumpStat NVME.CACHE_HIT 0) port sel x.sqe bs) x 0
    else
      let s := if hit then s.bumpErr blkNVME 0 6 else s
      let s := if x.op = 1 then prpRead s port sel x.sqe (4096 * (x.ranges.map Prod.snd).sum) else s
      if x.op = 1 ∧ bit (qw x.sqe 8) 1 then cmdDone s x 0x04
      else
        let ps := cmdPieces x
        let s := updCmd s x.token (fun c => { c with
          phase := 1, pieces := ps.length, unmapped := if bit (qw n.data 0) 62 then ps else [],
          bkq := qb n.data 2 41 32 + x.sq % (qb n.data 2 44 42 + 1) })
        if bit (qw n.data 0) 62 then
          let owner := ownerIx (qb n.data 0 59 48) (bit (qw n.data 0) 60)
          let r := ps.foldl (fun (a : State × Bool) p =>
            let d := deliver a.1 (qb n.data 5 39 32) 0x06 owner x.ns x.token p.1 (p.2 - 1 + bkOp x.op * 2 ^ 16)
            (d.1, a.2 && d.2)) (s, true)
          if r.2 then r.1 else cmdDone r.1 x 0x06
        else
          bkTimeout (ps.foldl (fun (s : State) p =>
            backingOut s x n.data (qb n.data 2 41 32 + x.sq % (qb n.data 2 44 42 + 1)) p.1 p.2) s) x.token

/-- A fetched command starts, waits by R284, is held by R290, or fails at once. -/
def admitCmd (s : State) (x : NvCmd) : State :=
  match (Tbl.get? s.nss x.ns).map (fun n => n.state) with
  | some 1 => updCmd s x.token (fun c => { c with phase := 2 })
  | some 2 => cmdDone s x 0x82
  | _ =>
    if blocked s x then (updCmd s x.token (fun c => { c with phase := 0, since := s.ns })).bumpStat RLOCK.STALL 0
    else startAtBacking s x

/-- R284: a waiting command starts once nothing it conflicts with holds a lock. -/
def lockGrant (t : Nat) (s : State) : State :=
  match s.nvCmds.find? (fun c => c.token == t) with
  | some x =>
    if x.phase ≠ 0 ∨ blocked s x then s
    else if (Tbl.get? s.nss x.ns).map (fun n => n.state) == some 1 then updCmd s t (fun c => { c with phase := 2 })
    else startAtBacking s x
  | none => s

/-- A namespace loses its backing (R290). -/
def nsLost (s : State) (n : Nat) : State :=
  match Tbl.get? s.nss n with
  | none => s
  | some x =>
    if x.state ≠ 0 then s
    else
      let mine := s.nvCmds.filter (fun c => c.ns == n && c.phase == 1)
      let s := mine.foldl (fun (s : State) (c : NvCmd) =>
        updCmd (s.cancelAll blkNVME 1 c.token) c.token (fun c => { c with phase := 2, timeout := none, timeoutRetry := none })) s
      let s := (setNs s n { x with state := 1 }).istat blkNVME 0 1
      bkHoldAt s n { x with state := 1 } (s.ns + s.rd NVME.BK_HOLD * 1000000)

/-- Namespaces that use a backing queue. -/
def usesBkq (x : NvNs) (q : Nat) : Bool := qb x.data 2 41 32 ≤ q && q ≤ qb x.data 2 41 32 + qb x.data 2 44 42

/-- A backing queue is lost (R290). -/
def bkqLost (s : State) (q : Nat) : State :=
  (s.nss.filter (fun n => usesBkq n.2 q)).foldl (fun (s : State) (n : Nat × NvNs) => nsLost s n.1) s

/-- The backing queues whose QP is in ERROR, or whose D port went down (R290). -/
def backingQpError (s : State) (qpn : Nat) : State :=
  (s.bkqs.filter (fun q => qb q.2 0 1 0 == 1 && qb q.2 0 25 2 == qpn)).foldl (fun (s : State) (q : Nat × List Dword) => bkqLost s q.1) s
def backingPortDown (s : State) (oct port : Nat) : State :=
  (s.bkqs.filter (fun q => qb q.2 0 1 0 == 2 && qb q.2 0 32 26 == oct && qb q.2 0 34 33 == port)).foldl
    (fun (s : State) (q : Nat × List Dword) => bkqLost s q.1) s

/-- The BK_HOLD deadline fires (R290). -/
def bkHoldFire (s : State) (n : Nat) : State :=
  match Tbl.get? s.nss n with
  | none => s
  | some x =>
    if x.state ≠ 1 then s
    else
      let s := (setNs s n { x with state := 2, hold := none, holdRetry := none }).bumpErr blkNVME 0 7
      let s := (s.nvCmds.filter (fun c => c.ns == n && (c.phase == 2 || c.phase == 0))).foldl (fun (s : State) (c : NvCmd) => cmdDone s c 0x82) s
      nsNotice s n

/-- A BK_TIMEOUT deadline fires (R290). -/
def bkTimeoutFire (s : State) (t : Nat) : State :=
  match s.nvCmds.find? (fun c => c.token == t) with
  | some x => if x.phase = 1 then nsLost s x.ns else s
  | none => s

/-- A backing request completes (R282, R289, R290). -/
def backingDone (t : Nat) (reply : ReadEnd) (status : Nat) (s : State) : State :=
  match s.nvCmds.find? (fun c => c.token == t) with
  | none => s
  | some x =>
    if x.phase ≠ 1 then s
    else
      let code := match reply with
        | .failed => 0x06
        | .poisoned => 0x06
        | .data _ => if status % 2 ^ 11 = 0 then 0 else if bits status 10 8 = 2 then status % 2 ^ 11 else 0x06
      let port := ((Tbl.get? s.ctls x.ctl).map (fun c => c.port)).getD 0
      let sel := ((Tbl.get? s.ctls x.ctl).map (fun c => c.sel)).getD 0
      let x := { x with status := if x.status = 0 then code else x.status, pieces := x.pieces - 1 }
      let s := updCmd s t (fun _ => x)
      let bs := match reply with | .data b => b | _ => []
      let s := if x.op = 2 ∧ code = 0 then prpWrite s port sel x.sqe bs else s
      if x.pieces ≠ 0 then s
      else
        let s := match Tbl.get? s.nss x.ns with
          | none => s
          | some n =>
            if !bit (qw n.data 0) 61 ∨ qb n.data 5 31 0 = 0 then s
            else
              let blocks := x.ranges.flatMap (fun r => (List.range r.2).map (· + r.1))
              if x.op = 2 ∧ x.status = 0 then
                (blocks.zipIdx).foldl (fun (s : State) (b : Nat × Nat) =>
                  { s.memPut (cacheAddr n b.1) (cut bs (4096 * b.2) 4096) with
                    nss := Tbl.upd s.nss x.ns (fun n => { n with cache := Tbl.put n.cache (cacheSlotOf n b.1) b.1 }) }) s
              else if x.op ≠ 2 then
                setNs s x.ns { n with cache := n.cache.filter (fun c => !blocks.contains c.2) }
              else s
        cmdDone s x x.status

/-! ## I/O commands (R282) -/

def sqeOp (e : List Dword) : Nat := qb e 0 7 0
def sqeCid (e : List Dword) : Nat := qb e 0 31 16
def sqeNsid (e : List Dword) : Nat := qb e 0 63 32
def sqeDw (e : List Dword) (n : Nat) : Nat := qw e (n / 2) / 2 ^ (32 * (n % 2)) % 2 ^ 32

/-- A fetched command that completes at once. -/
def cmdNow (s : State) (i sq slot : Nat) (e : List Dword) (status dw0 : Nat) : State :=
  nvComplete s i { sq := sq, slot := slot, cid := sqeCid e, status := status, dw0 := dw0, token := none }

/-- An I/O command that needs no lock completes and counts. -/
def ioNow (s : State) (i sq slot : Nat) (e : List Dword) (status : Nat) : State :=
  let t := s.nextToken
  let x : NvCmd := { token := t, ctl := i, sq := sq, slot := slot, cid := sqeCid e, op := sqeOp e, nsid := sqeNsid e, ns := 0,
                     ranges := [], sqe := e, phase := 3, status := status }
  nvComplete { s with nextToken := t + 1, nvCmds := s.nvCmds ++ [{ x with ns := 8192 }] } i
    { sq := sq, slot := slot, cid := x.cid, status := status, dw0 := 0, token := some t }

/-- The ranges a command locks, or the status it ends with (R282). -/
def ioCheck (n : NvNs) (e : List Dword) (ranges : Option (List (Nat × Nat))) : Sum Nat (List (Nat × Nat)) :=
  let size := qb n.data 0 47 0
  let op := sqeOp e
  let slba := qw e 5
  let nlb := sqeDw e 12 % 65536 + 1
  if op = 9 then
    if !bit (sqeDw e 11) 2 then .inr []
    else
      match ranges with
      | none => .inl 0x04
      | some rs => if rs.any (fun r => decide (size < r.1 + r.2)) then .inl 0x80 else .inr (rs.filter (fun r => r.2 != 0))
  else if (op = 1 ∨ op = 2) ∧ 256 < nlb then .inl 0x02
  else if size < slba + nlb then .inl 0x80
  else .inr [(slba, nlb)]

/-- The ranges of a Dataset Management command as the fetched data gives them: two qwords each (R282). -/
def dsmRanges (e : List Dword) (d : List Dword) : Option (List (Nat × Nat)) :=
  let n := sqeDw e 10 % 256 + 1
  if d.length < 2 * n then none else some ((List.range n).map (fun k => (qw d (2 * k + 1), qb d (2 * k) 63 32)))

/-- Lock entries an I/O command would take (R283). -/
def locksNeeded (e : List Dword) : Nat :=
  match sqeOp e with
  | 1 => 1
  | 2 => 1
  | 8 => 1
  | 9 => if bit (sqeDw e 11) 2 then sqeDw e 10 % 256 + 1 else 0
  | _ => 0

/-- An I/O command fetched from a slot of an SQ (R282, R283). -/
def startIo (s : State) (i sq slot : Nat) (e : List Dword) (ranges : Option (List (Nat × Nat))) : State :=
  let op := sqeOp e
  let ns := (Tbl.get? s.ctls i).bind (fun c => Tbl.get? c.nsids (sqeNsid e))
  if !(op == 0 || op == 1 || op == 2 || op == 8 || op == 9) then ioNow s i sq slot e 0x01
  else if qb e 0 15 14 ≠ 0 then ioNow s i sq slot e 0x02
  else
    match ns.bind (fun n => (Tbl.get? s.nss n).map (fun x => (n, x))) with
    | none => ioNow s i sq slot e 0x0B
    | some (n, x) =>
      if op = 0 then ioNow s i sq slot e 0
      else
        match ioCheck x e ranges with
        | .inl status => ioNow s i sq slot e status
        | .inr [] => ioNow s i sq slot e 0
        | .inr rs =>
          let t := s.nextToken
          let c : NvCmd := { token := t, ctl := i, sq := sq, slot := slot, cid := sqeCid e, op := op, nsid := sqeNsid e, ns := n,
                             ranges := rs, sqe := e }
          let s := { s with nextToken := t + 1, nvCmds := s.nvCmds ++ [c] }
          let s := s.raiseMax RLOCK.OCC_HWM 0 (locksUsed s)
          admitCmd (if 65536 ≤ locksUsed s then s.istat blkRLOCK 0 0 else s) c

end Sys2Proof.Machine
end

