-- ==== Sys2Proof/Machine/NvmeRows.lean ====
section
/-! DEFINITION. NVMe rows: doorbells, fetch turns, admin commands, and the commands of the NVME and RLOCK pages (R274 to R297). -/

namespace Sys2Proof.Machine

/-! ## Data the front end returns (R292 to R294) -/

/-- A block of `n` bytes with fields at offsets. -/
def fields (n : Nat) (fs : List (Nat × List Byte)) : List Byte := fs.foldl (fun bs f => overlay bs f.1 f.2) (List.replicate n 0)

/-- Identify Controller (R292, R295): CNTLID, OACS, FRMW. -/
def identController (cntlid oacs frmw : Nat) : List Byte :=
  fields 4096 [(0, leBytes 2 0x1F7A), (2, leBytes 2 0x1F7A), (77, leBytes 1 8), (78, leBytes 2 cntlid), (80, leBytes 4 0x00020000),
    (92, leBytes 4 0x100), (256, leBytes 2 oacs), (259, leBytes 1 3), (260, leBytes 1 frmw), (262, leBytes 1 15),
    (512, leBytes 1 0x66), (513, leBytes 1 0x44), (516, leBytes 4 256), (520, leBytes 2 0x0C), (526, leBytes 2 31), (528, leBytes 2 31)]

/-- Identify Namespace (R285). -/
def identNamespace (x : NvNs) : List Byte :=
  let size := leBytes 8 (qb x.data 0 47 0)
  fields 4096 [(0, size), (8, size), (16, size), (130, leBytes 1 12)]

/-- The highest temperature sensor, in 1/16 °C, over those that are valid (R439). -/
def hottest (s : State) : Int :=
  (List.range 64).foldl (fun (m : Int) n =>
    let v := s.rd THERM.TEMP 0 n
    if bit v 31 then m else max m (signed 16 v)) (-32768)

/-- A meter of an owner in the bank of the minute in progress (R365). -/
def meterNow (s : State) (x i : Nat) : Nat :=
  qw (s.memGetQ (counterAddr s (bankOf (minuteOf s s.ns)) x i) 1) 0

/-- REVISION of a manifest (R406). -/
def revisionOf (manifest : List Byte) : List Byte := leBytes 8 (leNat ((manifest.drop 16).take 8))

/-- The log pages of R293, whole. -/
def logPage (s : State) (c : NvCtl) (lid : Nat) : Option (List Byte) :=
  match lid with
  | 1 => some (((c.errLog ++ List.replicate 16 []).take 16).flatMap (fun (e : List Nat) =>
      fields 64 [(0, leBytes 8 (e.getD 0 0)), (8, leBytes 2 (e.getD 1 0)), (10, leBytes 2 (e.getD 2 0)),
                 (12, leBytes 2 (e.getD 3 0)), (24, leBytes 4 (e.getD 4 0))]))
  | 2 =>
    let units := fun (i : Nat) => (meterNow s c.owner i + 511999) / 512000
    some (fields 512 [(1, leBytes 2 (hottest s / 16 + 273).toNat), (3, leBytes 1 100), (32, leBytes 16 (units 28)),
      (48, leBytes 16 (units 29)), (64, leBytes 16 (meterNow s c.owner 25)), (80, leBytes 16 (meterNow s c.owner 26))])
  | 3 => some (fields 512 [(0, leBytes 1 1), (8, revisionOf s.boot.manifest)])
  | 4 => some (if 1024 < c.changed.length then fields 4096 [(0, leBytes 4 0xFFFFFFFF)]
      else fields 4096 ((c.changed.zipIdx).map (fun n => (4 * n.2, leBytes 4 n.1))))
  | _ => none

/-- The Timestamp feature (R294): milliseconds, Synch when not traceable, origin 001b. -/
def timestamp (s : State) : List Byte :=
  leBytes 6 (s.ns / 1000000 - 1000 * (s.rd NVME.UTC_OFFSET % 256)) ++
  leBytes 1 (2 + b2n (!s.traceable)) ++ [0]

/-! ## Admin commands (R276, R292 to R294) -/

/-- I/O queues granted: counts of SQs and CQs (R294). -/
def granted (c : NvCtl) : Nat × Nat := match c.nq with | some (a, b) => (a, b) | none => (c.maxq, c.maxq)

/-- Entry sizes that queue creation needs (R274). -/
def entrySizes (c : NvCtl) : Bool := bits c.cc.toNat 19 16 == 6 && bits c.cc.toNat 23 20 == 4

/-- The checks that creating an SQ and a CQ share: 0 or the status (R276). -/
def queueCheck (c : NvCtl) (e : List Dword) (limit : Nat) (used : Bool) : Nat :=
  let qid := sqeDw e 10 % 65536
  let size := bits (sqeDw e 10) 31 16
  if qid = 0 ∨ c.maxq < qid ∨ limit < qid ∨ used then 0x101
  else if c.mqes < size ∨ size < 1 then 0x102
  else if !bit (sqeDw e 11) 0 ∨ !entrySizes c then 0x02
  else 0

def adminCreateSq (s : State) (i : Nat) (c : NvCtl) (slot : Nat) (e : List Dword) : State :=
  let qid := sqeDw e 10 % 65536
  let cq := bits (sqeDw e 11) 31 16
  match queueCheck c e (granted c).1 (c.sq? qid).isSome with
  | 0 =>
    if cq = 0 ∨ (c.cq? cq).isNone then cmdNow s i 0 slot e 0x100 0
    else
      match nvCtx s c with
      | (s, none) => cmdNow (s.bumpErr blkNVME 0 5) i 0 slot e 0x06 0
      | (s, some h) =>
        let q : NvQ := { base := qw e 3, size := bits (sqeDw e 10) 31 16 + 1, handle := h, cq := cq, prio := bits (sqeDw e 11) 2 1 }
        cmdNow (mirrorNvq (updCtl s i (fun c => { c with sqs := Tbl.put c.sqs qid q })) i qid false id false) i 0 slot e 0 0
  | st => cmdNow s i 0 slot e st 0

def adminCreateCq (s : State) (i : Nat) (c : NvCtl) (slot : Nat) (e : List Dword) : State :=
  let qid := sqeDw e 10 % 65536
  let iv := bits (sqeDw e 11) 31 16
  match queueCheck c e (granted c).2 (c.cq? qid).isSome with
  | 0 =>
    if max 1 (msixSize s c.port c.sel) ≤ iv then cmdNow s i 0 slot e 0x108 0
    else
      match nvCtx s c with
      | (s, none) => cmdNow (s.bumpErr blkNVME 0 5) i 0 slot e 0x06 0
      | (s, some h) =>
        let q : NvQ := { base := qw e 3, size := bits (sqeDw e 10) 31 16 + 1, handle := h, ien := bit (sqeDw e 11) 1, iv := iv }
        cmdNow (mirrorNvq (updCtl s i (fun c => { c with cqs := Tbl.put c.cqs qid q })) i qid true id false) i 0 slot e 0 0
  | st => cmdNow s i 0 slot e st 0

def adminDeleteSq (s : State) (i : Nat) (c : NvCtl) (slot : Nat) (e : List Dword) : State :=
  let qid := sqeDw e 10 % 65536
  match c.sq? qid with
  | some q =>
    if qid = 0 then cmdNow s i 0 slot e 0x101 0
    else
      let s := destroyCtx (nvDiscard s (fun x => x.ctl == i && x.sq == qid)) q.handle
      cmdNow (updCtl s i (fun c => { c with sqs := Tbl.del c.sqs qid })) i 0 slot e 0 0
  | none => cmdNow s i 0 slot e 0x101 0

def adminDeleteCq (s : State) (i : Nat) (c : NvCtl) (slot : Nat) (e : List Dword) : State :=
  let qid := sqeDw e 10 % 65536
  match c.cq? qid with
  | some q =>
    if qid = 0 then cmdNow s i 0 slot e 0x101 0
    else if c.sqs.any (fun x => x.1 != 0 && x.2.cq == qid) then cmdNow s i 0 slot e 0x10C 0
    else cmdNow (updCtl (destroyCtx s q.handle) i (fun c => { c with cqs := Tbl.del c.cqs qid })) i 0 slot e 0 0
  | none => cmdNow s i 0 slot e 0x101 0

/-- R293. Reading a page without RAE unmasks its event; the Changed Namespace List empties. -/
def adminGetLog (s : State) (i : Nat) (c : NvCtl) (slot : Nat) (e : List Dword) : State :=
  let lid := sqeDw e 10 % 256
  let n := 4 * (bits (sqeDw e 10) 31 16 + sqeDw e 11 % 65536 * 65536 + 1)
  match logPage s c lid with
  | none => cmdNow s i 0 slot e 0x109 0
  | some bs =>
    if qb e 0 15 14 ≠ 0 then cmdNow s i 0 slot e 0x02 0
    else
      let s := prpWrite s c.port c.sel e ((bs.drop (qw e 6)).take n)
      let s := if bit (sqeDw e 10) 15 then s else
        updCtl s i (fun c => { c with aerMask := setDel c.aerMask (if lid = 1 then 0 else if lid = 4 then 2 else 7),
                                      changed := if lid = 4 then [] else c.changed })
      reportEvents i 4 (cmdNow s i 0 slot e 0 0)

def adminIdentify (s : State) (i : Nat) (c : NvCtl) (slot : Nat) (e : List Dword) : State :=
  let nsid := sqeNsid e
  let give := fun (bs : List Byte) => cmdNow (prpWrite s c.port c.sel e bs) i 0 slot e 0 0
  if qb e 0 15 14 ≠ 0 then cmdNow s i 0 slot e 0x02 0
  else
    match sqeDw e 10 % 256 with
    | 0 =>
      if nsid = 0 ∨ 256 < nsid then cmdNow s i 0 slot e 0x0B 0
      else
        match (Tbl.get? c.nsids nsid).bind (fun n => Tbl.get? s.nss n) with
        | some x => give (identNamespace x)
        | none => give (fields 4096 [])
    | 1 => give (identController (i + 1) 0 0x03)
    | 2 => give (fields 4096 (((c.nsids.map Prod.fst).filter (fun n => decide (nsid < n))).zipIdx.map (fun n => (4 * n.2, leBytes 4 n.1))))
    | _ => cmdNow s i 0 slot e 0x02 0

def adminSetFeatures (s : State) (i : Nat) (c : NvCtl) (slot : Nat) (e : List Dword) : State :=
  let fid := sqeDw e 10 % 256
  let v := sqeDw e 11
  if !(fid == 1 || fid == 7 || fid == 8 || fid == 0x0B || fid == 0x0E) then cmdNow s i 0 slot e 0x02 0
  else if bit (sqeDw e 10) 31 then cmdNow s i 0 slot e 0x10D 0
  else if fid = 7 then
    if c.sqs.any (fun q => q.1 != 0) || c.cqs.any (fun q => q.1 != 0) then cmdNow s i 0 slot e 0x0C 0
    else if v % 65536 = 65535 ∨ bits v 31 16 = 65535 then cmdNow s i 0 slot e 0x02 0
    else
      let a := min (v % 65536 + 1) c.maxq
      let b := min (bits v 31 16 + 1) c.maxq
      cmdNow (updCtl s i (fun c => { c with nq := some (a, b) })) i 0 slot e 0 (a - 1 + (b - 1) * 65536)
  else if fid = 0x0E then cmdNow s i 0 slot e 0 0
  else cmdNow (updCtl s i (fun c => { c with feats := Tbl.put c.feats fid (w32 v) })) i 0 slot e 0 0

def adminGetFeatures (s : State) (i : Nat) (c : NvCtl) (slot : Nat) (e : List Dword) : State :=
  let fid := sqeDw e 10 % 256
  match fid with
  | 7 => cmdNow s i 0 slot e 0 ((granted c).1 - 1 + ((granted c).2 - 1) * 65536)
  | 0x0E => cmdNow (prpWrite s c.port c.sel e (timestamp s)) i 0 slot e 0 0
  | _ =>
    if fid = 1 ∨ fid = 8 ∨ fid = 0x0B then cmdNow s i 0 slot e 0 (Tbl.getD c.feats fid (0 : Word)).toNat
    else cmdNow s i 0 slot e 0x02 0

def adminAbort (s : State) (i slot : Nat) (e : List Dword) : State := cmdNow s i 0 slot e 0 1

/-- An event request waits (R292): beyond four it fails. Its entry is not complete until an event is reported. -/
def adminAer (s : State) (i : Nat) (c : NvCtl) (slot : Nat) (e : List Dword) : State :=
  if 4 ≤ c.aers.length then cmdNow s i 0 slot e 0x105 0
  else reportEvents i 4 (updCtl s i (fun c => { c with aers := c.aers ++ [slot * 65536 + sqeCid e] }))

/-- An admin command fetched from a slot (R292). -/
def startAdmin (s : State) (i slot : Nat) (e : List Dword) : State :=
  match Tbl.get? s.ctls i with
  | none => s
  | some c =>
    match sqeOp e with
    | 0x00 => adminDeleteSq s i c slot e
    | 0x01 => adminCreateSq s i c slot e
    | 0x02 => adminGetLog s i c slot e
    | 0x04 => adminDeleteCq s i c slot e
    | 0x05 => adminCreateCq s i c slot e
    | 0x06 => adminIdentify s i c slot e
    | 0x08 => adminAbort s i slot e
    | 0x09 => adminSetFeatures s i c slot e
    | 0x0A => adminGetFeatures s i c slot e
    | 0x0C => adminAer s i c slot e
    | _ => cmdNow s i 0 slot e 0x01 0

/-! ## Fetching (R277, R279 to R281, R283) -/

/-- Entries already done are skipped (R279). -/
def skipDone : Nat → NvQ → NvQ
  | 0, q => q
  | f + 1, q => if q.fetch ≠ q.tail ∧ q.done.contains q.fetch then skipDone f { q with fetch := (q.fetch + 1) % q.size } else q

/-- An SQ may be fetched: it holds a command, its CQ holds nothing back, its window has room. -/
def sqReady (c : NvCtl) (y : Nat) (q : NvQ) : Bool :=
  let q := skipDone (q.done.length + 1) q
  q.fetch != q.tail && decide (ringDist q.size q.head q.fetch < 256) &&
    (match c.cq? (cqOfSq c y) with | some k => k.held.isEmpty | none => false)

/-- Fetch one command of an SQ (R277, R283): false when the turn skips the queue. -/
def fetchOne (s : State) (i y : Nat) (e : List Dword) (ranges : Option (List (Nat × Nat))) : State × Bool :=
  match Tbl.get? s.ctls i with
  | none => (s, false)
  | some c =>
    match c.sq? y with
    | none => (s, false)
    | some q =>
      let (s, here) := demand s q.handle
      if !here || c.state != 1 || handingBack s c.port q.handle || !sqReady c y q || !accepts s blkNVME 0 then (s, false)
      else if y ≠ 0 ∧ 65536 < locksUsed s + locksNeeded e then (s.bumpStat RLOCK.FULL 0, false)
      else
        let q := skipDone (q.done.length + 1) q
        let s := updSq s i y (fun _ => { q with fetch := (q.fetch + 1) % q.size })
        (if y = 0 then startAdmin s i q.fetch e else startIo s i y q.fetch e ranges, true)

/-- Ready SQs of a priority, from the one after the last served. -/
def readyRing (c : NvCtl) (p : NvQ → Bool) : Option Nat :=
  let r := (c.sqs.filter (fun q => q.1 != 0 && p q.2 && sqReady c q.1 q.2)).map Prod.fst
  (r.filter (fun y => decide (c.rrPtr < y)) ++ r).head?

/-- The SQ of the next turn (R280), with the controller's pointers moved. -/
def arbitrate (c : NvCtl) : Option (Nat × NvCtl) :=
  let arb := (Tbl.getD c.feats 1 (0 : Word)).toNat
  if (match c.sq? 0 with | some q => sqReady c 0 q | none => false) then some (0, c)
  else if bits c.cc.toNat 13 11 = 0 then (readyRing c (fun _ => true)).map (fun y => (y, { c with rrPtr := y }))
  else
    match readyRing c (fun q => q.prio == 0) with
    | some y => some (y, { c with rrPtr := y })
    | none =>
      let ready := (List.range 3).filter (fun k => (readyRing c (fun q => q.prio == k + 1)).isSome)
      let full := [bits arb 31 24 + 1, bits arb 23 16 + 1, bits arb 15 8 + 1]
      let w := if ready.any (fun k => c.wrr.getD k 0 != 0) then c.wrr else full
      match ready.find? (fun k => w.getD k 0 != 0) with
      | none => none
      | some k => (readyRing c (fun q => q.prio == k + 1)).map (fun y =>
          (y, { c with rrPtr := y, wrr := listSet w k (w.getD k 0 - 1) }))

/-- The commands of one turn, until the queue is skipped. -/
def fetchAll (i y : Nat) : List (List Dword) → State → State
  | [], s => s
  | e :: t, s =>
    match fetchOne s i y (padQ e 9) (dsmRanges e (e.drop 8)) with
    | (s, true) => fetchAll i y t s
    | (s, false) => s

/-- R280: one fetch turn of a controller; entries of more than 8 qwords carry what a command reads from the host. -/
def fetchTurn (i : Nat) (sqes : List (List Dword)) (s : State) : State :=
  match (Tbl.get? s.ctls i).bind arbitrate with
  | none => s
  | some (y, c) =>
    let ab := (Tbl.getD c.feats 1 (0 : Word)).toNat % 8
    fetchAll i y (if ab = 7 then sqes else sqes.take (2 ^ ab)) (setCtl s i c)

/-- The row of one command: fetched from an SQ and started, its opcode the row's. -/
def oneCommand (ctl sq op : Nat) (e : List Dword) (ranges : Option (List (Nat × Nat))) (s : State) : State :=
  (fetchOne s ctl sq (listSet (padQ e 9) 0 (dw (qw e 0 / 256 * 256 + op))) ranges).1

/-- I/O commands come from the I/O SQs, admin commands from SQ 0. -/
def ioCommand (ctl sq op : Nat) (e : List Dword) (ranges : Option (List (Nat × Nat))) (s : State) : State :=
  if sq = 0 then s else oneCommand ctl sq op e ranges s
def adminCommand (ctl sq op : Nat) (e : List Dword) (s : State) : State :=
  if sq ≠ 0 then s else oneCommand ctl sq op e none s

/-! ## Doorbells (R131, R274) -/

def sqDoorbell (port sel y value : Nat) (s : State) : State :=
  match ctlOf s port sel with
  | none => s
  | some (i, c) =>
    match c.sq? y with
    | none => badDoorbell s i y 0
    | some q =>
      if q.size ≤ value ∨ ringDist q.size q.head value < ringDist q.size q.head q.tail then badDoorbell s i y 1
      else
        let s := updSq s i y (fun q => { q with tail := value })
        let s := { s with ctxs := Tbl.upd s.ctxs q.handle (fun x => { x with dirty := true }) }
        (demand s q.handle).1

def cqDoorbell (port sel y value : Nat) (s : State) : State :=
  match ctlOf s port sel with
  | none => s
  | some (i, c) =>
    match c.cq? y with
    | none => badDoorbell s i y 0
    | some q =>
      if q.size ≤ value ∨ ringDist q.size q.head q.tail < ringDist q.size q.head value then badDoorbell s i y 1
      else
        let s := { s with ctxs := Tbl.upd s.ctxs q.handle (fun x => { x with dirty := true }) }
        drainCq i y (q.held.length + 1) (updCq s i y (fun q => { q with head := value }))

/-! ## NVME page commands (R273, R286 to R290, R296) -/

/-- The function selectors of PF1 (R273). -/
def pf1Sel (sel : Nat) : Bool := sel == 1 || (0x800 ≤ sel && sel < 0xC00)

def cmdCtrlCreate (c : CmdCtx) (s : State) : CmdRes :=
  ckArgs c s 0x3FF anyArg <|
    let port := qb c.d 0 18 12
    let sel := qb c.d 0 11 0
    if qwRsvd c.d [0xFF3FFF7FFFFFFFFF, 0, 0, 0, 0, 0, 0, 0] then .fail s 0x03
    else if !pf1Sel sel ∨ qb c.d 0 38 32 = 0 ∨ 64 < qb c.d 0 38 32 ∨ qb c.d 0 51 40 < 63 ∨ qb c.d 0 53 52 = 3 ∨ qb c.d 0 63 56 = 0 ∨
        ownerIx (qb c.d 0 30 19) (bit (qw c.d 0) 31) ≠ funcOwner s port sel then .fail s 0x02
    else if (Tbl.get? s.ctls c.a0).isSome then .fail s 0x40
    else if (ctlOf s port sel).isSome then .fail s 0x41
    else .done (setCtl s c.a0 { port := port, sel := sel, owner := ownerIx (qb c.d 0 30 19) (bit (qw c.d 0) 31),
                                maxq := qb c.d 0 38 32, mqes := qb c.d 0 51 40, pin := qb c.d 0 53 52, weight := qb c.d 0 63 56 })

def cmdCtrlDestroy (c : CmdCtx) (s : State) : CmdRes :=
  ckArgs c s 0x3FF anyArg <|
    match Tbl.get? s.ctls c.a0 with
    | none => .fail s 0x42
    | some x =>
      if x.state = 0 ∨ x.state = 4 then
        let s := ctlReset s c.a0
        .done { s with ctls := Tbl.del s.ctls c.a0 }
      else .fail s 0x43

def cmdCtrlQuery (c : CmdCtx) (s : State) : CmdRes :=
  ckArgs c s 0x3FF anyArg <|
    match Tbl.get? s.ctls c.a0 with
    | none => .fail s 0x42
    | some x => .data s [dw (c.a0 + 1 + x.state * 2 ^ 16 + (x.sqs.filter (fun q => q.1 != 0)).length * 2 ^ 24)]

/-- The binding checks of R287: 0 or the result. -/
def bindCheck (s : State) (d : List Dword) : Nat :=
  if bit (qw d 2) 45 && qw d 1 % 8 != 0 then 0x02
  else if 1023 < qb d 2 41 32 + qb d 2 44 42 ∨ (bit (qw d 0) 61 && qw d 4 % 0x200000 != 0) then 0x02
  else if qb d 3 31 0 < 131072 || bit (qw d 3) 32 then 0x44
  else if (List.range (qb d 2 44 42 + 1)).any (fun k => qb (Tbl.getD s.bkqs (qb d 2 41 32 + k) []) 0 1 0 == 0) then 0x45
  else 0

def cmdNsCreate (c : CmdCtx) (s : State) : CmdRes :=
  ckArgs c s 0x1FFF anyArg <|
    if qwRsvd c.d [2 ^ 63 - 1, 2 ^ 64 - 1, 2 ^ 46 - 1, 2 ^ 33 - 1, 2 ^ 64 - 1, 2 ^ 40 - 1, 0, 0] then .fail s 0x03
    else if qb c.d 0 47 0 < 32 then .fail s 0x02
    else if bindCheck s c.d = 0x02 then .fail s 0x02
    else if (Tbl.get? s.nss c.a0).isSome then .fail s 0x40
    else
      match bindCheck s c.d with
      | 0 => .done (setNs s c.a0 { data := padQ c.d 6 })
      | code => .fail s code

/-- Controllers a namespace is attached to. -/
def attachedTo (s : State) (n : Nat) : List Nat := (s.ctls.filter (fun c => c.2.nsids.any (fun x => x.2 == n))).map Prod.fst

def cmdNsDestroy (c : CmdCtx) (s : State) : CmdRes :=
  ckArgs c s 0x1FFF anyArg <|
    if (Tbl.get? s.nss c.a0).isNone then .fail s 0x42
    else if !(attachedTo s c.a0).isEmpty then .fail s 0x43
    else
      let s := s.cancelAll blkNVME 2 c.a0
      .done { s with nss := Tbl.del s.nss c.a0 }

def cmdNsAttach (c : CmdCtx) (s : State) : CmdRes :=
  ckArgs c s 0x1FFF 0x01FF03FF <|
    let nsid := bits c.a1 24 16
    let i := c.a1 % 1024
    if nsid = 0 ∨ 256 < nsid then .fail s 0x02
    else
      match Tbl.get? s.nss c.a0, Tbl.get? s.ctls i with
      | some n, some x =>
        if ownerIx (qb n.data 0 59 48) (bit (qw n.data 0) 60) ≠ x.owner then .fail s 0x46
        else if (Tbl.get? x.nsids nsid).isSome ∨ x.nsids.any (fun y => y.2 == c.a0) then .fail s 0x47
        else if 8 ≤ (attachedTo s c.a0).length then .fail s 0x48
        else .done (setCtl s i { x with nsids := Tbl.put x.nsids nsid c.a0 })
      | _, _ => .fail s 0x42

def cmdNsDetach (c : CmdCtx) (s : State) : CmdRes :=
  ckArgs c s 0x1FFF 0x01FF03FF <|
    let nsid := bits c.a1 24 16
    let i := c.a1 % 1024
    match Tbl.get? s.ctls i with
    | none => .fail s 0x42
    | some x =>
      if Tbl.get? x.nsids nsid ≠ some c.a0 then .fail s 0x42
      else if s.nvCmds.any (fun y => y.ctl == i && y.ns == c.a0) then .fail s 0x43
      else .done (setCtl s i { x with nsids := Tbl.del x.nsids nsid })

/-- NS_REBIND (R290). -/
def nsRebind (s : State) (n : Nat) (x : NvNs) (d : List Dword) : State :=
  let y : NvNs := { data := d, state := 0 }
  let s := setNs (s.cancelAll blkNVME 2 n) n y
  match x.state with
  | 1 => (s.nvCmds.filter (fun c => c.ns == n && c.phase == 2)).foldl (fun (s : State) (c : NvCmd) => admitCmd s c) s
  | 2 => nsNotice s n
  | _ => s

def cmdNsRebind (c : CmdCtx) (s : State) : CmdRes :=
  ckArgs c s 0x1FFF anyArg <|
    if qwRsvd c.d [2 ^ 64 - 1, 2 ^ 64 - 1, 2 ^ 46 - 1, 2 ^ 33 - 1, 2 ^ 64 - 1, 2 ^ 40 - 1] then .fail s 0x03
    else
      match Tbl.get? s.nss c.a0 with
      | none => .fail s 0x42
      | some n =>
        let d := n.data.take 1 ++ (padQ c.d 6).drop 1
        match bindCheck s d with
        | 0 => .done (nsRebind s c.a0 n d)
        | code => .fail s code

def cmdBkqWrite (c : CmdCtx) (s : State) : CmdRes :=
  ckArgs c s 0x3FF anyArg <|
    if qwRsvd c.d [0xFFF7FFFFFFFF, 2 ^ 64 - 1, 2 ^ 64 - 1, 2 ^ 64 - 1, 2 ^ 64 - 1, 0, 0, 0] then .fail s 0x03
    else if qb c.d 0 1 0 = 3 ∨ (qb c.d 0 1 0 ≠ 0 ∧ qb c.d 0 47 36 < 63) then .fail s 0x02
    else if s.nss.any (fun n => usesBkq n.2 c.a0) then .fail s 0x43
    else .done { s with bkqs := Tbl.put s.bkqs c.a0 (padQ c.d 5) }

def cmdBkDown (c : CmdCtx) (s : State) : CmdRes :=
  ckArgs c s 0x3FF anyArg <|
    if qb (Tbl.getD s.bkqs c.a0 []) 0 1 0 = 0 then .fail s 0x42 else .done (bkqLost s c.a0)

def cmdRlQuery (c : CmdCtx) (s : State) : CmdRes :=
  ckArgs c s 0x1FFF anyArg <|
    match s.nvCmds.find? (fun x => x.ns == c.a0 && x.ranges.any (fun r => decide (r.1 ≤ qw c.d 0) && decide (qw c.d 0 < r.1 + r.2))) with
    | none => .fail s 0x40
    | some x => .data s [dw (x.ctl + x.sq * 2 ^ 16 + x.cid * 2 ^ 32 + b2n (x.op != 2) * 2 ^ 48)]

/-! ## Deadlines that wait to be scheduled (R291) -/

/-- A refused BK_HOLD or BK_TIMEOUT deadline is scheduled again. -/
def bkRetry (hold : Bool) (key : Nat) (s : State) : State :=
  if hold then
    match Tbl.get? s.nss key with
    | some n =>
      match n.holdRetry, n.hold with
      | some t, some at_ => bkHoldAt (s.reach t) key n at_
      | _, _ => s
    | none => s
  else
    match s.nvCmds.find? (fun c => c.token == key) with
    | some x =>
      match x.timeoutRetry, x.timeout with
      | some t, some at_ => bkTimeoutAt (s.reach t) key at_
      | _, _ => s
    | none => s

/-- The coalescing time of a controller ends (R294): what waits is sent. -/
def coalFire (s : State) (i : Nat) : State :=
  match Tbl.get? s.ctls i with
  | none => s
  | some c =>
    let s := updCtl s i (fun c => { c with coalAt := none })
    (c.cqs.filter (fun q => q.2.coal != 0)).foldl (fun (s : State) (q : Nat × NvQ) =>
      sendVector (updCq s i q.1 (fun q => { q with coal := 0 })) c.port c.sel q.2.iv) s

/-! ## Rows -/

def execCcEnable (port : Fin 128) (sel : BitVec 12) (value : Word) (s : State) : Host.Outcome State Fault Refusal :=
  ok (barWrite port.val sel.toNat (fun s => ccWrite s port.val sel.toNat (value ||| 1).toNat) s)
def execCcDisable (port : Fin 128) (sel : BitVec 12) (value : Word) (s : State) : Host.Outcome State Fault Refusal :=
  ok (barWrite port.val sel.toNat (fun s => ccWrite s port.val sel.toNat (value.toNat / 2 * 2)) s)
def execCcShutdown (port : Fin 128) (sel : BitVec 12) (value : Word) (s : State) : Host.Outcome State Fault Refusal :=
  ok (barWrite port.val sel.toNat (fun s => ccWrite s port.val sel.toNat
    (if bits value.toNat 15 14 = 0 then value.toNat + 2 ^ 14 else value.toNat)) s)
def execNvmeSqTailDoorbell (port : Fin 128) (sel : BitVec 12) (y : Nat) (value : Word) (s : State) : Host.Outcome State Fault Refusal :=
  ok (barWrite port.val sel.toNat (sqDoorbell port.val sel.toNat y value.toNat) s)
def execNvmeCqHeadDoorbell (port : Fin 128) (sel : BitVec 12) (y : Nat) (value : Word) (s : State) : Host.Outcome State Fault Refusal :=
  ok (barWrite port.val sel.toNat (cqDoorbell port.val sel.toNat y value.toNat) s)
def execNvmeFetchTurn (ctl : Fin 1024) (sqes : List (List Dword)) (s : State) : Host.Outcome State Fault Refusal :=
  ok (fetchTurn ctl.val sqes s)
def execNvmeFlush (ctl : Fin 1024) (sq : Nat) (sqe : List Dword) (s : State) : Host.Outcome State Fault Refusal :=
  ok (ioCommand ctl.val sq 0x00 sqe none s)
def execNvmeWrite (ctl : Fin 1024) (sq : Nat) (sqe : List Dword) (s : State) : Host.Outcome State Fault Refusal :=
  ok (ioCommand ctl.val sq 0x01 sqe none s)
def execNvmeRead (ctl : Fin 1024) (sq : Nat) (sqe : List Dword) (s : State) : Host.Outcome State Fault Refusal :=
  ok (ioCommand ctl.val sq 0x02 sqe none s)
def execNvmeWriteZeroes (ctl : Fin 1024) (sq : Nat) (sqe : List Dword) (s : State) : Host.Outcome State Fault Refusal :=
  ok (ioCommand ctl.val sq 0x08 sqe none s)
def execNvmeDatasetManagement (ctl : Fin 1024) (sq : Nat) (sqe : List Dword) (ranges : Option (List (Nat × Nat))) (s : State) :
    Host.Outcome State Fault Refusal := ok (ioCommand ctl.val sq 0x09 sqe ranges s)
def execCreateIoSq (ctl : Fin 1024) (sq : Nat) (sqe : List Dword) (s : State) : Host.Outcome State Fault Refusal :=
  ok (adminCommand ctl.val sq 0x01 sqe s)
def execCreateIoCq (ctl : Fin 1024) (sq : Nat) (sqe : List Dword) (s : State) : Host.Outcome State Fault Refusal :=
  ok (adminCommand ctl.val sq 0x05 sqe s)
def execDeleteIoSq (ctl : Fin 1024) (sq : Nat) (sqe : List Dword) (s : State) : Host.Outcome State Fault Refusal :=
  ok (adminCommand ctl.val sq 0x00 sqe s)
def execDeleteIoCq (ctl : Fin 1024) (sq : Nat) (sqe : List Dword) (s : State) : Host.Outcome State Fault Refusal :=
  ok (adminCommand ctl.val sq 0x04 sqe s)
def execGetLogPage (ctl : Fin 1024) (sq : Nat) (sqe : List Dword) (s : State) : Host.Outcome State Fault Refusal :=
  ok (adminCommand ctl.val sq 0x02 sqe s)
def execIdentify (ctl : Fin 1024) (sq : Nat) (sqe : List Dword) (s : State) : Host.Outcome State Fault Refusal :=
  ok (adminCommand ctl.val sq 0x06 sqe s)
def execAbort (ctl : Fin 1024) (sq : Nat) (sqe : List Dword) (s : State) : Host.Outcome State Fault Refusal :=
  ok (adminCommand ctl.val sq 0x08 sqe s)
def execSetFeatures (ctl : Fin 1024) (sq : Nat) (sqe : List Dword) (s : State) : Host.Outcome State Fault Refusal :=
  ok (adminCommand ctl.val sq 0x09 sqe s)
def execGetFeatures (ctl : Fin 1024) (sq : Nat) (sqe : List Dword) (s : State) : Host.Outcome State Fault Refusal :=
  ok (adminCommand ctl.val sq 0x0A sqe s)
def execAsynchronousEventRequest (ctl : Fin 1024) (sq : Nat) (sqe : List Dword) (s : State) : Host.Outcome State Fault Refusal :=
  ok (adminCommand ctl.val sq 0x0C sqe s)
def execRangeLockGrant (token : Nat) (s : State) : Host.Outcome State Fault Refusal := ok (lockGrant token s)
def execBackingCompletion (token : Nat) (reply : ReadEnd) (status : BitVec 16) (s : State) : Host.Outcome State Fault Refusal :=
  ok (backingDone token reply status.toNat s)
def execBkTimeoutExpiry (token : Nat) (s : State) : Host.Outcome State Fault Refusal :=
  ok (match s.anyEvent blkNVME 1 token with
    | some (n, e) => bkTimeoutFire (s.fireEvent n e) token
    | none => s)
def execBkHoldExpiry (ns : BitVec 13) (s : State) : Host.Outcome State Fault Refusal :=
  ok (match s.anyEvent blkNVME 2 ns.toNat with
    | some (n, e) => bkHoldFire (s.fireEvent n e) ns.toNat
    | none => s)
def execBkSchedRetry (hold : Bool) (key : Nat) (s : State) : Host.Outcome State Fault Refusal := ok (bkRetry hold key s)
def execCoalescingTimeExpiry (ctl : Fin 1024) (s : State) : Host.Outcome State Fault Refusal :=
  ok (match s.anyEvent blkNVME 3 ctl.val with
    | some (n, e) => coalFire (s.fireEvent n e) ctl.val
    | none => s)
def execCtrlCreate (c : CmdIn) (s : State) : Host.Outcome State Fault Refusal := ok (pageCommand blkNVME 0x01 cmdCtrlCreate c s)
def execCtrlDestroy (c : CmdIn) (s : State) : Host.Outcome State Fault Refusal := ok (pageCommand blkNVME 0x02 cmdCtrlDestroy c s)
def execCtrlQuery (c : CmdIn) (s : State) : Host.Outcome State Fault Refusal := ok (pageCommand blkNVME 0x03 cmdCtrlQuery c s)
def execNsCreate (c : CmdIn) (s : State) : Host.Outcome State Fault Refusal := ok (pageCommand blkNVME 0x04 cmdNsCreate c s)
def execNsDestroy (c : CmdIn) (s : State) : Host.Outcome State Fault Refusal := ok (pageCommand blkNVME 0x05 cmdNsDestroy c s)
def execNsAttach (c : CmdIn) (s : State) : Host.Outcome State Fault Refusal := ok (pageCommand blkNVME 0x06 cmdNsAttach c s)
def execNsDetach (c : CmdIn) (s : State) : Host.Outcome State Fault Refusal := ok (pageCommand blkNVME 0x07 cmdNsDetach c s)
def execNsRebind (c : CmdIn) (s : State) : Host.Outcome State Fault Refusal := ok (pageCommand blkNVME 0x08 cmdNsRebind c s)
def execBkqWrite (c : CmdIn) (s : State) : Host.Outcome State Fault Refusal := ok (pageCommand blkNVME 0x09 cmdBkqWrite c s)
def execBkDown (c : CmdIn) (s : State) : Host.Outcome State Fault Refusal := ok (pageCommand blkNVME 0x0A cmdBkDown c s)
def execRlQuery (c : CmdIn) (s : State) : Host.Outcome State Fault Refusal := ok (pageCommand blkRLOCK 0x01 cmdRlQuery c s)

end Sys2Proof.Machine
end

