-- ==== Sys2Proof/Machine/Rdma.lean ====
section
/-! DEFINITION. RDMA queue pairs: attributes, packets, the requester, the responder, errors, timers (R221 to R251). -/

namespace Sys2Proof.Machine

def setQp (s : State) (n : Nat) (q : Qp) : State := { s with qps := Tbl.put s.qps n q }
def updQp (s : State) (n : Nat) (f : Qp → Qp) : State := { s with qps := Tbl.upd s.qps n f }

/-- Distance between PSNs, MSGs and RSEQs, modulo 2^24. -/
def sub24 (a b : Nat) : Nat := (a + 2 ^ 24 - b % 2 ^ 24) % 2 ^ 24

/-! ## Attributes (R224) -/

namespace Qp'

def func (q : Qp) : Nat := qb q.attr 0 11 0
def port (q : Qp) : Nat := qb q.attr 0 18 12
def owner (q : Qp) : Nat := ownerIx (qb q.attr 0 30 19) (bit (qw q.attr 0) 31)
def dest (q : Qp) : Nat := qb q.attr 1 23 0
def islocal (q : Qp) : Bool := bit (qw q.attr 1) 25
def pmtu (q : Qp) : Nat := 128 * 2 ^ qb q.attr 1 30 28
def window (q : Qp) : Nat := qb q.attr 2 58 48
def maxRd (q : Qp) : Nat := qb q.attr 3 20 16
def maxResp (q : Qp) : Nat := qb q.attr 3 25 21
def rtoBase (q : Qp) : Nat := qb q.attr 1 52 40

end Qp'

/-- The engine of a QP (R224): its RDMA page, and the tile whose calendar slice, 32 on (R31), keeps its timers (R241). -/
def engOf (qpn : Nat) : Nat := qpn % 32

/-- The bound ring of a kind. -/
def ringOf (s : State) (qpn kind : Nat) : Option Nat :=
  match Tbl.get? s.qps qpn with
  | none => none
  | some q => (s.queues.find? (fun k => k.2.kind == kind && k.2.bind == qpn && !isProv k.1 &&
      queuePort k.1 == Qp'.port q && queueSel k.1 == Qp'.func q)).map Prod.fst

/-- All four contexts of a QP are on the bench; those that are not are demanded. -/
def qpHere (s : State) (h : Nat) : State × Bool :=
  [0, 1, 2, 3].foldl (fun (a : State × Bool) (i : Nat) => let d := demand a.1 (h + i); (d.1, a.2 && d.2)) (s, true)

/-- The QP's transport state changed: its contexts are dirty and in use, and mirrored (R262, R389). -/
def touchQp (s : State) (qpn : Nat) : State :=
  match Tbl.get? s.qps qpn with
  | none => s
  | some q =>
    let s := [0, 1, 2, 3].foldl (fun (s : State) (i : Nat) => updCtx s (q.handle + i) (fun c => { c with dirty := true, ref := true })) s
    let more := fun (i : Nat) => decide (31 * (i + 1) < (qpWords qpn q).length)
    [0, 1, 2, 3].foldl (fun (s : State) (i : Nat) =>
      if (qpPart qpn q i).isEmpty then s else mirrorCtx s (Qp'.port q) (q.handle + i) (qpPart qpn q i) (more i && i != 3)) s

/-! ## Packets (R228, R232 to R234, R242) -/

/-- Entropy of a packet (R242). -/
def entropy (q : Qp) (sr : Bool) (msg psn attempt : Nat) : Nat :=
  let n := match qb q.attr 1 27 26 with
    | 0 => 0
    | 2 => if sr then psn else msg
    | _ => msg
  (qb q.attr 3 39 26 + n * qb q.attr 3 53 40 + (if sr then attempt else 0) * 0x800) % 0x4000

/-- BTH (RoCEv2, log 31). -/
def bth (q : Qp) (opcode psn pad : Nat) (se ack : Bool) : List Byte :=
  leBytes 1 opcode ++ leBytes 1 (b2n se * 128 + 64 + pad * 16) ++ beBytes 2 (qb q.attr 4 31 16) ++ [0] ++ beBytes 3 (Qp'.dest q) ++
    leBytes 1 (b2n ack * 128) ++ beBytes 3 psn

/-- SRETH (R233). -/
def sreth (msg off rseq : Nat) : List Byte := [0x10] ++ beBytes 3 msg ++ beBytes 4 off ++ beBytes 3 rseq ++ [0]

/-- RETH, AtomicETH and AETH (RoCEv2). -/
def reth (va rkey len : Nat) : List Byte := beBytes 8 va ++ beBytes 4 rkey ++ beBytes 4 len
def aeth (syndrome msn : Nat) : List Byte := leBytes 1 syndrome ++ beBytes 3 msn

/-- The vport that stands for a QP's function as source (R228): the lowest VALID one. -/
def vportOfFunc (s : State) (port sel : Nat) : Nat :=
  let base := vportKey (pipeOfPort s port) port 0
  ((s.vports.find? (fun v => decide (base ≤ v.1) && decide (v.1 < base + 1024) && vportValid v.2 && vportFunc v.2 == sel)).map
    (fun v => v.1 - base)).getD 0

/-- One packet leaves the engine (R228, R249): to the peer engine, or as a frame into the classifier. -/
def sendRdma (s : State) (qpn msg opcode psn attempt : Nat) (se ack : Bool) (ext payload : List Byte) : State :=
  match Tbl.get? s.qps qpn with
  | none => s
  | some q =>
    let e := engOf qpn
    let s := s.bumpStat RDMA.TX e
    let s := if payload.isEmpty then s else charge s e (Qp'.owner q) 22 payload.length s.ns
    if Qp'.islocal q then s.emit (.rdma qpn (Qp'.dest q) opcode psn 0 [] (ext ++ payload))
    else
      let pad := (4 - payload.length % 4) % 4
      let body := bth q opcode psn pad se ack ++ ext ++ payload ++ List.replicate pad 0
      let body := body ++ leBytes 4 (Config.icrc body).toNat
      let t := padQ (Tbl.getD s.tmpls (qb q.attr 4 13 0) []) 16
      let t := listSet t 0 (dw (qw t 0 - b2n (bit (qw t 0) 11) * 2048))
      let sport := 0xC000 + entropy q (decide (0xC0 ≤ opcode)) msg psn attempt
      let bs := overlay (templateBytes t 0 body) (qb t 0 30 24) (beBytes 2 sport)
      let pipe := pipeOfPort s (Qp'.port q)
      let v := vportOfFunc s (Qp'.port q) (Qp'.func q)
      walkPkt s pipe (profOf s pipe true v)
        { bytes := bs, inPort := 4096 + v, inHost := Qp'.port q, owner := Qp'.owner q, stamp := s.ns, trace := s.traceable,
          tsOk := false, rdma := true, cls := qb q.attr 1 63 56 }

/-! ## Work requests -/

/-- Bytes of a work request. -/
def wrLen (it : WorkItem) : Nat := (it.entries.map entLen).sum
def wrOp (it : WorkItem) : Nat := entOp (it.entries.headD [])
def isRead (it : WorkItem) : Bool := wrOp it == 0x14 || wrOp it == 0x15 || wrOp it == 0x16
def wrConsumes (it : WorkItem) : Bool := wrOp it == 0x10 || wrOp it == 0x11 || wrOp it == 0x13

/-- PSNs of a work request. -/
def wrPsns (q : Qp) (it : WorkItem) : Nat :=
  if wrOp it = 0x15 ∨ wrOp it = 0x16 then 1 else max 1 ((wrLen it + Qp'.pmtu q - 1) / Qp'.pmtu q)

/-- A work request that has PSNs and covers one. -/
def wrCovers (psn : Nat) (it : WorkItem) : Bool := it.npsn != 0 && decide (sub24 psn it.psn0 < it.npsn)

/-- The immediate of a work request (R109). -/
def wrImm (it : WorkItem) : Nat := entSpec (it.entries.headD []) + qb (it.entries.headD []) 3 47 32 * 65536

/-- The meter of a work request (R364). -/
def wrMeter (op : Nat) : Nat := if op = 0x10 ∨ op = 0x11 then 18 else if op = 0x12 ∨ op = 0x13 then 19 else if op = 0x14 then 20 else 21

/-- A work request completes (R245, R247). -/
def wrDone (s : State) (qpn k : Nat) (it : WorkItem) (status : Nat) : State :=
  let owner := ((Tbl.get? s.qps qpn).map Qp'.owner).getD 4096
  let port := ((Tbl.get? s.qps qpn).map Qp'.port).getD 0
  let s := if status = 0 then mirrorMeter (charge s (engOf qpn) owner (wrMeter (wrOp it)) 1 s.ns) port owner (wrMeter (wrOp it)) 1 else s
  setFate s k it.idx status (if status = 0 then wrLen it else 0)

/-- The packet of a work request at a PSN. -/
def sendWr (s : State) (qpn : Nat) (q : Qp) (it : WorkItem) (psn attempt : Nat) : State :=
  let e := it.entries.headD []
  let a := it.entries.getD 1 []
  let n := sub24 psn it.psn0
  let m := Qp'.pmtu q
  let off := n * m
  let last := n + 1 == it.npsn
  let first := n == 0
  let op := wrOp it
  let send := op == 0x10 || op == 0x11
  let write := op == 0x12 || op == 0x13
  let imm := op == 0x11 || op == 0x13
  let c := if op = 0x14 then 0x0C else if op = 0x15 then 0x14 else if op = 0x16 then 0x13
    else (if send then 0 else 6) +
      (if first && last then (if imm then 5 else 4) else if first then 0 else if last then (if imm then 3 else 2) else 1)
  let ext :=
    (if q.srSend then sreth it.msg off (if wrConsumes it then it.rseq else 0) else []) ++
    (if (write && (first || q.srSend)) || op == 0x14 then reth (qw e 2) (qb e 3 31 0) (wrLen it) else []) ++
    (if op = 0x15 then reth (qw e 2) (qb e 3 31 0) 0 |>.take 12 |> (· ++ beBytes 8 (qw a 1) ++ beBytes 8 0)
     else if op = 0x16 then reth (qw e 2) (qb e 3 31 0) 0 |>.take 12 |> (· ++ beBytes 8 (qw a 1) ++ beBytes 8 (qw a 2)) else []) ++
    (if imm && last then beBytes 4 (wrImm it) else [])
  let payload := if isRead it then [] else cut it.payload off (min m (wrLen it - off))
  let s := updQp s qpn (fun q => { q with attempts := Tbl.put q.attempts psn (s.ns, attempt) })
  sendRdma s qpn it.msg (if q.srSend then 0xC0 + c else c) psn attempt (last && bit (qw e 0) 13) (last || isRead it) ext payload

/-! ## Timers (R241, R243, R251) -/

/-- A QP's calendar event of a kind: 1 retransmit, 2 RNR wait. -/
def qpSchedule (s : State) (qpn kind at_ : Nat) : State × Bool := s.schedule (32 + engOf qpn) at_ blkRDMA kind qpn

/-- The deadline of the oldest packet neither acknowledged nor SACKed. -/
def timerDue (q : Qp) : Option Nat :=
  let open_ := q.attempts.filter (fun a => !q.sacked.contains a.1)
  match open_.foldl (fun (m : Option (Nat × Nat)) a => match m with
      | some b => if sub24 a.1 q.una < sub24 b.1 q.una then some (a.1, a.2.1) else some b
      | none => some (a.1, a.2.1)) none with
  | some (_, t) => some (t + q.rto * 1000)
  | none => none

/-- The retransmit timer follows the oldest packet; a refusal is retried after 1 µs. -/
def armTimer (s : State) (qpn : Nat) : State :=
  match Tbl.get? s.qps qpn with
  | none => s
  | some q =>
    let due := if q.state = 3 then timerDue q else none
    if q.timer = due ∧ !q.timerRetry then s
    else
      let s := s.cancelAll blkRDMA 1 qpn
      match due with
      | none => updQp s qpn (fun q => { q with timer := none, timerRetry := false })
      | some t =>
        match qpSchedule s qpn 1 t with
        | (s, true) => updQp s qpn (fun q => { q with timer := some t, timerRetry := false })
        | (s, false) => updQp (s.bumpErr blkRDMA (engOf qpn) 5) qpn (fun q => { q with timer := some (s.ns + 1000), timerRetry := true })

/-! ## The requester (R240 to R243) -/

/-- READs and atomics outstanding. -/
def readsOut (items : List WorkItem) : Nat := (items.filter (fun i => isRead i && i.npsn != 0 && i.fate.isNone)).length

/-- The next thing to send: a work request and its PSN; the Bool: it takes its PSNs now. -/
def nextSend (q : Qp) (items : List WorkItem) : Option (WorkItem × Bool) :=
  match items.find? (fun i => i.fate.isNone && wrCovers q.nextPsn i) with
  | some i => some (i, false)
  | none =>
    match items.find? (fun i => i.fate.isNone && i.npsn == 0) with
    | some i => if i.sent && !(isRead i && Qp'.maxRd q ≤ readsOut items) then some (i, true) else none
    | none => none

/-- Send while the window and the READ limit allow (R240). -/
def pump (qpn k : Nat) : Nat → State → State
  | 0, s => s
  | f + 1, s =>
    match Tbl.get? s.qps qpn, Tbl.get? s.queues k with
    | some q, some r =>
      if q.state ≠ 3 ∨ q.timerRetry ∨ q.rnrWait.isSome ∨ Qp'.window q ≤ sub24 q.nextPsn q.una then s
      else
        match nextSend q r.items with
        | none => s
        | some (it, fresh) =>
          let new := { it with psn0 := q.nextPsn, npsn := wrPsns q it, msg := q.nextMsg, rseq := q.nextRseq }
          let s := if fresh then updItem s k it.idx (fun _ => new) else s
          let it := if fresh then new else it
          let psn := q.nextPsn
          let q := if fresh then { q with nextMsg := (q.nextMsg + 1) % 2 ^ 24,
                                          nextRseq := (q.nextRseq + b2n (wrConsumes it)) % 2 ^ 24 } else q
          let q := { q with nextPsn := (psn + (if isRead it then it.npsn - sub24 psn it.psn0 else 1)) % 2 ^ 24 }
          pump qpn k f (sendWr (setQp s qpn q) qpn q it psn 0)
    | _, _ => s

/-- A QP's send side goes on, when its contexts are on the bench. -/
def runQp (s : State) (qpn : Nat) : State :=
  match Tbl.get? s.qps qpn, ringOf s qpn 2 with
  | some q, some k =>
    match qpHere s q.handle with
    | (s, true) => touchQp (armTimer (pump qpn k 1024 s) qpn) qpn
    | (s, false) => s
  | _, _ => s

/-- Packets of some PSNs are sent again, each with one more attempt. -/
def resend (s : State) (qpn : Nat) (psns : List Nat) (stat : Option RegId) : State :=
  match ringOf s qpn 2 with
  | none => s
  | some k =>
    psns.foldl (fun (s : State) (psn : Nat) =>
      match Tbl.get? s.qps qpn, (Tbl.get? s.queues k).bind (fun r => r.items.find? (wrCovers psn)) with
      | some q, some it =>
        let a := (Tbl.getD q.attempts psn ((0, 0) : Nat × Nat)).2
        let s := match stat with | some r => s.bumpStat r (engOf qpn) | none => s
        sendWr (charge s (engOf qpn) (Qp'.owner q) 24 1 s.ns) qpn q it psn (a + 1)
      | _, _ => s) s

/-- Request PSNs sent and not acknowledged, oldest first. -/
def sentPsns (q : Qp) : List Nat :=
  let ps := q.attempts.map Prod.fst
  ps.filter (fun p => decide (q.una ≤ p)) ++ ps.filter (fun p => decide (p < q.una))

/-- A QP enters ERROR (R227): the failing request with its status, what follows flushed. -/
def qpError (s : State) (qpn status : Nat) (psn : Option Nat) : State :=
  match Tbl.get? s.qps qpn with
  | none => s
  | some q =>
    let e := engOf qpn
    let s := (s.cancelAll blkRDMA 1 qpn).cancelAll blkRDMA 2 qpn
    let s := setQp s qpn { q with state := 4, timer := none, timerRetry := false, rnrWait := none, attempts := [], reads := [],
                                  atoms := [], stalled := [] }
    let s := (s.istat blkRDMA e 0).wr RDMA.LAST_ERR e (qpn + status * 2 ^ 24)
    let s := match ringOf s qpn 2 with
      | none => s
      | some k =>
        let items : List WorkItem := ((Tbl.get? s.queues k).map (fun r => r.items)).getD []
        let failing : Option WorkItem := match psn with
          | some p => items.find? (fun (i : WorkItem) => i.fate.isNone && wrCovers p i)
          | none => if status = 0 then none else items.find? (fun (i : WorkItem) => i.fate.isNone)
        items.foldl (fun (s : State) (i : WorkItem) =>
          if i.fate.isSome then s
          else wrDone s qpn k i (match failing with | some x => if x.idx = i.idx then status else 0x1F | none => 0x1F)) s
    let s := match ringOf s qpn 3 with
      | none => s
      | some k =>
        let items := ((Tbl.get? s.queues k).map (fun r => r.items)).getD []
        items.foldl (fun (s : State) (i : WorkItem) => if i.fate.isSome then s else setFate s k i.idx 0x1F 0) s
    backingQpError (touchQp s qpn) qpn

/-- PSNs acknowledged in order move on over what is known to be done. -/
def slideAck : Nat → Qp → Qp
  | 0, q => q
  | f + 1, q =>
    match q.readDone.find? (fun r => r.1 == q.ackTo) with
    | some r => slideAck f { q with ackTo := (r.1 + r.2) % 2 ^ 24, readDone := q.readDone.erase r }
    | none => q

/-- The requester settles after PSNs were acknowledged (R241, R247): requests complete, RTO starts again, sending goes on.
`old` is the PSN that was acknowledged up to before. -/
def settleAcks (s : State) (qpn old : Nat) : State :=
  match Tbl.get? s.qps qpn, ringOf s qpn 2 with
  | some q, some k =>
    let q := slideAck (q.readDone.length + 1) q
    let items := ((Tbl.get? s.queues k).map (fun r => r.items)).getD []
    let base := q.una
    let acked := fun (p : Nat) => decide (sub24 p base < sub24 q.ackTo base)
    let pend := items.filter (fun i => isRead i && i.npsn != 0 && i.fate.isNone)
    let una := match pend.find? (fun i => acked i.psn0) with | some i => i.psn0 | none => q.ackTo
    let q := { q with una := una, attempts := q.attempts.filter (fun a => !acked a.1 || pend.any (wrCovers a.1)),
                      sacked := q.sacked.filter (fun p => !acked p || pend.any (wrCovers p)) }
    let q := if q.ackTo ≠ old then { q with rto := Qp'.rtoBase q, retry := 0, rnr := 0, sackResent := [] } else q
    let s := setQp s qpn q
    let done := items.filter (fun i => i.fate.isNone && i.npsn != 0 && !isRead i && acked ((i.psn0 + i.npsn - 1) % 2 ^ 24))
    runQp (done.foldl (fun (s : State) (i : WorkItem) => wrDone s qpn k i 0) s) qpn
  | _, _ => s

/-- A cumulative acknowledgement of a PSN (R234, R241). -/
def ackCum (s : State) (qpn psn : Nat) : State :=
  match Tbl.get? s.qps qpn with
  | none => s
  | some q =>
    let upTo := (psn + 1) % 2 ^ 24
    let ahead := sub24 upTo q.ackTo
    if ahead ≤ sub24 q.nextPsn q.ackTo then settleAcks (setQp s qpn { q with ackTo := upTo }) qpn q.ackTo else s

/-- The requester falls back to go-back-N (R235): counted, and everything outstanding is sent again. -/
def sendFallback (s : State) (qpn : Nat) : State :=
  let s := ((updQp s qpn (fun q => { q with srSend := false, sacked := [] })).bumpErr blkRDMA (engOf qpn) 6).istat blkRDMA (engOf qpn) 2
  match Tbl.get? s.qps qpn with
  | some q => armTimer (resend s qpn (sentPsns q) none) qpn
  | none => s

/-- R241: an acknowledgement, with SACK blocks (START, LEN) in SR mode. -/
def rdmaAck (qpn psn : Nat) (sr : Bool) (blocks : List (Nat × Nat)) (s : State) : State :=
  match Tbl.get? s.qps qpn with
  | none => s.bumpErr blkRDMA (engOf qpn) 1
  | some q =>
    if q.state ≠ 3 then s.bumpErr blkRDMA (engOf qpn) 1
    else
      let s := s.bumpStat RDMA.RX (engOf qpn)
      let s := ackCum s qpn psn
      if q.srSend && !sr then sendFallback s qpn
      else
        match Tbl.get? s.qps qpn with
        | none => s
        | some q =>
          if !q.srSend || blocks.isEmpty then s
          else
            let starts := blocks.map (fun b => (psn + 1 + b.1) % 2 ^ 24)
            let in_ := fun (p : Nat) => blocks.any (fun b => decide (sub24 p (psn + 1 + b.1) < b.2))
            let reads := ((((ringOf s qpn 2).bind (fun k => Tbl.get? s.queues k)).map (fun r => r.items)).getD []).filter isRead
            let out := (q.attempts.map Prod.fst).filter (fun p => !reads.any (wrCovers p))
            let q := { q with sacked := q.sacked ++ (out.filter (fun p => in_ p && !q.sacked.contains p)) }
            let far := bits (s.rd RDMA.SR_CFG (engOf qpn)) 15 8
            let holes := (sentPsns q).filter (fun p => !q.sacked.contains p && !q.sackResent.contains p &&
              starts.any (fun b => decide (far ≤ sub24 b p) && decide (sub24 b p < 2 ^ 23)))
            let s := setQp s qpn { q with sackResent := q.sackResent ++ holes }
            armTimer (resend s qpn holes (some RDMA.RETX_SACK)) qpn

/-- R226: a NAK: 0 PSN Sequence Error, 1 Invalid Request, 2 Remote Access Error, 3 Remote Operational Error (AETH codes). -/
def rdmaNak (qpn psn code : Nat) (sr : Bool) (s : State) : State :=
  match Tbl.get? s.qps qpn with
  | none => s.bumpErr blkRDMA (engOf qpn) 1
  | some q =>
    if q.state ≠ 3 then s.bumpErr blkRDMA (engOf qpn) 1
    else
      let s := s.bumpStat RDMA.RX (engOf qpn)
      let s := if q.srSend then s else ackCum s qpn (psn + 16777215)
      match code with
      | 0 =>
        if q.srSend && !sr then sendFallback s qpn
        else
          match Tbl.get? s.qps qpn with
          | some q => armTimer (resend s qpn ((sentPsns q).filter (fun p => !q.sacked.contains p)) none) qpn
          | none => s
      | 1 => if q.srSend then sendFallback s qpn else qpError s qpn 0x11 (some psn)
      | 2 => qpError s qpn 0x10 (some psn)
      | _ => qpError s qpn 0x15 (some psn)

/-- The first PSN of the work request that a PSN belongs to. -/
def wrFirst (s : State) (qpn psn : Nat) : Option Nat :=
  ((ringOf s qpn 2).bind (fun k => Tbl.get? s.queues k)).bind (fun r => (r.items.find? (wrCovers psn)).map (fun i => i.psn0))

/-- Consecutive RNR NAKs so far for the message that a PSN belongs to (R243). -/
def rnrCount (s : State) (qpn : Nat) (q : Qp) (psn : Nat) : Nat := if q.rnrPsn = wrFirst s qpn psn then q.rnr else 0

/-- R243: an RNR NAK. -/
def rnrNak (qpn psn : Nat) (s : State) : State :=
  match Tbl.get? s.qps qpn with
  | none => s.bumpErr blkRDMA (engOf qpn) 1
  | some q =>
    if q.state ≠ 3 then s.bumpErr blkRDMA (engOf qpn) 1
    else
      let limit := qb q.attr 1 37 35
      let n := rnrCount s qpn q psn
      let first := wrFirst s qpn psn
      let s := s.bumpStat RDMA.RX (engOf qpn)
      let s := if q.srSend then s else ackCum s qpn (psn + 16777215)
      if q.rnrWait.isSome then s
      else if limit ≠ 7 ∧ limit ≤ n then qpError s qpn 0x13 (some psn)
      else
        let at_ := s.ns + qb q.attr 3 15 0 * 1000
        match qpSchedule s qpn 2 at_ with
        | (s, true) => updQp s qpn (fun x => { x with rnr := n + 1, rnrPsn := first, rnrWait := some (at_, psn) })
        | (s, false) => updQp (s.bumpErr blkRDMA (engOf qpn) 5) qpn (fun x =>
            { x with rnr := n + 1, rnrPsn := first, rnrWait := some (at_, psn), timerRetry := true, timer := some (s.ns + 1000) })

/-- The RNR wait ends: the named message is sent again from its first PSN; go-back-N sends what follows it too. -/
def rnrFire (s : State) (qpn : Nat) : State :=
  match Tbl.get? s.qps qpn, ringOf s qpn 2 with
  | some q, some k =>
    match q.rnrWait with
    | none => s
    | some (_, psn) =>
      let s := updQp s qpn (fun q => { q with rnrWait := none })
      match (Tbl.get? s.queues k).bind (fun r => r.items.find? (wrCovers psn)) with
      | none => runQp s qpn
      | some it =>
        let ps := (sentPsns q).filter (fun p => if q.srSend then wrCovers p it else decide (sub24 p it.psn0 < 2 ^ 23))
        runQp (resend s qpn ps none) qpn
  | _, _ => s

/-- The retransmit timer fires (R241). -/
def retxFire (s : State) (qpn : Nat) (stepped : Bool) : State :=
  match Tbl.get? s.qps qpn with
  | none => s
  | some q =>
    let s := updQp s qpn (fun q => { q with timer := none })
    if q.state ≠ 3 ∨ q.timer.isNone then s
    else if !stepped && q.retry = qb q.attr 1 34 32 then qpError s qpn 0x12 none
    else
      let s := resend s qpn ((sentPsns q).filter (fun p => !(q.srSend && q.sacked.contains p))) (some RDMA.RETX_TO)
      let s := updQp s qpn (fun q => { q with retry := if stepped then q.retry else q.retry + 1, sackResent := [],
                                              rto := if stepped then q.rto else min 8000 (2 * q.rto) })
      armTimer s qpn

/-- R251: a refused schedule is tried again 1 µs later. -/
def timerAgain (qpn : Nat) (s : State) : State :=
  match Tbl.get? s.qps qpn with
  | none => s
  | some q =>
    match q.timerRetry, q.timer with
    | true, some t =>
      let s := s.reach t
      match q.rnrWait, s.anyEvent blkRDMA 2 qpn with
      | some (at_, _), none =>
        match qpSchedule s qpn 2 (max at_ s.ns) with
        | (s, true) => armTimer s qpn
        | (s, false) => updQp (s.bumpErr blkRDMA (engOf qpn) 5) qpn (fun q => { q with timer := some (s.ns + 1000) })
      | _, _ => runQp (armTimer s qpn) qpn
    | _, _ => s

/-- Bytes at an offset of a list of buffers: the address and bytes of each piece. -/
def scatter : List (List Dword) → Nat → List Byte → List (Nat × List Byte)
  | [], _, _ => []
  | e :: t, off, bs =>
    if bs.isEmpty then []
    else if entLen e ≤ off then scatter t (off - entLen e) bs
    else (qw e 1 + off, bs.take (entLen e - off)) :: scatter t 0 (bs.drop (entLen e - off))

/-- Payload goes to a host (R237). -/
def placeBytes (s : State) (port sel : Nat) (ps : List (Nat × List Byte)) : State :=
  ps.foldl (fun (s : State) p => s.hostPayload port sel p.1 p.2) s

/-- A READ or atomic is done: its PSNs count as acknowledged. -/
def readWrDone (s : State) (qpn k : Nat) (it : WorkItem) : State :=
  match Tbl.get? s.qps qpn with
  | none => s
  | some q =>
    let s := setQp s qpn { q with readDone := q.readDone ++ [(it.psn0, it.npsn)], attempts := Tbl.del q.attempts it.psn0 }
    settleAcks (wrDone s qpn k it 0) qpn q.ackTo

/-- R247: READ response data. -/
def readResponse (qpn psn off : Nat) (payload : List Byte) (s : State) : State :=
  match Tbl.get? s.qps qpn, ringOf s qpn 2 with
  | some q, some k =>
    match (Tbl.get? s.queues k).bind (fun r => r.items.find? (fun i => wrOp i == 0x14 && i.fate.isNone && wrCovers psn i)) with
    | none => s
    | some it =>
      let inOrder := it.placed == off
      if q.state ≠ 3 ∨ it.rgot.contains psn ∨ (!q.srSend && !inOrder) then s
      else
        let s := s.bumpStat RDMA.RX (engOf qpn)
        let s := placeBytes s (Qp'.port q) (Qp'.func q) (scatter it.entries off payload)
        let s := charge s (engOf qpn) (Qp'.owner q) 23 payload.length s.ns
        let it := { it with placed := it.placed + payload.length, rgot := it.rgot ++ [psn] }
        let s := updItem s k it.idx (fun _ => it)
        if wrLen it ≤ it.placed then readWrDone s qpn k it else s
  | _, _ => s

/-- R247: an atomic response. -/
def atomicAck (qpn psn : Nat) (orig : Dword) (s : State) : State :=
  match Tbl.get? s.qps qpn, ringOf s qpn 2 with
  | some q, some k =>
    match (Tbl.get? s.queues k).bind (fun r => r.items.find? (fun i => isRead i && wrOp i != 0x14 && i.fate.isNone && wrCovers psn i)) with
    | none => s
    | some it =>
      if q.state ≠ 3 then s
      else
        let s := s.bumpStat RDMA.RX (engOf qpn)
        readWrDone (placeBytes s (Qp'.port q) (Qp'.func q) [(qw (it.entries.headD []) 1, leBytes 8 orig.toNat)]) qpn k it
  | _, _ => s

/-- New send work requests: their payload is read, or they go at once; in ERROR they are flushed (R114, R227). -/
def startSends (s : State) (k : Nat) (items : List WorkItem) : State :=
  match Tbl.get? s.queues k with
  | none => s
  | some r =>
    let qpn := r.bind
    let bad := match Tbl.get? s.qps qpn with | some q => q.state == 4 | none => false
    let s := items.foldl (fun (s : State) (i : WorkItem) =>
      if bad then setFate s k i.idx 0x1F 0
      else if isRead i || wrLen i = 0 || entInline (i.entries.headD []) then updItem s k i.idx (fun i => { i with sent := true })
      else i.entries.foldl (fun (s : State) (e : List Dword) => s.readPayload (queuePort k) (queueSel k) (qw e 1) (entLen e)) s) s
    runQp s qpn

/-- The payload of the oldest send work request that waits for it arrives, or its read fails (R116). False: none waits. -/
def sendPayload (s : State) (k : Nat) (data : Option (List Byte)) : State × Bool :=
  match Tbl.get? s.queues k with
  | none => (s, false)
  | some r =>
    match r.items.find? (fun i => i.fate.isNone && !i.sent) with
    | none => (s, false)
    | some i =>
      let s := match data with
        | some bs => updItem s k i.idx (fun i => { i with payload := bs, sent := true })
        | none => setFate s k i.idx 0x02 0
      (runQp s r.bind, true)

/-- R248: the requester resumes at the first incomplete work request. -/
def resumeQp (s : State) (qpn : Nat) : State :=
  match Tbl.get? s.qps qpn, ringOf s qpn 2 with
  | some q, some k =>
    let at_ := match (((Tbl.get? s.queues k).map (fun r => r.items)).getD []).find? (fun i => i.fate.isNone && i.npsn != 0) with
      | some i => i.psn0
      | none => q.nextPsn
    runQp (setQp s qpn { q with nextPsn := at_, una := at_, ackTo := at_, readDone := [], sacked := [], sackResent := [], attempts := [],
                                rnrWait := none, reads := [], atoms := [], stalled := [] }) qpn
  | _, _ => s

end Sys2Proof.Machine
end

