-- ==== Sys2Proof/Machine/Responder.lean ====
section
/-! DEFINITION. The RDMA responder: key checks, PSNs and messages, placement, acknowledgements, READs and atomics (R221 to
R223, R229, R230, R235 to R239, R244, R246). -/

namespace Sys2Proof.Machine

/-- A request opcode of RC (R221, R232): class 0 SEND, 1 WRITE, 2 READ, 3 atomic; first and last packet, immediate. -/
structure ReqOp where
  cls   : Nat
  first : Bool
  last  : Bool
  imm   : Bool

def reqOp : Nat → Option ReqOp
  | 0x00 => some ⟨0, true, false, false⟩
  | 0x01 => some ⟨0, false, false, false⟩
  | 0x02 => some ⟨0, false, true, false⟩
  | 0x03 => some ⟨0, false, true, true⟩
  | 0x04 => some ⟨0, true, true, false⟩
  | 0x05 => some ⟨0, true, true, true⟩
  | 0x06 => some ⟨1, true, false, false⟩
  | 0x07 => some ⟨1, false, false, false⟩
  | 0x08 => some ⟨1, false, true, false⟩
  | 0x09 => some ⟨1, false, true, true⟩
  | 0x0A => some ⟨1, true, true, false⟩
  | 0x0B => some ⟨1, true, true, true⟩
  | 0x0C => some ⟨2, true, true, false⟩
  | 0x13 => some ⟨3, true, true, false⟩
  | 0x14 => some ⟨3, true, true, false⟩
  | _ => none

/-! ## Received PSNs (R234, R236) -/

/-- PSNs that a received PSN stands for: those of its response for a READ. -/
def spanAt (q : Qp) (p : Nat) : Nat :=
  match q.msgs.find? (fun m => m.kind == 2 && m.psn0 == p) with
  | some m => sub24 m.lastPsn p + 1
  | none => 1

/-- A PSN is received: behind ePSN, or in the bitmap. -/
def received (q : Qp) (p : Nat) : Bool :=
  decide (2 ^ 23 ≤ sub24 p q.epsn) || q.got.any (fun g => decide (sub24 p g < spanAt q g))

/-- Insert a PSN into a list kept by its distance from `e`. -/
def insPsn (e p : Nat) : List Nat → List Nat
  | [] => [p]
  | g :: t => if sub24 p e < sub24 g e then p :: g :: t else g :: insPsn e p t

/-- SACK blocks: START and LEN, ascending (R234). -/
def sackBlocks (q : Qp) : List (Nat × Nat) :=
  (q.got.foldl (fun (bs : List (Nat × Nat)) p =>
    let d := sub24 p q.epsn
    match bs with
    | (st, n) :: t => if d ≤ st + n then (st, max n (d + spanAt q p - st)) :: t else (d, spanAt q p) :: (st, n) :: t
    | [] => [(d, spanAt q p)]) []).reverse

/-- ePSN moves past every PSN received. -/
def slideEpsn : Nat → Qp → Qp
  | 0, q => q
  | f + 1, q =>
    if q.got.contains q.epsn then
      slideEpsn f { q with epsn := (q.epsn + spanAt q q.epsn) % 2 ^ 24, got := q.got.erase q.epsn }
    else q

/-! ## Acknowledgements (R234, R239, R390) -/

/-- AETH and, on an SR direction, SACKETH. -/
def ackBytes (q : Qp) (syndrome : Nat) : List Byte :=
  aeth syndrome q.doneMsg ++
    (if q.srRecv then
      let b := (sackBlocks q).take 8
      leBytes 1 (0x10 + b.length) ++ [0, 0, 0] ++ b.flatMap (fun x => beBytes 2 x.1 ++ beBytes 2 (min 1023 x.2))
    else [])

/-- An acknowledgement or NAK leaves; while PAIRED it waits for the mirroring of the QP. -/
def sendAck (s : State) (qpn psn syndrome : Nat) : State :=
  let s := touchQp s qpn
  match Tbl.get? s.qps qpn with
  | none => s
  | some q =>
    let op := if q.srRecv then 0xD1 else 0x11
    if pairState s = 3 ∧ portPaired s (Qp'.port q) then
      setTwin s (fun t => { t with waiting := t.waiting ++
        [({ mseq := t.mseqTx, rdma := [(qpn, 0, op, psn, ackBytes q syndrome)], since := s.ns } : Waiting)] })
    else sendRdma s qpn 0 op psn 0 false false (ackBytes q syndrome) []

/-- The cumulative acknowledgement. -/
def acknowledge (s : State) (qpn : Nat) : State :=
  let s := updQp s qpn (fun q => { q with ackCnt := 0 })
  match Tbl.get? s.qps qpn with
  | some q => sendAck s qpn ((q.epsn + 2 ^ 24 - 1) % 2 ^ 24) 0x1F
  | none => s

/-- A NAK: 0 PSN Sequence Error, 1 Invalid Request, 2 Remote Access Error, 3 Remote Operational Error. -/
def sendNak (s : State) (qpn psn code : Nat) : State := sendAck s qpn psn (0x60 + code)

/-- An invalid request (R226). -/
def invalidRequest (s : State) (qpn psn : Nat) : State := qpError (sendNak s qpn psn 1) qpn 0 none

/-- An RNR NAK (R238). -/
def sendRnr (s : State) (qpn psn : Nat) : State := (sendAck s qpn psn 0x20).bumpStat RDMA.RNR_SENT (engOf qpn)

/-! ## Keys (R222, R223, R246) -/

/-- The key table entry of an index; none where the table ends. -/
def mkeyEntry (s : State) (ix : Nat) : Option (List Dword) :=
  let z := s.rd RDMA.MKEY_SIZE % 32
  if z ≠ 0 ∧ ix < 2 ^ z then some (s.memGetQ (s.rd64 RDMA.MKEY_BASE + 32 * ix) 4) else none

/-- The check of R223: the cause, 0 for none, with the selector and host address it comes to. -/
def keyCheck (s : State) (q : Qp) (rkey cls va len : Nat) : Nat × Nat × Nat :=
  match mkeyEntry s (rkey / 256) with
  | none => (1, 0, 0)
  | some k =>
    let base := qw k 1
    let en := if cls = 2 then 53 else if cls = 1 then 54 else 55
    let perm := if cls = 2 then 62 else if cls = 1 then 61 else 60
    if !bit (qw k 0) 63 || qb k 0 7 0 != rkey % 256 || ownerIx (qb k 0 58 47) (bit (qw k 0) 59) != Qp'.owner q ||
        qb k 0 46 40 != Qp'.port q then (1, 0, 0)
    else if va < base ∨ base + qb k 2 47 0 < va + len ∨ 2 ^ 64 < va + len then (2, 0, 0)
    else if !bit (qw k 0) perm || !bit (qw q.attr 1) en then (3, 0, 0)
    else (0, qb k 0 39 28, (qw k 3 + (va - base)) % 2 ^ 64)

/-- A failed check (R246). -/
def accessViolation (s : State) (qpn psn cause : Nat) : State :=
  let s := sendNak s qpn psn 2
  let s := match ringOf s qpn 3 with | some k => queueEvent s k 0x03 (psn % 65536) cause | none => s
  let s := (raiseFault s 0x00E (w32 cause)).bumpErr blkRDMA (engOf qpn) 2
  qpError (s.istat blkRDMA (engOf qpn) 1) qpn 0 none

/-! ## Receive entries (R238) -/

/-- The receive entry of a message: none when it is not posted; with its ring, the entry, or none where it is posted and
not yet read. `idx`: the index it must have; none takes the next in order. -/
def recvEntry (s : State) (qpn : Nat) (q : Qp) (idx : Option Nat) : Option (Nat × Option WorkItem) :=
  match ringOf s qpn 3 with
  | none => none
  | some k =>
    match Tbl.get? s.queues k with
    | none => none
    | some r =>
      if r.state ≠ 1 then none
      else
        let unread := decide (0 < (r.d - r.headIdx).toNat) && r.stopAt.isNone
        match idx with
        | some i =>
          let n := BitVec.ofNat 16 i
          if (r.d - r.c).toNat ≤ (n - r.c).toNat then none
          else
            match r.items.find? (fun it => decide ((n - it.idx).toNat < it.slots)) with
            | some it => if it.fate.isSome then none else some (k, some it)
            | none => if unread then some (k, none) else none
        | none =>
          let used := (q.msgs.filter (fun m => m.kind == 0 || m.imm.isSome)).map (fun m => m.rseq)
          match r.items.find? (fun it => it.fate.isNone && !used.contains it.idx.toNat) with
          | some it => some (k, some it)
          | none => if unread then some (k, none) else none

/-- A packet waits until its receive entry is read; the read starts if it can. -/
def stallPkt (s : State) (qpn k : Nat) (p : RdmaPkt) : State :=
  let s := updQp s qpn (fun q =>
    if q.stalled.any (fun x => x.psn == p.psn) then q else { q with stalled := q.stalled ++ [p] })
  match Tbl.get? s.queues k with
  | some r => pull (demand s r.handle).1 k
  | none => s

/-! ## Messages (R237) -/

/-- Messages complete in MSG order once every PSN of theirs is received. -/
def finishMsgs (qpn : Nat) : Nat → State → State
  | 0, s => s
  | f + 1, s =>
    match Tbl.get? s.qps qpn with
    | none => s
    | some q =>
      match q.msgs.find? (fun m => m.msg == q.doneMsg) with
      | none => s
      | some m =>
        match m.length with
        | none => s
        | some n =>
          if sub24 m.lastPsn q.epsn < 2 ^ 23 then s
          else
            let s := setQp s qpn { q with doneMsg := (q.doneMsg + 1) % 2 ^ 24, msgs := q.msgs.filter (fun x => x.msg != m.msg) }
            let s := if m.kind = 0 ∨ m.imm.isSome then
                match ringOf s qpn 3 with
                | some k =>
                  let ix := BitVec.ofNat 16 m.rseq
                  let fl := if m.imm.isSome then 64 else 0
                  let s := updItem s k ix (fun i =>
                    { i with portStamp := true, stamp := m.stamp, trace := m.trace, aux := m.imm.getD 0, flags := fl })
                  setFate s k ix 0 n
                | none => s
              else s
            finishMsgs qpn f s

/-- Replace or add an open message. -/
def putMsg (q : Qp) (m : RMsg) : Qp :=
  if q.msgs.any (fun x => x.msg == m.msg) then { q with msgs := q.msgs.map (fun x => if x.msg = m.msg then m else x) }
  else { q with msgs := q.msgs ++ [m] }

/-- A request packet is taken: its PSN is received, its message goes on; what is complete completes; it is acknowledged
where R239 asks. -/
def takePsn (s : State) (qpn : Nat) (p : RdmaPkt) (m : RMsg) : State :=
  match Tbl.get? s.qps qpn with
  | none => s
  | some q =>
    let e := engOf qpn
    let psn := p.psn.toNat
    let beyond := q.got.any (fun g => decide (sub24 g psn < 2 ^ 23))
    let q1 := putMsg { q with ackCnt := q.ackCnt + 1 } m
    let q1 := { q1 with got := insPsn q.epsn psn q1.got }
    let q1 := slideEpsn (q1.got.length + 1) q1
    let s := if psn = q.epsn then s else s.bumpStat RDMA.OOO_RX e
    let s := finishMsgs qpn (q1.msgs.length + 1) (setQp s qpn q1)
    let every := s.rd RDMA.SR_CFG e % 256
    if p.ackReq || decide (every ≤ q1.ackCnt) || (q.srRecv && (beyond || (sackBlocks q).length < (sackBlocks q1).length)) then
      acknowledge s qpn
    else touchQp s qpn

/-! ## READs and atomics (R236, R240, R244) -/

/-- A READ is executed: its data is asked from the host. -/
def executeRead (s : State) (qpn psn msg sel a len : Nat) : State :=
  match Tbl.get? s.qps qpn with
  | none => s
  | some q =>
    if q.reads.any (fun r => r.1 == psn) then s
    else (setQp s qpn { q with reads := q.reads ++ [(psn, msg, a, len)] }).readPayload (Qp'.port q) sel a len

/-- The atomic response (R232, R244). -/
def atomicResponse (s : State) (qpn psn msg : Nat) (orig : Dword) : State :=
  match Tbl.get? s.qps qpn with
  | none => s
  | some q =>
    sendRdma s qpn msg (if q.srRecv then 0xD2 else 0x12) psn 0 false false
      ((if q.srRecv then sreth msg 0 0 else []) ++ aeth 0x1F q.doneMsg ++ beBytes 8 orig.toNat) []

/-- An atomic that locks this host address is under way in some QP of the port; `addr` carries the selector above bit 63. -/
def atomBusy (s : State) (port addr : Nat) : Bool :=
  s.qps.any (fun p => Qp'.port p.2 == port && p.2.atoms.any (fun a => a.2.2.1 == addr && decide (a.2.2.2.1 < 2)))

/-- An atomic is executed: an AtomicOp request, or a read under the lock; one whose address is locked waits (op + 2). -/
def executeAtomic (s : State) (qpn psn msg sel a op : Nat) (x y : Dword) : State :=
  match Tbl.get? s.qps qpn with
  | none => s
  | some q =>
    let addr := a + sel * 2 ^ 64
    let wait := !bit (qw q.attr 1) 31 && atomBusy s (Qp'.port q) addr
    let s := setQp s qpn { q with atoms := q.atoms ++ [(psn, msg, addr, op + (if wait then 2 else 0), x, y)] }
    if wait then s else s.emit (.memRead (Qp'.port q) sel 6 a 8 false)

/-- The next atomic that waits for an address starts. -/
def atomNext (s : State) (port addr : Nat) : State :=
  if atomBusy s port addr then s
  else
    match s.qps.find? (fun p => Qp'.port p.2 == port && p.2.atoms.any (fun a => a.2.2.1 == addr)) with
    | none => s
    | some (n, q) =>
      match q.atoms.findIdx? (fun a => a.2.2.1 == addr) with
      | none => s
      | some i =>
        let (psn, msg, ad, op, x, y) := q.atoms.getD i (0, 0, 0, 0, 0, 0)
        (setQp s n { q with atoms := listSet q.atoms i (psn, msg, ad, op % 2, x, y) }).emit
          (.memRead port (addr / 2 ^ 64) 6 (addr % 2 ^ 64) 8 false)

/-- R244: the host answers an atomic. -/
def hostAtomic (qpn psn : Nat) (reply : Option Dword) (s : State) : State :=
  match Tbl.get? s.qps qpn with
  | none => s
  | some q =>
    match q.atoms.find? (fun a => a.1 == psn && decide (a.2.2.2.1 < 2)) with
    | none => s
    | some (_, msg, addr, op, x, y) =>
      let s := setQp s qpn { q with atoms := q.atoms.filter (fun a => a.1 != psn) }
      let s := match reply with
        | none => sendNak s qpn psn 3
        | some o =>
          let s := if bit (qw q.attr 1) 31 then s
            else if op = 1 then s.emit (.hostBytes (Qp'.port q) (addr / 2 ^ 64) (addr % 2 ^ 64) (leBytes 8 (o + x).toNat) false)
            else if o = y then s.emit (.hostBytes (Qp'.port q) (addr / 2 ^ 64) (addr % 2 ^ 64) (leBytes 8 x.toNat) false)
            else s
          let s := updQp s qpn (fun q => { q with cache := (q.cache ++ [(psn, o)]).drop (q.cache.length + 1 - 16) })
          atomicResponse (touchQp s qpn) qpn psn msg o
      atomNext s (Qp'.port q) addr

/-- The response packets of a READ from the n-th on. -/
def sendReadData (qpn psn msg m total : Nat) : Nat → Nat → List Byte → State → State
  | 0, _, _, s => s
  | f + 1, n, bs, s =>
    match Tbl.get? s.qps qpn with
    | none => s
    | some q =>
      let first := n == 0
      let last := decide (bs.length ≤ m)
      let c := if first && last then 0x10 else if first then 0x0D else if last then 0x0F else 0x0E
      let ext := (if q.srRecv then sreth msg (n * m) 0 else []) ++ (if first || last then aeth 0x1F q.doneMsg else [])
      let s := sendRdma s qpn msg (if q.srRecv then 0xC0 + c else c) ((psn + n) % 2 ^ 24) 0 false false ext (bs.take m)
      if last then s else sendReadData qpn psn msg m total f (n + 1) (bs.drop m) s

/-- The data of the oldest READ being executed arrives, or its read fails (R226). False: none is. -/
def readPayload (s : State) (qpn : Nat) (data : Option (List Byte)) : State × Bool :=
  match Tbl.get? s.qps qpn with
  | none => (s, false)
  | some q =>
    match q.reads with
    | [] => (s, false)
    | (psn, msg, _, len) :: t =>
      let s := setQp s qpn { q with reads := t }
      match data with
      | none => (sendNak s qpn psn 3, true)
      | some bs => (sendReadData qpn psn msg (Qp'.pmtu q) len (len / Qp'.pmtu q + 1) 0 (bs.take len) s, true)

/-! ## A request packet (R223, R229, R235 to R238) -/

/-- READs and atomics being executed for a requester. -/
def respOut (q : Qp) : Nat := q.reads.length + q.atoms.length

/-- The open message a packet without SRETH belongs to: the latest that begins at or before its PSN. -/
def rcMsg (q : Qp) (psn : Nat) : Option RMsg :=
  q.msgs.foldl (fun (a : Option RMsg) m =>
    if m.kind != 2 && decide (sub24 psn m.psn0 < 2 ^ 23) && (m.length.isNone || decide (sub24 psn m.psn0 ≤ sub24 m.lastPsn m.psn0)) then
      match a with
      | some b => if sub24 psn m.psn0 < sub24 psn b.psn0 then some m else some b
      | none => some m
    else a) none

/-- A packet with a PSN not received before, and within the bitmap. -/
def freshPkt (s : State) (qpn : Nat) (q : Qp) (p : RdmaPkt) (sr : Bool) (o : ReqOp) : State :=
  let m := Qp'.pmtu q
  let psn := p.psn.toNat
  let n := p.payload.length
  let old := if sr then q.msgs.find? (fun x => x.msg == p.msg.toNat)
             else if o.first then q.msgs.find? (fun x => x.psn0 == psn) else rcMsg q psn
  let num := match old with
    | some x => x.msg
    | none => if sr then p.msg.toNat else (q.doneMsg + (q.msgs.filter (fun x => decide (2 ^ 23 ≤ sub24 x.psn0 psn))).length) % 2 ^ 24
  let off := if sr then p.offset.toNat else match old with | some x => sub24 psn x.psn0 * m | none => 0
  let kind := min o.cls 2
  let base : RMsg := old.getD { msg := num, kind := kind, psn0 := (psn + 2 ^ 24 - off / m % 2 ^ 24) % 2 ^ 24 }
  let base := { base with stamp := s.ns, trace := s.traceable }
  let base := if o.cls = 1 ∧ (sr ∨ o.first) then { base with va := p.va.toNat, rkey := p.rkey.toNat, dmaLen := p.dmaLen.toNat } else base
  let tail := if o.last then { base with length := some (off + n), lastPsn := psn, imm := if o.imm then some p.imm else none } else base
  let badLen := if o.last then decide (m < n) || (!o.first && n == 0) else n != m
  if o.cls < 2 ∧ (badLen ∨ off % m ≠ 0 ∨ (o.first != (off == 0)) = true ∨ (!sr ∧ !o.first ∧ old.isNone) ∨ base.kind ≠ kind ∨
      2 ^ 31 < off + n) then invalidRequest s qpn psn
  else if o.cls = 1 ∧ (if o.last then off + n ≠ base.dmaLen else base.dmaLen ≤ off + n) then invalidRequest s qpn psn
  else if o.cls = 2 ∧ (p.dmaLen = 0 ∨ 2 ^ 31 < p.dmaLen.toNat) then invalidRequest s qpn psn
  else if o.cls = 3 ∧ (p.va.toNat % 8 ≠ 0 ∨ p.dmaLen.toNat ≠ 8) then invalidRequest s qpn psn
  else if 2 ≤ o.cls ∧ Qp'.maxResp q ≤ respOut q then invalidRequest s qpn psn
  else if old.isNone ∧ 64 ≤ q.msgs.length then s.bumpErr blkRDMA (engOf qpn) 4
  else
    let s1 := charge s (engOf qpn) (Qp'.owner q) 23 n s.ns
    match o.cls with
    | 0 =>
      let idx := match old with
        | some x => some x.rseq
        | none => if sr then some ((q.rqBase + p.rseq.toNat) % 65536) else none
      match recvEntry s qpn q idx with
      | none => sendRnr s qpn psn
      | some (k, none) => stallPkt s qpn k p
      | some (k, some it) =>
        if (it.entries.map entLen).sum < off + n then
          qpError (setFate (sendNak s qpn psn 1) k it.idx 0x14 0) qpn 0 none
        else
          takePsn (placeBytes s1 (Qp'.port q) (Qp'.func q) (scatter it.entries off p.payload)) qpn p { tail with rseq := it.idx.toNat }
    | 1 =>
      match keyCheck s q base.rkey 1 (base.va + off) n with
      | (0, sel, a) =>
        if o.imm then
          match recvEntry s qpn q (if sr then some ((q.rqBase + p.rseq.toNat) % 65536) else none) with
          | none => sendRnr s qpn psn
          | some (k, none) => stallPkt s qpn k p
          | some (k, some it) =>
            if (it.entries.map entLen).sum < off + n then
              qpError (setFate (sendNak s qpn psn 1) k it.idx 0x14 0) qpn 0 none
            else takePsn (placeBytes s1 (Qp'.port q) sel [(a, p.payload)]) qpn p { tail with rseq := it.idx.toNat }
        else takePsn (placeBytes s1 (Qp'.port q) sel [(a, p.payload)]) qpn p tail
      | (c, _, _) => accessViolation s qpn psn c
    | 2 =>
      match keyCheck s q p.rkey.toNat 2 p.va.toNat p.dmaLen.toNat with
      | (0, sel, a) =>
        let span := (p.dmaLen.toNat + m - 1) / m
        takePsn (executeRead s1 qpn psn num sel a p.dmaLen.toNat) qpn p
          { tail with length := some 0, lastPsn := (psn + span - 1) % 2 ^ 24 }
      | (c, _, _) => accessViolation s qpn psn c
    | _ =>
      match keyCheck s q p.rkey.toNat 3 p.va.toNat 8 with
      | (0, sel, a) =>
        takePsn (executeAtomic s1 qpn psn num sel a (b2n (p.opcode.toNat % 32 == 0x14)) p.a p.b) qpn p { tail with length := some 0 }
      | (c, _, _) => accessViolation s qpn psn c

/-- A duplicate (R236): acknowledged; a READ is executed again, an atomic answered from the cache. -/
def duplicatePkt (s : State) (qpn : Nat) (q : Qp) (p : RdmaPkt) (o : ReqOp) : State :=
  let s := s.bumpStat RDMA.DUP_RX (engOf qpn)
  let psn := p.psn.toNat
  match o.cls with
  | 2 =>
    match keyCheck s q p.rkey.toNat 2 p.va.toNat p.dmaLen.toNat with
    | (0, sel, a) => acknowledge (executeRead s qpn psn p.msg.toNat sel a p.dmaLen.toNat) qpn
    | (c, _, _) => accessViolation s qpn psn c
  | 3 =>
    match q.cache.find? (fun c => c.1 == psn) with
    | some c => acknowledge (atomicResponse s qpn psn p.msg.toNat c.2) qpn
    | none => acknowledge s qpn
  | _ => acknowledge s qpn

/-- An accepted request packet of a QP in RTR or RTS whose contexts are on the bench. -/
def handlePkt (s : State) (qpn : Nat) (p : RdmaPkt) : State :=
  let e := engOf qpn
  let op := p.opcode.toNat
  let sr := decide (0xC0 ≤ op)
  match Tbl.get? s.qps qpn with
  | none => s
  | some q =>
    if sr && !bit (qw q.attr 1) 24 then sendNak s qpn p.psn.toNat 1
    else
      match reqOp (op % 32) with
      | none => invalidRequest s qpn p.psn.toNat
      | some o =>
        let fall := !sr && q.srRecv
        let q := if fall then { q with srRecv := false } else q
        let s := if fall then (((setQp s qpn q).bumpErr blkRDMA e 6).istat blkRDMA e 2) else s
        let off := sub24 p.psn.toNat q.epsn
        if received q p.psn.toNat then duplicatePkt s qpn q p o
        else if off = 0 then freshPkt s qpn q p sr o
        else if !q.srRecv then
          if q.nakAt = some q.epsn then s
          else sendNak (setQp s qpn { q with nakAt := some q.epsn }) qpn q.epsn 0
        else if off < 1024 then freshPkt s qpn q p sr o
        else s.bumpErr blkRDMA e 3

/-- A Congestion Notification Packet answers a packet with CE, at most once per CNP_INTERVAL (R230). -/
def sendCnp (s : State) (qpn : Nat) : State :=
  match Tbl.get? s.qps qpn with
  | none => s
  | some q =>
    let due := match q.cnpAt with
      | some t => decide (t + s.rd RDMA.CNP_INTERVAL (engOf qpn) * 1000 ≤ s.ns)
      | none => true
    if due then sendRdma (setQp s qpn { q with cnpAt := some s.ns }) qpn 0 0x81 0 0 false false (List.replicate 16 0) [] else s

/-- A packet parks on the first context of a QP that is not on the bench (R225, R269). -/
def parkRdma (s : State) (h qpn : Nat) (p : RdmaPkt) : State :=
  match [0, 1, 2, 3].find? (fun i => !resident s (h + i)) with
  | none => s
  | some i =>
    match Tbl.get? s.ctxs (h + i) with
    | none => s
    | some c =>
      if c.state = 5 ∨ c.state = 6 then s.bumpErr blkRDMA (engOf qpn) 1
      else
        match parkRoom s (h + i) (engOf qpn) (p.payload.length + 64) with
        | (s, true) => updCtx s (h + i) (fun c => { c with rparked := c.rparked ++ [p] })
        | (s, false) => s

/-- The engine takes a packet whose QP's contexts are on the bench, or parks it. -/
def enginePkt (s : State) (qpn : Nat) (p : RdmaPkt) : State :=
  match Tbl.get? s.qps qpn with
  | none => s.bumpErr blkRDMA (engOf qpn) 1
  | some q =>
    match qpHere s q.handle with
    | (s, false) => parkRdma s q.handle qpn p
    | (s, true) =>
      if q.state ≠ 2 ∧ q.state ≠ 3 then s.bumpErr blkRDMA (engOf qpn) 1
      else
        let s := s.bumpStat RDMA.RX (engOf qpn)
        handlePkt (if p.ce then sendCnp s qpn else s) qpn p

/-- The vport a packet was forwarded to agrees with the QP (R229). -/
def vportAgrees (s : State) (q : Qp) : Bool :=
  let base := vportKey (pipeOfPort s (Qp'.port q)) (Qp'.port q) 0
  s.vports.any (fun v => decide (base ≤ v.1) && decide (v.1 < base + 1024) && vportValid v.2 &&
    vportFunc v.2 == Qp'.func q && vportOwner v.2 == Qp'.owner q)

/-- R229, R236: a request packet reaches an engine. -/
def rdmaRequest (p : RdmaPkt) (s : State) : State :=
  let qpn := p.qpn.toNat
  let e := engOf qpn
  let op := p.opcode.toNat
  if !p.local_ && !p.icrcOk then s.bumpErr blkRDMA e 0
  else
    match Tbl.get? s.qps qpn with
    | none => s.bumpErr blkRDMA e 1
    | some q =>
      if p.port.val ≠ Qp'.port q ∨ p.sel.toNat ≠ Qp'.func q ∨ (p.local_ != Qp'.islocal q) = true ∨
          (!p.local_ && !vportAgrees s q) = true ∨ (op / 32 ≠ 0 ∧ op / 32 ≠ 6) ∨ (op / 32 = 6 ∧ p.vers ≠ 1) then
        s.bumpErr blkRDMA e 1
      else enginePkt s qpn p

/-- Packets that wait for receive entries go on after a read (R238). -/
def replayStalled (s : State) (k : Nat) : State :=
  match Tbl.get? s.queues k with
  | none => s
  | some r =>
    match Tbl.get? s.qps r.bind with
    | none => s
    | some q =>
      q.stalled.foldl (fun (s : State) (p : RdmaPkt) =>
        match (Tbl.get? s.qps r.bind).map (fun q => q.state) with
        | some 2 => handlePkt s r.bind p
        | some 3 => handlePkt s r.bind p
        | _ => s) (setQp s r.bind { q with stalled := [] })

/-- The QP of a context handle. -/
def qpOfHandle (s : State) (h : Nat) : Option (Nat × Qp) :=
  s.qps.find? (fun p => decide (p.2.handle ≤ h) && decide (h < p.2.handle + 4))

/-- A QP's contexts are all on the bench: parked packets go on, each in arrival order, and so does its send side (R267). -/
def releaseQp (s : State) (h : Nat) : State :=
  match qpOfHandle s h with
  | none => s
  | some (n, q) =>
    if [0, 1, 2, 3].all (fun i => resident s (q.handle + i)) then
      let ps := [0, 1, 2, 3].flatMap (fun i => ((Tbl.get? s.ctxs (q.handle + i)).map (fun c => c.rparked)).getD [])
      let s := [0, 1, 2, 3].foldl (fun (s : State) (i : Nat) =>
        (updCtx s (q.handle + i) (fun c => { c with rparked := [] })).cancelAll blkLEVAIN 1 (q.handle + i)) s
      runQp (ps.foldl (fun (s : State) (p : RdmaPkt) => enginePkt s n p) s) n
    else s

end Sys2Proof.Machine
end

