-- ==== Sys2Proof/Machine/LevainRows.lean ====
section
/-! DEFINITION. The rows of Levain: transfers, host backing, parking deadlines, occupancy, commands (R258, R259, R262 to R272). -/

namespace Sys2Proof.Machine

/-! ## What ends with a transfer -/

/-- The running SET_CLASS on a context ends (R259). -/
def classEnds (s : State) (h res : Nat) : State :=
  match waitingCmd s blkLEVAIN 0 0x05 with
  | some r => if r.arg0.toNat % 2 ^ 25 = h then endWaiting s blkLEVAIN 0 0x05 res else s
  | none => s

/-- A context's class is set, which changes the header of a bench copy (R262); a host-backed one that leaves COLD goes
to the store. -/
def applyClass (s : State) (h cls : Nat) : State :=
  match Tbl.get? s.ctxs h with
  | none => s
  | some c =>
    let s := updCtx s h (fun c => { c with cls := cls, clsDue := none, dirty := c.dirty || (c.state == 3 && c.cls != cls) })
    if c.hb ∧ cls ≠ 2 then toStore s h false else s

/-- A context is on the bench and free for use: what waited for it goes on (R259, R265, R267). -/
def released (s : State) (h : Nat) : State :=
  match Tbl.get? s.ctxs h with
  | none => s
  | some c =>
    let s := match c.clsDue with | some k => applyClass s h k | none => s
    let s := classEnds s h 0
    let s := if c.hb && (hportOf s c.port).hbDrain then toStore s h (decide ((quotaOf s c.owner).1 ≤ storeHeld s c.owner)) else s
    match c.unit with
    | 1 => releaseRing s h
    | 2 => releaseQp s h
    | _ => s

/-- The owner of a LOST context learns of it (R264): a ring enters ERROR with CONTEXT_LOST, a QP with REM_OP. -/
def tellLost (s : State) (h : Nat) (c : Ctx) : State :=
  match c.unit with
  | 1 =>
    match queueOfHandle s h with
    | none => s
    | some (k, q) =>
      let p := queuePort k
      let s := setQueue s k { q with state := 2, cause := 0x0A, fidx := q.c, stopAt := none, stopping := false, items := [],
                                     chain := [], u := q.c, reading := false }
      let s := s.wr QMGR.LAST_ERR p (queueNum k + queueSel k * 2 ^ 12 + 0x0A * 2 ^ 24)
      let s := (s.wr QMGR.LAST_ERR_IDX p q.c.toNat).istat blkQMGR p 0
      let s := queueEvent s k 0x02 q.c.toNat 0x0A
      if q.stopping then endWaiting s blkQMGR p 0x03 0x43 else s
  | 2 =>
    match qpOfHandle s h with
    | some (n, q) => if q.state = 1 ∨ q.state = 2 ∨ q.state = 3 then qpError s n 0x15 none else s
    | none => s
  | _ => ctlLost s h

/-- A fetched context is RESIDENT; what was put off until then comes first: destroy, quarantine. -/
def becomesResident (s : State) (h : Nat) : State :=
  match Tbl.get? s.ctxs h with
  | none => s
  | some c =>
    if c.destroyDue then freeHandle s h
    else if c.quarDue then quarantineNow s h
    else released s h

/-- R264: a fetch ends. -/
def fetchDone (h : Nat) (r : ReadEnd) (s : State) : State :=
  match Tbl.get? s.ctxs h with
  | none => s
  | some c =>
    if c.state ≠ 2 then s
    else
      let s := s.raiseMax LEVAIN.FETCH_MAX 0 (s.ns - c.started)
      let here := fun (s : State) => updCtx s h (fun c => { c with state := 3, ref := true, demand := false, dirty := false })
      match r, c.hb with
      | .data _, _ => becomesResident (here s) h
      | _, true =>
        becomesResident (rebuildRing (((here s).bumpErr blkLEVAIN 0 2).istat blkLEVAIN 0 1) h) h
      | _, false =>
        let s := (dropParked s h).bumpErr blkLEVAIN 0 3
        let s := updCtx (s.istat blkLEVAIN 0 0) h (fun c => { c with state := 6, bells := [], demand := false })
        let s := classEnds s h 0x08
        if c.destroyDue then freeHandle s h else serveWaiting (tellLost s h c)

/-- R262, R264: a writeback ends; the slot is free, and a demand recorded meanwhile is served. -/
def writebackDone (h : Nat) (good : Bool) (s : State) : State :=
  match Tbl.get? s.ctxs h with
  | none => s
  | some c =>
    if c.state ≠ 4 then s
    else
      let s := if good || !c.hb then storeWrite s h c
        else toStore ((s.bumpErr blkLEVAIN 0 2).istat blkLEVAIN 0 1) h true
      let s := updCtx s h (fun c => { c with state := 1, dirty := false })
      let s := evictEnds s h 0
      if c.destroyDue then freeHandle s h
      else if c.quarDue then quarantineNow s h
      else
        let s := match c.clsDue with
          | some k => if c.hb ∧ k ≠ 2 then s else applyClass s h k
          | none => s
        let s := if c.clsDue.isSome ∧ c.clsDue ≠ some 0 ∧ !(c.hb ∧ c.clsDue ≠ some 2) then classEnds s h 0 else s
        let want := c.demand || c.clsDue == some 0 || (c.clsDue.isSome && c.hb) || (c.hb && (hportOf s c.port).hbDrain)
        serveWaiting (if want then tryFetch s h false else s)

def execContextDemand (h : BitVec 25) (s : State) : Host.Outcome State Fault Refusal := ok (demand s h.toNat).1
def execContextFetchComplete (h : BitVec 25) (reply : ReadEnd) (s : State) : Host.Outcome State Fault Refusal :=
  ok (fetchDone h.toNat reply s)
def execContextWritebackComplete (h : BitVec 25) (good : Bool) (s : State) : Host.Outcome State Fault Refusal :=
  ok (writebackDone h.toNat good s)

/-! ## Commands (R258, R259, R272) -/

def cmdTquotaWrite (c : CmdCtx) (s : State) : CmdRes :=
  ckArgs c s 0x80000FFF anyArg <|
    if qwRsvd c.d [0x1FFFF03FFFFFF] then .fail s 0x03
    else .done { s with quotas := Tbl.put s.quotas (ownerIx (c.a0 % 4096) (bit c.a0 31)) (qb c.d 0 25 0, qb c.d 0 48 32) }

def cmdTquotaRead (c : CmdCtx) (s : State) : CmdRes :=
  ckArgs c s 0x80000FFF anyArg <|
    let x := ownerIx (c.a0 % 4096) (bit c.a0 31)
    let q := quotaOf s x
    .data s [dw (q.1 + q.2 * 2 ^ 32), dw (storeHeld s x + pinHeld s x * 2 ^ 32), dw (hostHeld s x)]

def cmdCtxQuery (c : CmdCtx) (s : State) : CmdRes :=
  ckArgs c s 0x1FFFFFF anyArg <|
    match Tbl.get? s.ctxs c.a0 with
    | none => .data s [0, 0]
    | some x =>
      .data s [ctxHeader x, dw (x.state + (x.parked.length + x.rparked.length) * 2 ^ 4 + b2n (ctxLocked s c.a0 x) * 2 ^ 16 +
                                b2n x.dirty * 2 ^ 17)]

def cmdEvict (c : CmdCtx) (s : State) : CmdRes :=
  ckArgs c s 0x1FFFFFF anyArg <|
    match Tbl.get? s.ctxs c.a0 with
    | none => .fail s 0x40
    | some x =>
      if x.state ≠ 3 ∨ x.waitSlot then .fail s 0x40
      else if x.cls = 0 ∨ ctxLocked s c.a0 x then .fail s 0x41
      else if !x.dirty then .done (serveWaiting (leaveBench s c.a0))
      else .later (updCtx (leaveBench s c.a0) c.a0 (fun x => { x with evictCmd := true }))

def cmdSetClass (c : CmdCtx) (s : State) : CmdRes :=
  ckArgs c s 0x1FFFFFF 0x3 <|
    let k := c.a1 % 4
    if k = 3 then .fail s 0x02
    else
      match Tbl.get? s.ctxs c.a0 with
      | none => .fail s 0x42
      | some x =>
        let q := quotaOf s x.owner
        if k = 0 ∧ x.cls ≠ 0 ∧ (q.2 ≤ pinHeld s x.owner ∨ s.rd LEVAIN.PIN_MAX ≤ pinTotal s) then .fail s 0x08
        else if x.hb ∧ k ≠ 2 ∧ q.1 ≤ storeHeld s x.owner then .fail s 0x08
        else
          let moves := x.hb && k != 2
          match x.state with
          | 4 => .later (updCtx s c.a0 (fun x => { x with clsDue := some k }))
          | 3 => if x.waitSlot && k == 0 then .later (updCtx s c.a0 (fun x => { x with clsDue := some k }))
                 else .done (applyClass s c.a0 k)
          | 2 => if moves || k == 0 then .later (updCtx s c.a0 (fun x => { x with clsDue := some k })) else .done (applyClass s c.a0 k)
          | 1 => if moves || k == 0 then .later (demand (updCtx s c.a0 (fun x => { x with clsDue := some k })) c.a0).1
                 else .done (applyClass s c.a0 k)
          | _ => .done (updCtx s c.a0 (fun x => { x with cls := k }))

def execTquotaWrite (c : CmdIn) (s : State) : Host.Outcome State Fault Refusal := ok (pageCommand blkLEVAIN 0x01 cmdTquotaWrite c s)
def execTquotaRead (c : CmdIn) (s : State) : Host.Outcome State Fault Refusal := ok (pageCommand blkLEVAIN 0x02 cmdTquotaRead c s)
def execCtxQuery (c : CmdIn) (s : State) : Host.Outcome State Fault Refusal := ok (pageCommand blkLEVAIN 0x03 cmdCtxQuery c s)
def execEvict (c : CmdIn) (s : State) : Host.Outcome State Fault Refusal := ok (pageCommand blkLEVAIN 0x04 cmdEvict c s)
def execSetClass (c : CmdIn) (s : State) : Host.Outcome State Fault Refusal := ok (pageCommand blkLEVAIN 0x05 cmdSetClass c s)

/-! ## Host backing (R265) -/

/-- HB_EN of a port. -/
def hbEnabled (s : State) (port : Nat) : Bool := bit (s.rd LEVAIN.HB_EN 0 (port / 32)) (port % 32)

/-- R265: VALID is written 1: the region is ACTIVE when HB_EN, the base's alignment and the size allow it. -/
def hbOn (port : Nat) (s : State) : State :=
  let f := funcOf s port 0
  let n := f.hbPages.toNat
  if f.hbValid then s
  else if hbEnabled s port && f.hbBaseLo.toNat % 4096 == 0 && decide (1 ≤ n) && decide (n ≤ 0x100000) then
    setFunc s port 0 { f with hbValid := true }
  else s

/-- R265: VALID is written 0: every host-backed context of the port moves to the store. -/
def hbOff (port : Nat) (s : State) : State :=
  if !(funcOf s port 0).hbValid then s
  else
    let s := setHport s port { hportOf s port with hbDrain := true }
    (s.ctxs.filter (fun p => p.2.hb && p.2.port == port)).foldl (fun (s : State) p =>
      match p.2.state with
      | 3 => toStore s p.1 (decide ((quotaOf s p.2.owner).1 ≤ storeHeld s p.2.owner))
      | 1 => (demand s p.1).1
      | 4 => updCtx s p.1 (fun c => { c with demand := true })
      | _ => s) s

def execHbRegister (port : Fin 128) (_value : Word) (s : State) : Host.Outcome State Fault Refusal :=
  ok (barWrite port.val 0 (hbOn port.val) s)
def execHbDrain (port : Fin 128) (_value : Word) (s : State) : Host.Outcome State Fault Refusal :=
  ok (barWrite port.val 0 (hbOff port.val) s)
def execHbDrainComplete (port : Fin 128) (s : State) : Host.Outcome State Fault Refusal := ok (drainDone s port.val)

/-! ## Parking and occupancy (R269, R271) -/

/-- A PARK_TIME deadline fires: the context's packets are dropped; a stepped fire is put off once. -/
def parkFire (s : State) (h : Nat) (stepped : Bool) : State :=
  match Tbl.get? s.ctxs h with
  | none => s
  | some c =>
    let n := c.parked.length + c.rparked.length
    let pipe := match c.parked, c.rparked with
      | p :: _, _ => p.1
      | [], p :: _ => engOf p.qpn.toNat
      | [], [] => 0
    let drop := fun (s : State) => (dropParked s h).bumpErr blkLEVAIN 0 1 n
    if n = 0 then s
    else if stepped && !c.parkStep then
      let at_ := s.ns + s.rd LEVAIN.PARK_TIME * 1000
      match s.schedule pipe at_ blkLEVAIN 1 h with
      | (s, true) => updCtx s h (fun c => { c with parkStep := true })
      | (s, false) => drop (s.bumpErr blkLEVAIN 0 4)
    else drop s

def execParkTimeExpiry (h : BitVec 25) (s : State) : Host.Outcome State Fault Refusal :=
  ok (match s.anyEvent blkLEVAIN 1 h.toNat with
    | some (n, e) => parkFire (s.fireEvent n e) h.toNat false
    | none => s)

/-- The next occupancy deadline, on slice 34; a refusal is tried again after 100 µs. -/
def scheduleCharge (s : State) (at_ : Nat) : State :=
  match s.schedule 34 at_ blkLEVAIN 2 0 with
  | (s, true) => { s with chargeRetry := none }
  | (s, false) => { s.bumpErr blkLEVAIN 0 4 with chargeRetry := some (s.ns + 100000) }

/-- The owners that hold contexts in the store. -/
def storeOwners (s : State) : List Nat := ((s.ctxs.filter (fun c => !c.2.hb)).map (fun c => c.2.owner)).eraseDups

/-- The occupancy deadline fires (R271): whole milliseconds since the last charge, for each owner. -/
def chargeFire (s : State) : State :=
  let ms := (s.ns - s.lastCharge) / 1000000
  let s := (storeOwners s).foldl (fun (s : State) x => charge s 0 x 33 (storeHeld s x * ms) s.ns) s
  let s := { s with lastCharge := s.lastCharge + ms * 1000000 }
  scheduleCharge s (s.ns + 1000000)

/-- R271: the first deadline is the row itself (log 24). -/
def storeTick (s : State) : State :=
  match s.pendingEvent 34 blkLEVAIN 2 0 with
  | some e => chargeFire (s.fireEvent 34 e)
  | none => if s.chargeRetry.isSome then s else chargeFire s

def execStoreChargeTick (s : State) : Host.Outcome State Fault Refusal := ok (storeTick s)

def execLevainSchedRetry (s : State) : Host.Outcome State Fault Refusal :=
  ok (match s.chargeRetry with
    | some t => scheduleCharge (s.reach t) (max t s.ns)
    | none => s)

end Sys2Proof.Machine
end

