-- ==== Sys2Proof/Machine/Kwegan.lean ====
section
/-! DEFINITION. The Kwegan instructions of a hart, the ends of held items, what firmware injects, hart timers (R322 to R332,
R335 to R338). -/

namespace Sys2Proof.Machine

def hartOf (s : State) (h : Nat) : Hart := Tbl.getD s.harts h {}
def setHart (s : State) (h : Nat) (x : Hart) : State := { s with harts := Tbl.put s.harts h x }

/-! ## What firmware hands to the device (R330, R332) -/

/-- The bytes of the frame behind a descriptor cell: none when the chain is not allocated or cannot hold LEN bytes. -/
def chainFrame (s : State) (cell len : Nat) : Option (List Byte) :=
  match Tbl.get? s.cells cell with
  | none => none
  | some n => if len = 0 ∨ 256 * (n - 1) < len then none else some (Memory.readBytes s.mem (cellAddr (cell + 1)) len)

/-- An INJECT (R332): its cells are consumed; the packet walks as received on PORT, or is transmitted or placed. -/
def inject (s : State) (it : Item) : State :=
  let cell := qb it 2 19 0
  let pipe := qb it 2 38 34
  let port := qb it 3 9 0
  let vport := bit (qw it 3) 12
  let host := qb it 3 19 13
  let frame := chainFrame s cell (qb it 2 33 20)
  let s := freeCells s cell
  match frame with
  | none => s.bumpStat PROOFER.INJ_DROP 0
  | some bs =>
    let owner := if vport then (if vportValid (vportOf s host port) then vportOwner (vportOf s host port) else 4096) else ethOwner s port
    let p : Pkt := { bytes := bs, inPort := port + (if vport then 4096 else 0), inHost := if vport then host else 0, owner := owner,
                     stamp := s.ns, trace := s.traceable, tsOk := false, hash := w32 (qb it 3 63 32), src := some injected }
    if bit (qw it 3) 20 then walkPkt s pipe (profOf s pipe vport port) p
    else if vport then toVport s host port [2] p 0
    else transmit s port bs (some injected)

/-- The piece of a command whose mapping has arrived goes to its backing queue (R285, R288, R332). -/
def mappedPiece (s : State) (x : NvCmd) (bkq lba n : Nat) : State :=
  match Tbl.get? s.nss x.ns with
  | none => s
  | some ns =>
    let k := if bit (qw ns.data 2) 45 then 8 else 1
    let s := s.emit (.backing x.token bkq (bkOp x.op) lba (n * k))
    if x.timeout.isSome then s else bkTimeout s x.token

/-- A MAP_REPLY (R332): answers the oldest piece of the command that has no reply. -/
def mapReply (s : State) (it : Item) : State :=
  let token := qb it 1 63 32
  let bad := fun (s : State) => s.bumpErr blkPROOFER 0 5
  match s.nvCmds.find? (fun c => c.token % 2 ^ 32 == token && c.phase == 1 && !c.unmapped.isEmpty) with
  | none => bad s
  | some x =>
    match x.unmapped with
    | [] => bad s
    | (_, n) :: rest =>
      let s := updCmd s x.token (fun c => { c with unmapped := rest })
      if bit (qw it 3) 31 then backingDone x.token .poisoned 0 s
      else if qb (Tbl.getD s.bkqs (qb it 3 9 0) []) 0 1 0 = 0 then backingDone x.token .poisoned 0 (bad s)
      else mappedPiece s x (qb it 3 9 0) (qw it 2) n

/-- A released put: the Proofer takes INJECT and MAP_REPLY itself (R330, R333); any other joins its queue. -/
def routePut (s : State) (it : Item) : State × Nat :=
  if Item.queue it = 0xFFF then (inject s it, 0)
  else if Item.queue it = 0xFFE then (mapReply s it, 0)
  else putItem s it false

/-! ## Ends of items (R335 to R337) -/

/-- A charge of core-cycles; none for none. -/
def chargeCycles (s : State) (hart x n : Nat) : State := if n = 0 then s else charge s (tileOf hart) x 32 n s.ns

/-- The item a hart holds. -/
def heldItem (s : State) (hart : Nat) : Option Held := s.heldBy.find? (fun h => h.hart == hart && !h.ended)

/-- Time outside any item goes to the provider (R336). -/
def chargeOut (s : State) (hart : Nat) : State :=
  let h := hartOf s hart
  if (heldItem s hart).isSome || h.wait.isSome || !h.running then s
  else setHart (chargeCycles s hart 4096 (cyclesOf s (s.ns - h.outSince))) hart { h with outSince := s.ns }

/-- An item's cycles are charged at its end (R334, R336). -/
def chargeItem (s : State) (h : Held) : State :=
  let n := cyclesOf s (s.ns - h.start)
  let x := Item.owner h.item
  let s := chargeCycles s h.hart x n
  setHart { s with deficits := Tbl.put s.deficits x (Tbl.getD s.deficits x 0 - (n : Int)) } h.hart
    { hartOf s h.hart with outSince := s.ns }

/-- Items of one queue and TAG. -/
def sameFlow (q tag : Nat) (h : Held) : Bool := h.queue == q && Item.tag h.item == tag

/-- Puts of an ORDERED flow that no unended earlier item holds back leave, in item order; an ended item without puts is
forgotten (R335). -/
def settleOrder (s : State) (q tag : Nat) : State :=
  (s.heldBy.filter (sameFlow q tag)).foldl (fun (s : State) (e : Held) =>
    if s.heldBy.any (fun h => sameFlow q tag h && h.num < e.num && !h.ended) then s
    else
      let mine := fun (h : Held) => h.queue == q && h.num == e.num
      let s := { s with heldBy := (s.heldBy.filter (fun h => !(mine h && h.ended))).map (fun h => if mine h then { h with puts := [] } else h) }
      e.puts.foldl (fun s p => (routePut s p).1) s) s

/-- No item of an owner is held any more: FLUSH_TENANT ends (R337), and the TENANT_CLOSE that made it (R361). -/
def checkFlush (s : State) : State :=
  let s := checkClose s
  match waitingCmd s blkPROOFER 0 0x04 with
  | none => s
  | some r =>
    let x := ownerIx (r.arg0.toNat % 4096) (bit r.arg0.toNat 31)
    if s.heldBy.any (fun h => !h.ended && Item.owner h.item == x) then s else endWaiting s blkPROOFER 0 0x04 0

/-- The held item of a hart ends normally (R324, R335, R336). -/
def endItem (s : State) (hart : Nat) : State :=
  match heldItem s hart with
  | none => s
  | some h =>
    let s := chargeItem s h
    let s := { s with heldBy := s.heldBy.map (fun e => if e.hart = hart ∧ e.ended = false then { e with ended := true } else e) }
    let s := settleOrder s h.queue (Item.tag h.item)
    checkFlush (dispatchWaiting s)

/-- A hart's locks are released (R325, R337, R338): what waited for the contexts goes on. -/
def releaseLock (s : State) (h : Nat) : State := released (updCtx s h (fun c => { c with lock := none, lockOver := false })) h

/-- The contexts a hart has locked. -/
def locksOf (s : State) (hart : Nat) : List Nat :=
  (s.ctxs.filter (fun c => match c.2.lock with | some (h, _) => h == hart | none => false)).map Prod.fst

def releaseLocks (s : State) (hart : Nat) : State := (locksOf s hart).foldl releaseLock s

/-- The held item of a hart is put back at the head of its queue (R337). -/
def redeliver (s : State) (hart : Nat) : State :=
  let s := match heldItem s hart with
    | none => s
    | some h =>
      let s := chargeItem s h
      let s := { s with heldBy := s.heldBy.filter (fun e => !(e.hart == hart && !e.ended)) }
      let it : Item := listSet h.item 0 (dw (qw h.item 0 ||| 2 ^ 41))
      let q : WorkQ := Tbl.getD s.workqs h.queue {}
      let s := { s with workqs := Tbl.put s.workqs h.queue { q with items := it :: q.items } }.bumpStat PROOFER.REDELIV 0
      checkFlush (settleOrder s h.queue (Item.tag h.item))
  releaseLocks s hart

/-- Several harts at once: the item dispatched last goes back first, so that the original order stands. -/
def redeliverAll (s : State) (harts : List Nat) : State :=
  let held := (s.heldBy.filter (fun h => !h.ended && harts.contains h.hart)).map (fun h => h.hart)
  let s := held.reverse.foldl redeliver s
  dispatchWaiting (harts.foldl releaseLocks s)

/-! ## Running and halting harts (R321, R339, R343) -/

/-- A hart starts: pc, M mode, a0 = mhartid, a1 by the reason. -/
def startHart (s : State) (hart pc a1 : Nat) : State :=
  setHart s hart { hartOf s hart with running := true, pc := dw pc, x := [(10, dw hart), (11, dw a1)], wait := none, outSince := s.ns }

/-- A hart is halted: its wait ends, its locks are released. -/
def haltHart (s : State) (hart : Nat) : State :=
  let s := chargeOut s hart
  releaseLocks (setHart s hart { hartOf s hart with running := false, wait := none }) hart

/-- The harts of a tile and of a cluster. -/
def tileHarts (t : Nat) : List Nat := (List.range 32).map (fun i => 32 * t + i)
def clusterHarts (c : Nat) : List Nat := (List.range 16).map (fun i => 16 * c + i)

/-! ## Tile tests (R339) -/

/-- Another tile is DRAINING or TESTING. -/
def testBusy (s : State) : Bool := (List.range 32).any (fun t => s.stateOf blkTILE t == 3 || s.stateOf blkTILE t == 4)

/-- TESTING: the deadline goes, harts halt, queues homed here run elsewhere. -/
def startTest (s : State) (t : Nat) : State :=
  let s := { s.setState blkTILE t 4 with drainAt := Tbl.del s.drainAt t }
  dispatchWaiting ((tileHarts t).foldl haltHart s)

/-- Every held item of a DRAINING tile has ended. -/
def checkDrained (s : State) (t : Nat) : State :=
  if s.stateOf blkTILE t = 3 && !s.heldBy.any (fun h => !h.ended && tileOf h.hart == t) then startTest s t else s

/-- DRAINING begins. -/
def startDrain (s : State) (t : Nat) : State :=
  checkDrained { s.setState blkTILE t 3 with drainAt := Tbl.put s.drainAt t (s.ns + s.rd PROOFER.DRAIN_LIMIT * 1000) } t

/-- A test is asked for: it starts, or waits its turn; a tile from FAILED is noted 32 above its number. -/
def askTest (s : State) (t : Nat) (failed : Bool) : State :=
  if testBusy s then { s.setState blkTILE t 2 with tests := s.tests ++ [if failed then t + 32 else t] }
  else if failed then startTest s t
  else startDrain s t

/-- The oldest queued test starts when no tile is DRAINING or TESTING. -/
def nextTest (s : State) : State :=
  if testBusy s then s
  else
    match s.tests with
    | [] => s
    | t :: rest => if 32 ≤ t then startTest { s with tests := rest } (t - 32) else startDrain { s with tests := rest } t

/-! ## The instructions -/

/-- A hart takes an exception (R323, R324). -/
def trap (s : State) (hart cause : Nat) : State := s.emit (.hartTrap hart cause)

/-- KRTIME, KRTFRAC, KITEM, KSUB0 to 3 and KCTRL as the hart reads them (R322); a read of KRTIME latches KRTFRAC. -/
def csrRead (s : State) (hart csr : Nat) : Option (Dword × State) :=
  let h := hartOf s hart
  if csr = 0xCC0 then
    some (s.stamp, setHart s hart { h with krtf := BitVec.ofNat 17 (s.now % 65536 + b2n s.traceable * 65536) })
  else if csr = 0xCC1 then some (dw h.krtf.toNat, s)
  else if csr = 0xCC2 then
    let held := match heldItem s hart with | some e => e.queue + 4096 | none => 0
    some (dw (held + (locksOf s hart).length * 8192), s)
  else if 0x7C0 ≤ csr ∧ csr ≤ 0x7C3 then some (dw (qw h.ksub (csr - 0x7C0)), s)
  else if csr = 0x7C4 then some (h.kctrl, s)
  else none

/-- One access of a hart to a Kwegan CSR (R322): a write of a read-only one, or of none of these, is an illegal
instruction. The bits of KCTRL without a name stay 0 (log 4). -/
def csrAccess (hart : Nat) (s : State) (a : BitVec 12 × Option Dword) : State :=
  let csr := a.1.toNat
  match a.2 with
  | none => match csrRead s hart csr with
    | some (v, s) => s.emit (.hartCsr hart csr v)
    | none => trap s hart 2
  | some v =>
    let h := hartOf s hart
    if 0x7C0 ≤ csr ∧ csr ≤ 0x7C3 then setHart s hart { h with ksub := listSet h.ksub (csr - 0x7C0) v }
    else if csr = 0x7C4 then setHart s hart { h with kctrl := v &&& 3 }
    else trap s hart 2

/-- The state in which a hart's instruction executes: time has passed; a wait of the hart that is still open was ended by
an interrupt with rd = 0 (R324); the hart's own CSR accesses have been made (R322). A halted hart executes nothing. -/
def kwBefore (k : KwIn) (s : State) : State :=
  let s := s.pass k.dt
  let hart := k.hart.val
  let h := hartOf s hart
  if !h.running then s
  else
    let s := match h.wait with
      | some (_, rd, _) => hartResult (setHart s hart { h with wait := none, outSince := s.ns }) hart rd 0
      | none => s
    k.csrs.foldl (csrAccess hart) s

/-- A Kwegan instruction: a bad encoding and a mode without its enable bit are illegal instructions (R322, R323). -/
def kwegan (always : Bool) (f : State → State) (k : KwIn) (s : State) : State :=
  let s := kwBefore k s
  let hart := k.hart.val
  let h := hartOf s hart
  if !h.running then s
  else
    let allowed := always || k.mode.val == 0 || bit h.kctrl.toNat (k.mode.val - 1)
    if k.badEnc || !allowed then trap s hart 2 else f s

/-- WGET: R324, R334. -/
def wgetGo (k : KwIn) (s : State) : State :=
  let hart := k.hart.val
  if k.rs1.toNat % 32 ≠ 0 then trap s hart 6
  else if k.pmpNo then trap s hart 7
  else
    let s := chargeOut (endItem s hart) hart
    match giveItem s hart k.rs1.toNat k.rd.val with
    | (s, true) => s
    | (s, false) =>
      let s := if k.rs2 = 0 then hartResult s hart k.rd.val 0
        else setHart s hart { hartOf s hart with wait := some (k.rs1.toNat, k.rd.val, s.ns + k.rs2.toNat) }
      nextTest (checkDrained s (tileOf hart))

/-- R324: the wait of a hart is over without an item. -/
def wgetTimeout (hart : Nat) (s : State) : State :=
  match (hartOf s hart).wait with
  | none => s
  | some (_, rd, until_) =>
    let s := s.reach until_
    hartResult (setHart s hart { hartOf s hart with wait := none, outSince := s.ns }) hart rd 0

/-- The TYPE may be put on the queue (R330). -/
def mayPut (type queue : Nat) : Bool :=
  if queue = 0xFFF then type == 0x08
  else if queue = 0xFFE then type == 0x09
  else (1 ≤ type && type ≤ 7) || 0x40 ≤ type

/-- The rd of a WPUT and the state after it (R324, R330, R333, R335). -/
def submitPut (s : State) (hart : Nat) (it0 : Item) : State × Nat :=
  let it : Item := listSet it0 0 (dw (qw it0 0 &&& 0xFFFFFDFFFFFF00FF))
  let refused := fun (s : State) => ((s.bumpStat PROOFER.REFUSED 0).bumpErr blkPROOFER 0 1).istat blkPROOFER 0 0
  if qb it 0 63 42 ≠ 0 then (s, 4)
  else if !mayPut (Item.type it) (Item.queue it) then (s, 3)
  else
    match heldItem s hart with
    | none => routePut s it
    | some h =>
      let ordered := (Tbl.getD s.workqs h.queue ({} : WorkQ)).sched == 2
      let tag := Item.tag h.item
      if ordered && s.heldBy.any (fun e => sameFlow h.queue tag e && e.num < h.num && !e.ended) then
        if 16 ≤ h.puts.length then (refused s, 1)
        else if Item.queue it < 0xFFE && !(Tbl.getD s.workqs (Item.queue it) ({} : WorkQ)).enabled then (refused s, 2)
        else ({ s with heldBy := s.heldBy.map (fun e => if e.hart = hart ∧ e.ended = false then { e with puts := e.puts ++ [it] } else e) }, 0)
      else routePut s it

/-- WPUT. -/
def wputGo (k : KwIn) (s : State) : State :=
  let hart := k.hart.val
  if k.rs1.toNat % 32 ≠ 0 then trap s hart 4
  else if k.pmpNo then trap s hart 5
  else
    let (s, code) := submitPut s hart (s.memGetQ k.rs1.toNat 4)
    hartResult s hart k.rd.val (dw code)

/-- WDONE. -/
def wdoneGo (k : KwIn) (s : State) : State := nextTest (checkDrained (endItem s k.hart.val) (tileOf k.hart.val))

/-- The rd of a CLOCK and the state after it (R260, R325). -/
def lockCtx (s : State) (hart h : Nat) : State × Nat :=
  match Tbl.get? s.ctxs h with
  | none => (s, 3)
  | some c =>
    match c.lock with
    | some (other, _) => (s, if other = hart then 0 else 1)
    | none =>
      if 8 ≤ (locksOf s hart).length then (s, 4)
      else
        match demand s h with
        | (s, true) => (updCtx s h (fun c => { c with lock := some (hart, s.ns), lockOver := false }), 0)
        | (s, false) => (s, 2)

def clockGo (k : KwIn) (s : State) : State :=
  let (s, code) := lockCtx s k.hart.val (k.rs1.toNat % 2 ^ 25)
  hartResult s k.hart.val k.rd.val (dw code)

/-- CUNLOCK. -/
def cunlockGo (k : KwIn) (s : State) : State :=
  let h := k.rs1.toNat % 2 ^ 25
  if (locksOf s k.hart.val).contains h then releaseLock s h else s

/-- R325: a lock has been held for LOCK_LIMIT: reported once; it stays held. -/
def lockLimit (h : Nat) (s : State) : State :=
  match (Tbl.get? s.ctxs h).bind (fun c => if c.lockOver then none else c.lock) with
  | none => s
  | some (_, t) =>
    let s := s.reach (t + s.rd PROOFER.LOCK_LIMIT * 1000)
    (updCtx (s.bumpErr blkPROOFER 0 2) h (fun c => { c with lockOver := true })).istat blkPROOFER 0 2

/-- CRCC (R326). -/
def crccValue (rs1 rs2 : Dword) : Dword := dw ((leBytes 8 rs2.toNat).foldl crcByte (rs1.setWidth 32)).toNat

/-- TPLZ (R326): the window is read from rs2 bit 47 downward. -/
def tplzValue (rs1 rs2 : Dword) : Dword :=
  dw ((List.range 8).foldl (fun (h : Word) (j : Nat) =>
    if bit (rs2.toNat % 256) (7 - j) then h ^^^ w32 (bits rs2.toNat (47 - j) (16 - j)) else h) (rs1.setWidth 32)).toNat

/-- CALLOC (R327). -/
def callocGo (k : KwIn) (s : State) : State :=
  match allocCells s k.rs1.toNat with
  | some (c, s) => hartResult s k.hart.val k.rd.val (dw c)
  | none => hartResult s k.hart.val k.rd.val (dw (2 ^ 64 - 1))

/-- CFREE (R327). -/
def cfreeGo (k : KwIn) (s : State) : State :=
  if (Tbl.get? s.cells k.rs1.toNat).isSome then freeCells s k.rs1.toNat else s.bumpErr blkPROOFER 0 3

/-- TSET (R328). -/
def tsetGo (k : KwIn) (s : State) : State :=
  let (s, code) := s.calSchedule (32 + tileOf k.hart.val) ⟨k.rs1.toNat, blkPROOFER, 1, k.rs2.toNat % 2 ^ 40⟩
  hartResult s k.hart.val k.rd.val (dw code)

/-- TCANCEL (R328). -/
def tcancelGo (k : KwIn) (s : State) : State :=
  let n := 32 + tileOf k.hart.val
  let cookie := k.rs1.toNat % 2 ^ 40
  if (s.pendingEvent n blkPROOFER 1 cookie).isNone then hartResult s k.hart.val k.rd.val 0x43
  else hartResult (s.unschedule n blkPROOFER 1 cookie) k.hart.val k.rd.val 0

/-- A hart timer fires (R328, R330): a TIMER item on its QUEUE, or lost when the pool is empty. -/
def hartTimerFire (s : State) (e : CalEvent) (stepped late : Bool) : State :=
  let q := bits e.cookie 39 28
  let x := (Tbl.getD s.workqs q ({} : WorkQ)).owner
  if 262144 ≤ itemsUsed s then ((putItem s (mkItem 7 q x e.cookie 0 0 0) true true).1.bumpErr blkPROOFER 0 4).istat blkPROOFER 0 3
  else (putItem s (mkItem 7 q x (e.cookie % 2 ^ 28) 0 e.deadline (b2n stepped + 2 * b2n late)) true true).1

/-- A read of KRTIME (R322): the short stamp in rd; FRACTION and TRACEABLE are latched. -/
def krtimeGo (k : KwIn) (s : State) : State :=
  let hart := k.hart.val
  hartResult (setHart s hart { hartOf s hart with krtf := BitVec.ofNat 17 (s.now % 65536 + b2n s.traceable * 65536) }) hart k.rd.val s.stamp

def execWget (k : KwIn) (s : State) : Host.Outcome State Fault Refusal := ok (kwegan false (wgetGo k) k s)
def execWgetWaitExpiry (hart : Fin 1024) (s : State) : Host.Outcome State Fault Refusal := ok (wgetTimeout hart.val s)
def execWput (k : KwIn) (s : State) : Host.Outcome State Fault Refusal := ok (kwegan false (wputGo k) k s)
def execWdone (k : KwIn) (s : State) : Host.Outcome State Fault Refusal := ok (kwegan false (wdoneGo k) k s)
def execClock (k : KwIn) (s : State) : Host.Outcome State Fault Refusal := ok (kwegan false (clockGo k) k s)
def execCunlock (k : KwIn) (s : State) : Host.Outcome State Fault Refusal := ok (kwegan false (cunlockGo k) k s)
def execCrcc (k : KwIn) (s : State) : Host.Outcome State Fault Refusal :=
  ok (kwegan true (fun s => hartResult s k.hart.val k.rd.val (crccValue k.rs1 k.rs2)) k s)
def execTplz (k : KwIn) (s : State) : Host.Outcome State Fault Refusal :=
  ok (kwegan true (fun s => hartResult s k.hart.val k.rd.val (tplzValue k.rs1 k.rs2)) k s)
def execCalloc (k : KwIn) (s : State) : Host.Outcome State Fault Refusal := ok (kwegan false (callocGo k) k s)
def execCfree (k : KwIn) (s : State) : Host.Outcome State Fault Refusal := ok (kwegan false (cfreeGo k) k s)
def execTset (k : KwIn) (s : State) : Host.Outcome State Fault Refusal := ok (kwegan false (tsetGo k) k s)
def execTcancel (k : KwIn) (s : State) : Host.Outcome State Fault Refusal := ok (kwegan false (tcancelGo k) k s)
def execKrtimeRead (k : KwIn) (s : State) : Host.Outcome State Fault Refusal := ok (kwegan true (krtimeGo k) k s)
def execLockLimitExpiry (h : BitVec 25) (s : State) : Host.Outcome State Fault Refusal := ok (lockLimit h.toNat s)

end Sys2Proof.Machine
end

