-- ==== Sys2Proof/Machine/CoreRows.lean ====
section
/-! DEFINITION. The commands of the PROOFER, TILE and CLUSTER pages, tile tests, canaries, the release of the harts (R321,
R333, R337, R339 to R343). -/

namespace Sys2Proof.Machine

/-! ## PROOFER (R341) -/

def cmdQcfgWrite (c : CmdCtx) (s : State) : CmdRes :=
  ckArgs c s 0xFFF anyArg <|
    let d := c.d.getD 0 0
    let n : WorkQ := { cfg := d }
    let q : WorkQ := Tbl.getD s.workqs c.a0 {}
    let held := s.heldBy.any (fun h => !h.ended && h.queue == c.a0)
    if qwRsvd c.d [0x003F1FFFFFFF3FFF] then .fail s 0x03
    else if n.sched = 3 ∨ n.depth = 0 then .fail s 0x02
    else if 0xFFE ≤ c.a0 then .fail s 0x40
    else if c.a0 < 256 ∧ n.group ≠ c.a0 then .fail s 0x41
    else if n.sched ≠ q.sched ∧ (!q.items.isEmpty || held) then .fail s 0x42
    else .done (dispatchWaiting { s with workqs := Tbl.put s.workqs c.a0 { q with cfg := d } })

def cmdQcfgRead (c : CmdCtx) (s : State) : CmdRes :=
  ckArgs c s 0xFFF anyArg <|
    let q : WorkQ := Tbl.getD s.workqs c.a0 {}
    let held := (s.heldBy.filter (fun h => !h.ended && h.queue == c.a0)).length
    .data s [q.cfg, dw (q.items.length % 65536 + held % 65536 * 65536)]

def cmdTweightWrite (c : CmdCtx) (s : State) : CmdRes :=
  ckArgs c s 0x80000FFF 0xFF <|
    if c.a1 = 0 then .fail s 0x02
    else .done { s with weights := Tbl.put s.weights (ownerIx (c.a0 % 4096) (bit c.a0 31)) c.a1 }

/-- Cells of discarded packet items are freed (R337). -/
def freeItemCells (s : State) (it : Item) : State :=
  if 1 ≤ Item.type it ∧ Item.type it ≤ 4 then freeCells s (qb it 2 19 0) else s

/-- The queued items that meet a condition are discarded (R337, R362). -/
def discardItems (s : State) (p : Item → Bool) : State :=
  let gone := s.workqs.flatMap (fun q => q.2.items.filter p)
  gone.foldl freeItemCells { s with workqs := Tbl.mapV s.workqs (fun _ q => { q with items := q.items.filter (fun i => !p i) }) }

/-- The queued items of an owner are discarded. -/
def flushItemsOf (s : State) (x : Nat) : State := discardItems s (fun i => Item.owner i == x)

def cmdProoferFlush (c : CmdCtx) (s : State) : CmdRes :=
  ckArgs c s 0x80000FFF anyArg <|
    let x := ownerIx (c.a0 % 4096) (bit c.a0 31)
    let s := flushItemsOf s x
    if s.heldBy.any (fun h => !h.ended && Item.owner h.item == x) then .later s else .done s

def execQcfgWrite (c : CmdIn) (s : State) : Host.Outcome State Fault Refusal := ok (pageCommand blkPROOFER 0x01 cmdQcfgWrite c s)
def execQcfgRead (c : CmdIn) (s : State) : Host.Outcome State Fault Refusal := ok (pageCommand blkPROOFER 0x02 cmdQcfgRead c s)
def execTweightWrite (c : CmdIn) (s : State) : Host.Outcome State Fault Refusal :=
  ok (pageCommand blkPROOFER 0x03 cmdTweightWrite c s)
def execProoferFlushTenant (c : CmdIn) (s : State) : Host.Outcome State Fault Refusal :=
  ok (pageCommand blkPROOFER 0x04 cmdProoferFlush c s)

/-! ## Self-test (R339, R342) -/

def cmdSelftest (c : CmdCtx) (s : State) : CmdRes :=
  ckArgs c s 0x3 anyArg <|
    let st := s.stateOf blkTILE c.inst
    if c.a0 = 0 then .fail s 0x02
    else if st ≠ 1 ∧ st ≠ 5 then .fail s 0x40
    else .done (askTest s c.inst (st = 5))

def execSelftest (c : CmdIn) (s : State) : Host.Outcome State Fault Refusal := ok (pageCommand blkTILE 0x01 cmdSelftest c s)

/-- R339: DRAIN_LIMIT has passed: held items are redelivered, the test starts. -/
def drainLimit (t : Nat) (s : State) : State :=
  if s.stateOf blkTILE t ≠ 3 then s
  else startTest (redeliverAll (s.reach (Tbl.getD s.drainAt t s.ns)) (tileHarts t)) t

def execDrainLimitExpiry (tile : Fin 32) (s : State) : Host.Outcome State Fault Refusal := ok (drainLimit tile.val s)

/-- A hart's restart address (R343). -/
def restartPc (s : State) (hart : Nat) : Nat := s.rd64 CLUSTER.RESTART_PC (clusterOf hart)

/-- A tile returns to SERVICE: its harts restart (R339). -/
def tileServes (s : State) (t : Nat) : State :=
  let s := (tileHarts t).foldl (fun (s : State) h => startHart s h (restartPc s h) 1) (s.setState blkTILE t 1)
  nextTest (dispatchWaiting (s.istat blkTILE t 0))

/-- R339, R342: a self-test ends: 1 pass, 2 memory fail, 3 logic fail; `where_` names the failing cluster and core. -/
def testDone (t result where_ : Nat) (s : State) : State :=
  if s.stateOf blkTILE t ≠ 4 ∨ result = 0 ∨ 3 < result then s
  else
    let s := (s.wr TILE.TEST_RESULT t (result + where_ * 256)).bumpStat TILE.TESTS t
    if result = 1 then tileServes s t
    else nextTest (raisePage (((s.setState blkTILE t 5).bumpErr blkTILE t 0).istat blkTILE t 2) blkTILE t 2)

def execSelftestComplete (tile : Fin 32) (result : BitVec 4) (where_ : BitVec 8) (s : State) : Host.Outcome State Fault Refusal :=
  ok (testDone tile.val result.toNat where_.toNat s)

/-- R339: the recovery of a FAILED tile returns it to IN_SERVICE: the test runs again. -/
def tileRecovered (s : State) (t : Nat) : State := if s.stateOf blkTILE t = 5 then askTest s t true else s

/-! ## Canaries (R340, R342) -/

def canaryOf (s : State) (t r : Nat) : List Dword := padQ (Tbl.getD s.canaries (t * 4 + r) []) 32

def cmdCanaryWrite (c : CmdCtx) (s : State) : CmdRes :=
  ckArgs c s 0x3 0x3 <|
    let last := c.a1 = 3
    if last ∧ qwRsvd c.d [0xFFFFFFFF00FFFFFF, 0, 0, 0, 0, 0, 0, 0] then .fail s 0x03
    else if last ∧ 128 < qb c.d 0 23 16 then .fail s 0x02
    else
      let old := canaryOf s c.inst c.a0
      .done { s with canaries := Tbl.put s.canaries (c.inst * 4 + c.a0) (old.take (8 * c.a1) ++ padQ c.d 8 ++ old.drop (8 * c.a1 + 8)) }

def execCanaryWrite (c : CmdIn) (s : State) : Host.Outcome State Fault Refusal :=
  ok (pageCommand blkTILE 0x02 cmdCanaryWrite c s)

/-- The step action words of a program: 0 for a miss or a skipped step; nothing the lookups mark is kept. -/
def stepActions (s : State) (p : Pkt) (pipe : Nat) : List (Nat × Nat) → List Nat
  | [] => []
  | (t, kp) :: rest =>
    if t = 0 then 0 :: stepActions s p pipe rest
    else
      match (lookup s t (buildKey s pipe kp p) (wideKey s pipe kp) p.stamp).1 with
      | none => 0 :: stepActions s p pipe rest
      | some h => if h.final then h.action :: rest.map (fun _ => 0) else h.action :: stepActions s p pipe rest

/-- The SIG of a canary record (R340). -/
def canarySig (s : State) (pipe : Nat) (rcd : List Dword) : Word :=
  let bs := qwBytes rcd
  let port := qb rcd 24 15 0
  let vport := bit port 12
  let id := port % 1024
  let frame := bs.take (64 + qb rcd 24 23 16)
  let r := parse s pipe (profOf s pipe vport id) frame
  let p : Pkt := { bytes := frame, inPort := port, inHost := 0, owner := if vport then 4096 else ethOwner s id, stamp := s.ns,
                   trace := false, tsOk := false, pv := r.pv }
  let acts := if r.cause ≠ 0 then List.replicate 6 0 else stepActions s p pipe (program s pipe (be p.pv 13 1 % 8))
  crc32c 0xFFFFFFFF (r.pv ++ acts.flatMap (leBytes 4))

/-- R340: the next canary of a pipeline runs. -/
def runCanary (t : Nat) (s : State) : State :=
  if !bit (s.rd TILE.TILE_CTRL t) 8 then s
  else
    let r := Tbl.getD s.canNext t 0
    let k := t * 4 + r
    let rcd := canaryOf s t r
    let s := { s with canNext := Tbl.put s.canNext t ((r + 1) % 4) }.bumpStat TILE.CANARY_RUN t
    if (canarySig s t rcd).toNat = qb rcd 24 63 32 then { s with canMiss := Tbl.del s.canMiss k }
    else
      let again := Tbl.getD s.canMiss k 0 = 1
      let s := ({ s with canMiss := Tbl.put s.canMiss k 1 }.bumpStat TILE.CANARY_MISS t).bumpErr blkTILE t 1
      let s := s.istat blkTILE t 1
      if again then raisePage s blkPIPE t 1 else s

def execCanaryRun (tile : Fin 32) (s : State) : Host.Outcome State Fault Refusal := ok (runCanary tile.val s)

/-! ## CLUSTER (R343) -/

def cmdHartReset (c : CmdCtx) (s : State) : CmdRes :=
  ckArgs c s 0xF anyArg <|
    let hart := c.inst * 16 + c.a0
    if s.stateOf blkTILE (tileOf hart) ≠ 1 then .fail s 0x40
    else
      let s := redeliverAll (haltHart s hart) [hart]
      .done (dispatchWaiting (startHart s hart (restartPc s hart) 2))

def execHartReset (c : CmdIn) (s : State) : Host.Outcome State Fault Refusal := ok (pageCommand blkCLUSTER 0x01 cmdHartReset c s)

end Sys2Proof.Machine
end

