-- ==== Sys2Proof/Machine/Dma.lean ====
section
/-! DEFINITION. DMA channels: descriptors, execution, the rate limiter, barriers, states and commands (R134 to R146). -/

namespace Sys2Proof.Machine

def dmaOf (s : State) (ch : Nat) : Dma := Tbl.getD s.dma ch {}
def setDma (s : State) (ch : Nat) (d : Dma) : State := { s with dma := Tbl.put s.dma ch d }
def dmaState (s : State) (ch : Nat) : Nat := s.stateOf blkDMA ch
def setDmaState (s : State) (ch st : Nat) : State := s.setState blkDMA ch st

/-- The descriptor in execution or next. -/
def Dma.desc (d : Dma) : List Dword := d.work.headD []
def dOp (e : List Dword) : Nat := entOp e
def dSrc (e : List Dword) : Nat := qw e 1
def dDst (e : List Dword) : Nat := qw e 2
def dSrcSpace (e : List Dword) : Nat := qb e 3 7 0
def dDstSpace (e : List Dword) : Nat := qb e 3 15 8
def dSrcFn (e : List Dword) : Nat := qb e 3 27 16
def dDstFn (e : List Dword) : Nat := qb e 3 39 28
def dBarrier (e : List Dword) : Bool := bit (qw e 0) 48

/-! ## Checks (R135, R136, R138) -/

/-- A range in a space: 0, or the STATUS it fails with. -/
def rangeCheck (s : State) (space fn a n : Nat) : Nat :=
  if space < 128 then
    if !funcLive s space fn then 0x23 else if 2 ^ 64 < a + n then 0x24 else 0
  else devCheck s space a n

/-- What a descriptor fails with before any byte moves: its ranges, destination first, then the overlap. -/
def descCheck (s : State) (e : List Dword) : Nat :=
  let n := entLen e
  let a := rangeCheck s (dDstSpace e) (dDstFn e) (dDst e) n
  if a ≠ 0 then a
  else if dOp e ≠ 0x20 then 0
  else
    let b := rangeCheck s (dSrcSpace e) (dSrcFn e) (dSrc e) n
    if b ≠ 0 then b
    else if dSrcSpace e = dDstSpace e ∧ dSrc e < dDst e + n ∧ dDst e < dSrc e + n then 0x25 else 0

/-! ## The limited link (R140, R141) -/

/-- Bytes per µs of a host port: width × rate / 8 × 1,000, the rate of its generation in tenths of GT/s. -/
def portCap (s : State) (port : Nat) : Nat :=
  let h := hportOf s port
  h.width * ([0, 25, 50, 80, 160, 320, 640].getD h.gen 0) * 100 / 8

/-- The limited link of a descriptor: whether its writes are limited (else its reads), and its capacity. -/
def dmaLimit (s : State) (e : List Dword) : Option (Bool × Nat) :=
  if dDstSpace e < 128 then some (true, portCap s (dDstSpace e))
  else if dOp e = 0x20 ∧ dSrcSpace e < 128 then some (false, portCap s (dSrcSpace e))
  else match dDstSpace e with
    | 0x80 => some (true, 4096000)
    | 0x81 => some (true, 409600)
    | _ => none

/-- A request of `n` bytes is issued against the budget of the present window; false: it waits, counted once a window. -/
def takeBudget (s : State) (ch cap n : Nat) : State × Bool :=
  let d := dmaOf s ch
  let w := s.ns / 1000 + 1
  let d := if d.window = w then d
    else { d with window := w, budget := min d.budget 0 + ((s.rd DMA.RATE ch % 512 * cap / 256 : Nat) : Int) }
  if 0 < d.budget then (setDma s ch { d with budget := d.budget - (n : Int) }, true)
  else ((setDma s ch d).bumpStat DMA.THROTTLE ch, false)

/-- A request on the reading (false) or writing (true) side of a descriptor. -/
def request (s : State) (ch : Nat) (e : List Dword) (side : Bool) (n : Nat) : State × Bool :=
  match dmaLimit s e with
  | some (lim, cap) => if lim == side then takeBudget s ch cap n else (s, true)
  | none => (s, true)

/-! ## Execution (R137) -/

/-- A descriptor has failed, or has issued all its writes: it awaits its completion. -/
def dmaEnds (s : State) (ch status : Nat) : State :=
  let d := dmaOf s ch
  setDma s ch { d with stage := 2, status := status, held := [] }

/-- What the next read covers: where it starts and its bytes, not past a 4 KiB page or, of a host, the
Max_Read_Request_Size once rounded outward (R88, R137). -/
def dmaNext (s : State) (d : Dma) : Nat × Nat :=
  let e := d.desc
  let a := dSrc e + d.moved + d.held.length
  let most := if dSrcSpace e < 128 then s.maxRead (dSrcSpace e) (dSrcFn e) - a % 64 else 4096
  (a, min (entLen e - d.moved - d.held.length) (min most (4096 - a % 4096)))

/-- The next read, rounded outward to 64 B. -/
def dmaRead (s : State) (ch : Nat) : State :=
  let d := dmaOf s ch
  let e := d.desc
  let r := dmaNext s d
  let lo := r.1 / 64 * 64
  let hi := (r.1 + r.2 + 63) / 64 * 64
  match request s ch e false (hi - lo) with
  | (s, true) => (setDma s ch { dmaOf s ch with stage := 1 }).emit
      (.memRead (dSrcSpace e) (dSrcFn e) 3 lo (hi - lo) (dSrcSpace e < 128 && s.relaxed (dSrcSpace e) (dSrcFn e)))
  | (s, false) => setDma s ch { dmaOf s ch with stage := 4 }

/-- A piece of data goes to the destination. -/
def dmaPut (s : State) (ch : Nat) (e : List Dword) (a : Nat) (bs : List Byte) : State :=
  let s := if dDstSpace e < 128 then s.hostPayload (dDstSpace e) (dDstFn e) a bs else s.memPut a bs
  let d := dmaOf s ch
  let d := if dDstSpace e < 128 then { d with wrote := Tbl.put d.wrote (dDstSpace e) a } else d
  (setDma s ch { d with moved := d.moved + bs.length, held := d.held.drop bs.length }).bumpStat DMA.BYTES ch bs.length

/-- Bytes of a FILL from an address: byte a is byte (a mod 8) of the pattern. -/
def fillBytes (pat a n : Nat) : List Byte := (List.range n).map (fun i => BitVec.ofNat 8 (pat / 256 ^ ((a + i) % 8)))

/-- Write what is held, in requests of at most the Max_Payload_Size of a host port, 512 B to device memory (log 32);
then read or fill on. -/
def dmaWrite (ch : Nat) : Nat → State → State
  | 0, s => s
  | f + 1, s =>
    let d := dmaOf s ch
    let e := d.desc
    let a := dDst e + d.moved
    let most := if dDstSpace e < 128 then s.maxPayload (dDstSpace e) else 512
    let n := min (entLen e - d.moved) (min most (4096 - a % 4096))
    if n = 0 then dmaEnds s ch 0
    else if d.held.length < n then
      if dOp e = 0x20 then dmaRead s ch
      else dmaWrite ch f (setDma s ch { d with held := fillBytes (dSrc e) a (min 4096 (entLen e - d.moved)) })
    else if dDstSpace e < 128 && !funcLive s (dDstSpace e) (dDstFn e) then dmaEnds s ch 0x21
    else
      match request s ch e true n with
      | (s, true) => dmaWrite ch f (dmaPut s ch e a (d.held.take n))
      | (s, false) => setDma s ch { dmaOf s ch with stage := 5 }

/-- Pieces that a descriptor takes at most. -/
def dmaFuel (e : List Dword) : Nat := entLen e / 64 + 16

/-- The next descriptor starts, when none is in execution and the channel is RUNNING. -/
def dmaStart (s : State) (ch : Nat) : State :=
  let d := dmaOf s ch
  if dmaState s ch ≠ 1 ∨ d.stage ≠ 0 ∨ !accepts s blkDMA ch then s
  else
    match d.work with
    | [] => s
    | e :: _ =>
      let s := setDma s ch { d with status := 0, moved := 0, held := [] }
      let st := descCheck s e
      if st ≠ 0 then dmaEnds s ch st
      else if dOp e = 0x20 then dmaRead s ch
      else dmaWrite ch (dmaFuel e) s

/-! ## The ring (R113, R114, R119, R120) -/

/-- Slots the next descriptor read covers. -/
def Dma.readMax (d : Dma) : Nat :=
  let n := match d.stop with
    | some i => min (d.d - d.u).toNat ((i - d.c).toNat - (d.u - d.c).toNat)
    | none => (d.d - d.u).toNat
  if d.reading then 0 else min (min 32 n) (2 ^ d.log2 - d.u.toNat % 2 ^ d.log2)

/-- Start the next descriptor read. -/
def dmaPull (s : State) (ch : Nat) : State :=
  let d := dmaOf s ch
  if dmaState s ch ≠ 1 ∨ d.readMax = 0 ∨ !accepts s blkDMA ch then s
  else (setDma s ch { d with reading := true }).emit
    (.memRead d.space d.fn 1 (d.base + 32 * (d.u.toNat % 2 ^ d.log2)) (32 * d.readMax) false)

/-- ERROR is entered (R142, R143). -/
def dmaError (s : State) (ch cause : Nat) (idx : BitVec 16) : State :=
  let d := dmaOf s ch
  (setDmaState (setDma s ch { d with cause := cause, fidx := idx, stop := none, work := [], u := d.c, reading := false,
                                     stage := 0, held := [], flushing := [] }) ch 4).istat blkDMA ch 3

/-- What follows when C or the state moved: ERROR at the stopping point, STOPPED with nothing in execution. -/
def dmaSettle (s : State) (ch : Nat) : State :=
  let d := dmaOf s ch
  if d.stage ≠ 0 then s
  else if dmaState s ch = 1 ∧ d.stop = some d.c then dmaError s ch d.cause d.fidx
  else if dmaState s ch = 2 then
    (setDmaState (setDma s ch { d with work := [], u := d.c, reading := false, stop := none }) ch 3).istat blkDMA ch 2
  else s

/-- A malformed cause (R119, R120, R142): counted; outside RUNNING nothing more. -/
def dmaMalformed (s : State) (ch cause : Nat) (idx : BitVec 16) : State :=
  let s := s.bumpErr blkDMA ch (if cause = 0x08 then 1 else 0)
  let d := dmaOf s ch
  if dmaState s ch ≠ 1 then s
  else
    let d := if 0x08 ≤ cause then { d with work := d.work.take (if d.stage = 0 then 0 else 1) } else d
    let head := d.c + BitVec.ofNat 16 d.work.length
    let d := if 0x08 ≤ cause then { d with u := head, reading := false } else d
    let low := match d.stop with | none => true | some _ => decide ((idx - d.c).toNat < (d.fidx - d.c).toNat)
    let d := if low then { d with cause := cause, fidx := idx } else d
    let stop := match d.stop with
      | none => head
      | some i => if (head - d.c).toNat < (i - d.c).toNat then head else i
    dmaSettle (setDma s ch { d with stop := some stop }) ch

/-- Take the slots of a read: descriptors up to the first malformed one. -/
def dmaTake (s : State) (ch : Nat) : List (List Dword) → State
  | [] => s
  | e :: t =>
    let d := dmaOf s ch
    let c := entCause 4 d.log2 d.u e
    let c := if c = 0 ∧ !(entFirst e && entLast e) then 0x05 else c
    if c ≠ 0 then dmaMalformed s ch c d.u
    else dmaTake (setDma s ch { d with u := d.u + 1, work := d.work ++ [e] }) ch t

/-- A descriptor read of a channel returns: of device memory what stands there. A failed one is made again (log 33). -/
def dmaSlots (ch : Nat) (slots : Option (List (List Dword))) (s : State) : State :=
  let d := dmaOf s ch
  if !d.reading then s
  else
    let d' := { d with reading := false }
    let n := d'.readMax
    let s := setDma s ch d'
    match slots with
    | none => dmaPull s ch
    | some es =>
      let es := if 128 ≤ d.space then
          (List.range n).map (fun i => s.memGetQ (d.base + 32 * ((d.u.toNat + i) % 2 ^ d.log2)) 4)
        else es.map (fun e => padQ e 4)
      let s := dmaTake s ch (es.take n)
      dmaStart (dmaPull (dmaSettle s ch) ch) ch

/-- R113 on a DMA ring. -/
def dmaBell (ch : Nat) (value : Word) (s : State) : State :=
  let d := dmaOf s ch
  if dmaState s ch = 0 then s
  else
    let p := BitVec.ofNat 16 value.toNat
    let ahead := (p - d.c).toNat
    if bits value.toNat 31 16 ≠ 0 then dmaMalformed s ch 0x09 p
    else if 2 ^ d.log2 < ahead then dmaMalformed s ch 0x08 p
    else if p = d.d then s
    else if ahead < (d.d - d.c).toNat then s.bumpErr blkDMA ch 2
    else dmaPull (setDma s ch { d with d := p }) ch

/-! ## Completion (R138, R139, R142, R144) -/

/-- The completion of the descriptor in execution is written; end-of-count; ERROR, STOPPED or the next descriptor. -/
def dmaComplete (s : State) (ch : Nat) : State :=
  let d := dmaOf s ch
  let e := d.desc
  let slot := d.base + 32 * (d.c.toNat % 2 ^ d.log2)
  let q1 := d.status + (if d.status = 0 then entLen e else 0) * 2 ^ 32
  let ws := [(slot + 8, [dw q1, dw s.ns]),
             (slot + 24, [dw (b2n (entOwn e) * 2 ^ 62 + 2 ^ 63 + b2n s.traceable * 2 ^ 60)])]
  if d.space < 128 && !funcLive s d.space d.fn then dmaError s ch 0x83 d.c
  else
    let s := if d.space < 128 then s.emits (ws.map (fun w => .hostWrite d.space d.fn w.1 w.2))
      else ws.foldl (fun (s : State) w => s.memPutQ w.1 w.2) s
    let c := d.c + 1
    let s := (setDma s ch { d with c := c, doneIdx := c, work := d.work.drop 1, stage := 0, status := 0, moved := 0,
                                   held := [] }).bumpStat DMA.DESC ch
    let s := if entNotify e then s.istat blkDMA ch 1 else s
    let s := if d.status = 0 then s else dmaError (s.bumpErr blkDMA ch 4) ch (0x80 + d.status) d.c
    let s := if c = d.d then s.istat blkDMA ch 0 else s
    dmaStart (dmaPull (dmaSettle s ch) ch) ch

/-- R138: the writes of the descriptor in execution are all issued: it completes, or a barrier's flushing reads go out. -/
def dmaIssued (ch : Nat) (s : State) : State :=
  let d := dmaOf s ch
  if d.stage ≠ 2 then s
  else if d.status = 0 ∧ dBarrier d.desc ∧ !d.wrote.isEmpty then
    (setDma s ch { d with stage := 3, flushing := d.wrote.map Prod.fst, wrote := [] }).emits
      (d.wrote.map (fun w => .memRead w.1 (dDstFn d.desc) 4 w.2 0 false))
  else dmaComplete s ch

/-- R139: a flushing read returns. -/
def dmaFlushed (ch : Nat) (good : Bool) (s : State) : State :=
  let d := dmaOf s ch
  if d.stage ≠ 3 then s
  else if !good then dmaComplete (setDma s ch { d with status := 0x21, flushing := [] }) ch
  else
    let s := setDma s ch { d with flushing := d.flushing.drop 1 }
    if d.flushing.length ≤ 1 then dmaComplete s ch else s

/-- R137: source data returns; the bytes beyond the range asked for are discarded. -/
def dmaData (ch : Nat) (r : ReadEnd) (s : State) : State :=
  let d := dmaOf s ch
  let e := d.desc
  if d.stage ≠ 1 then s
  else
    let r' := dmaNext s d
    let a := r'.1
    let n := r'.2
    match r with
    | .data bs =>
      let bs := if dSrcSpace e < 128 then ((bs ++ List.replicate (4096 - bs.length) 0).drop (a % 64)).take n
                else Memory.readBytes s.mem a n
      dmaWrite ch (dmaFuel e) (setDma s ch { d with held := d.held ++ bs })
    | .failed => dmaEnds s ch (if dSrcSpace e < 128 then 0x02 else 0x22)
    | .poisoned => dmaEnds s ch (if dSrcSpace e < 128 then 0x02 else 0x22)

/-- R141: a new window begins for a channel that waits for budget, or began with a step of the Rack Time. -/
def dmaWindow (ch : Nat) (s : State) : State :=
  let d := dmaOf s ch
  let s' := if s.ns / 1000 + 1 = d.window then s.reach (d.window * 1000) else s
  if d.stage = 4 then dmaRead s' ch
  else if d.stage = 5 then dmaWrite ch (dmaFuel d.desc) s'
  else s

/-- A host port goes (R145): reads and writes outstanding are squashed; a ring there is lost. -/
def dmaPortLost (s : State) (port : Nat) : State :=
  (List.range 256).foldl (fun (s : State) (ch : Nat) =>
    match Tbl.get? s.dma ch with
    | none => s
    | some d =>
      if dmaState s ch = 0 then s
      else if d.space = port then
        if dmaState s ch = 4 then s
        else dmaError s ch 0x83 d.c
      else
        let e := d.desc
        if d.stage = 0 ∨ d.stage = 2 then s
        else if dDstSpace e = port then dmaEnds s ch 0x21
        else if dOp e = 0x20 ∧ dSrcSpace e = port ∧ (d.stage = 1 ∨ d.stage = 4) then dmaEnds s ch 0x02
        else s) s

/-! ## Commands (R142, R146) -/

def cmdDmaSetup (c : CmdCtx) (s : State) : CmdRes :=
  ckArgs c s 0x0FFFFF0F anyArg <|
    let log2 := c.a0 % 16
    let space := bits c.a0 15 8
    let base := qw c.d 0
    let size := 32 * 2 ^ log2
    if log2 < 6 then .fail s 0x02
    else if dmaState s c.inst ≠ 0 then .fail s 0x40
    else if base % min size 4096 ≠ 0 then .fail s 0x43
    else if 0x82 < space ∨ (space < 128 ∧ !portUsed s space) ∨ (128 ≤ space ∧ devCheck s space base size ≠ 0) then .fail s 0x44
    else .done (setDmaState (setDma s c.inst { base := base, log2 := log2, space := space, fn := bits c.a0 27 16 }) c.inst 3)

def cmdDmaStart (c : CmdCtx) (s : State) : CmdRes :=
  if dmaState s c.inst ≠ 3 then .fail s 0x41 else .done (dmaPull (setDmaState s c.inst 1) c.inst)

def cmdDmaStop (c : CmdCtx) (s : State) : CmdRes :=
  if dmaState s c.inst ≠ 1 then .fail s 0x41 else .done (dmaSettle (setDmaState s c.inst 2) c.inst)

def cmdDmaResume (c : CmdCtx) (s : State) : CmdRes :=
  ckArgs c s 0xFFFF anyArg <|
    let d := dmaOf s c.inst
    let n := BitVec.ofNat 16 c.a0
    if dmaState s c.inst ≠ 4 then .fail (s.bumpErr blkDMA c.inst 3) 0x41
    else if (d.d - d.c).toNat < (n - d.c).toNat then .fail (s.bumpErr blkDMA c.inst 3) 0x42
    else .done (dmaPull (setDmaState (setDma s c.inst { d with c := n, u := n, cause := 0, fidx := 0, stop := none, work := [] })
                          c.inst 1) c.inst)

def cmdDmaRelease (c : CmdCtx) (s : State) : CmdRes :=
  if dmaState s c.inst ≠ 3 ∧ dmaState s c.inst ≠ 4 then .fail s 0x41
  else .done (setDmaState { s with dma := Tbl.del s.dma c.inst } c.inst 0)

def execSetup (c : CmdIn) (s : State) : Host.Outcome State Fault Refusal := ok (pageCommand blkDMA 0x01 cmdDmaSetup c s)
def execStart (c : CmdIn) (s : State) : Host.Outcome State Fault Refusal := ok (pageCommand blkDMA 0x02 cmdDmaStart c s)
def execStop (c : CmdIn) (s : State) : Host.Outcome State Fault Refusal := ok (pageCommand blkDMA 0x03 cmdDmaStop c s)
def execResume (c : CmdIn) (s : State) : Host.Outcome State Fault Refusal := ok (pageCommand blkDMA 0x04 cmdDmaResume c s)
def execRelease (c : CmdIn) (s : State) : Host.Outcome State Fault Refusal := ok (pageCommand blkDMA 0x05 cmdDmaRelease c s)

/-! ## Rows -/

def execDmaDoorbell (who : Requester) (ch : Fin 256) (value : Word) (s : State) : Host.Outcome State Fault Refusal :=
  ok (pageWrite who blkDMA ch.val (dmaBell ch.val value) s)
def execDmaReadDataReturn (ch : Fin 256) (data : ReadEnd) (s : State) : Host.Outcome State Fault Refusal :=
  ok (dmaData ch.val data s)
def execDmaDescriptorComplete (ch : Fin 256) (s : State) : Host.Outcome State Fault Refusal := ok (dmaIssued ch.val s)
def execDmaFlushReadReturn (ch : Fin 256) (good : Bool) (s : State) : Host.Outcome State Fault Refusal :=
  ok (dmaFlushed ch.val good s)
def execDmaRateWindow (ch : Fin 256) (s : State) : Host.Outcome State Fault Refusal := ok (dmaWindow ch.val s)

end Sys2Proof.Machine
end

