-- ==== Sys2Proof/Machine/RdmaRows.lean ====
section
/-! DEFINITION. The commands and events of the RDMA page (R222, R224 to R227, R230, R241, R243, R244, R247, R251, R253). -/

namespace Sys2Proof.Machine

/-! ## QP commands (R224, R226, R253) -/

/-- The bits of the QP layout in use. -/
def qpMask : List Nat :=
  [0x3FFFFFFFF, 0xFFFFFF3FFFFFFFFF, 0x7FFFFFFFFFFFFFF, 0x3FFFFFFFFFFFFF, 0xFFFF3FFF, 0, 0, 0]

/-- PF0 or a VF of PF0 (R224). -/
def pf0Sel (sel : Nat) : Bool := sel == 0 || (0x400 ≤ sel && sel < 0x800)

def cmdQpCreate (c : CmdCtx) (s : State) : CmdRes :=
  ckArgs c s 0xFFFFFF anyArg <|
    if qwRsvd c.d qpMask then .fail s 0x03
    else if !pf0Sel (qb c.d 0 11 0) ∨ qb c.d 0 33 32 = 3 ∨
        ownerIx (qb c.d 0 30 19) (bit (qw c.d 0) 31) ≠ funcOwner s (qb c.d 0 18 12) (qb c.d 0 11 0) then .fail s 0x02
    else if (Tbl.get? s.qps c.a0).isSome then .fail s 0x40
    else if engOf c.a0 ≠ c.inst then .fail s 0x41
    else
      match createCtx s 4 2 (ownerIx (qb c.d 0 30 19) (bit (qw c.d 0) 31)) (qb c.d 0 33 32) (qb c.d 0 18 12) with
      | (s, none) => .fail s 0x08
      | (s, some h) =>
        let s := setQp s c.a0 { attr := [c.d.getD 0 0, 0, 0, 0, 0], handle := h }
        .data (touchQp s c.a0) [dw h]

/-- The QP a command names: WRONG_INST, then NO_QP. -/
def onQp (c : CmdCtx) (s : State) (k : Nat → Qp → CmdRes) : CmdRes :=
  if engOf (c.a0 % 2 ^ 24) ≠ c.inst then .fail s 0x41
  else
    match Tbl.get? s.qps (c.a0 % 2 ^ 24) with
    | none => .fail s 0x42
    | some q => k (c.a0 % 2 ^ 24) q

/-- Ranges of the attributes that QP_MODIFY to RTR takes. -/
def rtrBad (d : List Dword) : Bool :=
  let q1 := qw d 1
  qb d 1 27 26 == 3 || qb d 1 30 28 == 0 || decide (5 < qb d 1 30 28) || decide (qb d 1 52 40 < 8) ||
    decide (8000 < qb d 1 52 40) || (bit q1 25 && !bit q1 24) || qb d 3 15 0 == 0 || qb d 3 20 16 == 0 ||
    decide (16 < qb d 3 20 16) || qb d 3 25 21 == 0 || decide (16 < qb d 3 25 21)

def cmdQpModifyRtr (c : CmdCtx) (s : State) : CmdRes :=
  ckArgs c s 0xFFFFFF 0x7 <|
    if qwRsvd c.d qpMask then .fail s 0x03
    else if rtrBad c.d then .fail s 0x02
    else onQp c s (fun n q =>
      if q.state ≠ 1 then .fail s 0x43
      else
        let sr := bit (qw c.d 1) 24
        let base := match (ringOf s n 3).bind (fun k => Tbl.get? s.queues k) with | some r => r.c.toNat | none => 0
        let psn := qb c.d 2 47 24
        .done (touchQp (setQp s n { q with
          state := 2, attr := [q.attr.getD 0 0, c.d.getD 1 0, dw (psn * 2 ^ 24), c.d.getD 3 0, c.d.getD 4 0],
          srSend := sr, srRecv := sr, rto := qb c.d 1 52 40, epsn := psn, got := [], rqBase := base, rxSeq := 0, msgs := [],
          doneMsg := 0, nakAt := none, ackCnt := 0 }) n))

def cmdQpModifyRts (c : CmdCtx) (s : State) : CmdRes :=
  ckArgs c s 0xFFFFFF 0x7 <|
    if qwRsvd c.d qpMask then .fail s 0x03
    else if qb c.d 2 58 48 < 16 ∨ 1024 < qb c.d 2 58 48 then .fail s 0x02
    else onQp c s (fun n q =>
      if q.state ≠ 2 then .fail s 0x43
      else
        let psn := qb c.d 2 23 0
        let a2 := qb q.attr 2 47 24 * 2 ^ 24 + psn + qb c.d 2 58 48 * 2 ^ 48
        let s := touchQp (setQp s n { q with
          state := 3, attr := listSet q.attr 2 (dw a2), nextPsn := psn, una := psn, ackTo := psn, nextMsg := 0, nextRseq := 0,
          rto := Qp'.rtoBase q, retry := 0, rnr := 0 }) n
        .done (match ringOf s n 2 with | some k => runQp (pull s k) n | none => s))

def cmdQpModifyError (c : CmdCtx) (s : State) : CmdRes :=
  ckArgs c s 0xFFFFFF 0x7 <| onQp c s (fun n q =>
    if q.state = 1 ∨ q.state = 2 ∨ q.state = 3 then .done (qpError s n 0 none) else .fail s 0x43)

def cmdQpModifyInit (c : CmdCtx) (s : State) : CmdRes :=
  ckArgs c s 0xFFFFFF 0x7 <| onQp c s (fun n q =>
    if q.state = 4 then .done (touchQp (setQp s n { attr := [q.attr.getD 0 0, 0, 0, 0, 0], handle := q.handle }) n)
    else .fail s 0x43)

def cmdQpQuery (c : CmdCtx) (s : State) : CmdRes :=
  ckArgs c s 0xFFFFFF anyArg <| onQp c s (fun _ q =>
    .data s [dw (q.nextPsn + q.state * 2 ^ 24 + q.una * 2 ^ 32),
             dw (q.epsn + q.retry * 2 ^ 24 + b2n q.srSend * 2 ^ 32 + b2n q.srRecv * 2 ^ 33), dw (q.cnpRx % 2 ^ 32)])

def cmdQpDestroy (c : CmdCtx) (s : State) : CmdRes :=
  ckArgs c s 0xFFFFFF anyArg <| onQp c s (fun n q =>
    if q.state ≠ 1 ∧ q.state ≠ 4 then .fail s 0x43
    else if (ringOf s n 2).isSome ∨ (ringOf s n 3).isSome then .fail s 0x44
    else
      let s := { s with qps := Tbl.del s.qps n }
      .done ([0, 1, 2, 3].foldl (fun (s : State) (i : Nat) => destroyCtx s (q.handle + i)) s))

/-! ## Memory keys (R222, R253) -/

/-- The table and range an index command meets: 0x02, NOT_KEY_INST, NO_TABLE. -/
def onKey (c : CmdCtx) (s : State) (k : Nat → CmdRes) : CmdRes :=
  let z := s.rd RDMA.MKEY_SIZE % 32
  if z ≠ 0 ∧ 2 ^ z ≤ c.a0 then .fail s 0x02
  else if c.inst ≠ 0 then .fail s 0x45
  else if z = 0 then .fail s 0x46
  else k (s.rd64 RDMA.MKEY_BASE + 32 * c.a0)

def cmdMkeyWrite (c : CmdCtx) (s : State) : CmdRes :=
  ckArgs c s 0xFFFFFF anyArg <|
    if qwRsvd c.d [0xFFFFFFF0000000FF, 2 ^ 64 - 1, 0xFFFFFFFFFFFF] then .fail s 0x03
    else if qb c.d 2 47 0 = 0 then .fail s 0x02
    else onKey c s (fun a => .done (s.memPutQ a (padQ c.d 4)))

def cmdMkeyInvalidate (c : CmdCtx) (s : State) : CmdRes :=
  ckArgs c s 0xFFFFFF anyArg <| onKey c s (fun a =>
    .done (s.memPutQ a [dw (qw (s.memGetQ a 1) 0 % 2 ^ 63)]))

def cmdMkeyRead (c : CmdCtx) (s : State) : CmdRes :=
  ckArgs c s 0xFFFFFF anyArg <| onKey c s (fun a => .data s (s.memGetQ a 4))

def execQpCreate (c : CmdIn) (s : State) : Host.Outcome State Fault Refusal := ok (pageCommand blkRDMA 0x01 cmdQpCreate c s)

/-- QP_MODIFY's operands with the target state in ARG1 bits 2:0, which the row gives. -/
def qpModifyIn (target : Nat) (c : CmdIn) (s : State) : CmdIn :=
  let a1 := match c.arg1 with | some v => v.toNat | none => s.hd blkRDMA c.inst.toNat 0x2C
  { c with arg1 := some (w32 (a1 / 8 * 8 + target)) }

/-- A QP_MODIFY row. -/
def qpModify (target : Nat) (eff : CmdCtx → State → CmdRes) (c : CmdIn) (s : State) : State :=
  pageCommand blkRDMA 0x02 eff (qpModifyIn target c s) s

def execQpModifyRtr (c : CmdIn) (s : State) : Host.Outcome State Fault Refusal := ok (qpModify 2 cmdQpModifyRtr c s)
def execQpModifyRts (c : CmdIn) (s : State) : Host.Outcome State Fault Refusal := ok (qpModify 3 cmdQpModifyRts c s)
def execQpModifyError (c : CmdIn) (s : State) : Host.Outcome State Fault Refusal := ok (qpModify 4 cmdQpModifyError c s)
def execQpModifyInit (c : CmdIn) (s : State) : Host.Outcome State Fault Refusal := ok (qpModify 1 cmdQpModifyInit c s)
def execQpQuery (c : CmdIn) (s : State) : Host.Outcome State Fault Refusal := ok (pageCommand blkRDMA 0x03 cmdQpQuery c s)
def execQpDestroy (c : CmdIn) (s : State) : Host.Outcome State Fault Refusal := ok (pageCommand blkRDMA 0x04 cmdQpDestroy c s)
def execMkeyWrite (c : CmdIn) (s : State) : Host.Outcome State Fault Refusal := ok (pageCommand blkRDMA 0x05 cmdMkeyWrite c s)
def execMkeyInvalidate (c : CmdIn) (s : State) : Host.Outcome State Fault Refusal :=
  ok (pageCommand blkRDMA 0x06 cmdMkeyInvalidate c s)
def execMkeyRead (c : CmdIn) (s : State) : Host.Outcome State Fault Refusal := ok (pageCommand blkRDMA 0x07 cmdMkeyRead c s)

/-- QP_MODIFY by the target its ARG1 names; a target that is no event of R226 ends with BAD_TRANSITION. -/
def cmdQpModify (c : CmdCtx) (s : State) : CmdRes :=
  match c.a1 % 8 with
  | 1 => cmdQpModifyInit c s
  | 2 => cmdQpModifyRtr c s
  | 3 => cmdQpModifyRts c s
  | 4 => cmdQpModifyError c s
  | _ => ckArgs c s 0xFFFFFF 0x7 <| onQp c s (fun _ _ => .fail s 0x43)

/-! ## Packets and timers -/

def execRdmaRequestRx (p : RdmaPkt) (s : State) : Host.Outcome State Fault Refusal := ok (rdmaRequest p s)

def execRdmaAckRx (qpn psn : BitVec 24) (sr : Bool) (blocks : List (Nat × Nat)) (s : State) : Host.Outcome State Fault Refusal :=
  ok (rdmaAck qpn.toNat psn.toNat sr blocks s)

def execRdmaNakRx (qpn psn : BitVec 24) (code : BitVec 2) (sr : Bool) (s : State) : Host.Outcome State Fault Refusal :=
  ok (rdmaNak qpn.toNat psn.toNat code.toNat sr s)

def execRnrNakRx (qpn psn : BitVec 24) (s : State) : Host.Outcome State Fault Refusal := ok (rnrNak qpn.toNat psn.toNat s)

def execReadResponseRx (qpn psn : BitVec 24) (offset : Word) (_last : Bool) (payload : List Byte) (s : State) :
    Host.Outcome State Fault Refusal :=
  ok (readResponse qpn.toNat psn.toNat offset.toNat payload s)

def execAtomicAckRx (qpn psn : BitVec 24) (orig : Dword) (s : State) : Host.Outcome State Fault Refusal :=
  ok (atomicAck qpn.toNat psn.toNat orig s)

/-- R230: a Congestion Notification Packet. -/
def cnp (qpn : Nat) (s : State) : State :=
  match Tbl.get? s.qps qpn with
  | none => s.bumpErr blkRDMA (engOf qpn) 1
  | some q => (setQp s qpn { q with cnpRx := q.cnpRx + 1 }).bumpStat RDMA.CNP_RX (engOf qpn)

def execCnpRx (qpn : BitVec 24) (s : State) : Host.Outcome State Fault Refusal := ok (cnp qpn.toNat s)

/-- A timer row of a QP: it acts when the event is pending, at its deadline. -/
def qpTimer (kind : Nat) (act : State → Nat → State) (qpn : Nat) (s : State) : State :=
  match s.anyEvent blkRDMA kind qpn with
  | some (n, e) => act (s.fireEvent n e) qpn
  | none => s

def execRetransmitTimerFire (qpn : BitVec 24) (s : State) : Host.Outcome State Fault Refusal :=
  ok (qpTimer 1 (fun s n => retxFire s n false) qpn.toNat s)

def execRnrWaitExpiry (qpn : BitVec 24) (s : State) : Host.Outcome State Fault Refusal := ok (qpTimer 2 rnrFire qpn.toNat s)

def execRdmaTimerRetry (qpn : BitVec 24) (s : State) : Host.Outcome State Fault Refusal := ok (timerAgain qpn.toNat s)

def execHostAtomicCompletion (qpn psn : BitVec 24) (reply : Option Dword) (s : State) : Host.Outcome State Fault Refusal :=
  ok (hostAtomic qpn.toNat psn.toNat reply s)

end Sys2Proof.Machine
end

