-- ==== Sys2Proof/Machine/Tenants.lean ====
section
/-! DEFINITION. Tenants, owners of functions, meter banks, policers, the minute seal and the slice ring (R359 to R377). -/

namespace Sys2Proof.Machine

/-! ## Owners and functions (R358, R359, R375) -/

/-- A function a port presents or will present at its next fresh start (R80, R89, R92, R104); a Control Function has no
owner (R359). -/
def funcKnown (s : State) (port sel : Nat) : Bool :=
  let a := (hportOf s port).next
  let c := s.rd HPORT.FUNC_CTRL port
  portUsed s port && ((funcPresent s port sel && sel != 2) || sel == 0 || (sel == 1 && bit c 0) ||
    (0x400 ≤ sel && sel < 0x400 + a.n0 && sel < 0x800) || (0x800 ≤ sel && sel < 0x800 + a.n1))

/-- The function has a queue, an event ring, a QP or a controller, or drains (R359, R374). -/
def funcBusy (s : State) (port sel : Nat) : Bool :=
  let f := fkey port sel
  s.queues.any (fun q => q.1 < 2 ^ 32 && q.1 / 4096 == f) || s.rings.any (fun r => r.1 / 16 == f) ||
    s.qps.any (fun q => qb q.2.attr 0 18 12 == port && qb q.2.attr 0 11 0 == sel) ||
    s.ctls.any (fun c => c.2.port == port && c.2.sel == sel) || s.drains.any (fun d => d.port == port && d.sel == sel)

/-- The functions assigned to an owner. -/
def assigned (s : State) (x : Nat) : Nat := (s.funcs.filter (fun f => f.2.owner == x)).length

def cmdFuncAssign (c : CmdCtx) (s : State) : CmdRes :=
  let refuse := fun (code : Nat) => CmdRes.fail (s.bumpErr blkTENANT 0 1) code
  ckArgs c s 0x0FFF007F 0x80000FFF <|
    let port := c.a0 % 128
    let sel := bits c.a0 27 16
    let x := ownerIx (c.a1 % 4096) (bit c.a1 31)
    if funcBusy s port sel then refuse 0x42
    else if tenantState s x ≠ 1 then refuse 0x43
    else if !funcKnown s port sel then refuse 0x44
    else .done (setFunc s port sel { funcOf s port sel with owner := x })

def cmdFuncQuery (c : CmdCtx) (s : State) : CmdRes :=
  ckArgs c s 0x0FFF007F anyArg <| .data s [dw (ownerVal (funcOwner s (c.a0 % 128) (bits c.a0 27 16)))]

/-! ## Tenant states (R361, R375) -/

def cmdTenantOpen (c : CmdCtx) (s : State) : CmdRes :=
  ckArgs c s 0xFFF anyArg <|
    if tenantState s c.a0 ≠ 0 then .fail s 0x40
    else .done { clearCounters s c.a0 with tenants := Tbl.put s.tenants c.a0 { state := 1 } }

/-- A FLUSH_TENANT that closing issues to a page of HTBL, TCAM or FLOW is a table command: it is mirrored (R389). -/
def mirrorFlush (s : State) (blk inst table x : Nat) : State :=
  mirrorRec s 0x03 ([dw (blk + inst * 2 ^ 8 + 8 * 2 ^ 24), dw ((table + x * 2 ^ 16) * 2 ^ 32)] ++ padQ [] 8)

/-- The FLUSH_TENANTs of R361. -/
def flushAll (s : State) (x : Nat) : State :=
  let s := fragFlush s x
  let s := { s with tables := s.tables.filter (fun t => !(t.2.owner == x && t.1 / 2 ^ 40 != 7)),
                    learnQ := s.learnQ.filter (fun r => r.owner != x) }
  let s := (List.range 64).foldl (fun (s : State) (i : Nat) => mirrorFlush s blkHTBL i 4 x) s
  let s := [1, 2, 3, 9].foldl (fun (s : State) (t : Nat) => mirrorFlush s blkHTBL 0 t x) s
  let s := mirrorFlush (mirrorFlush (mirrorFlush s blkTCAM 0 5 x) blkTCAM 0 6 x) blkFLOW 0 7 x
  let s := if s.flushing.contains x then s
    else if s.flushing.length < 16 then { s with flushing := s.flushing ++ [x] }
    else { s with tenants := Tbl.upd s.tenants x (fun t => { t with flowDue := true }) }
  flushItemsOf s x

def cmdTenantClose (c : CmdCtx) (s : State) : CmdRes :=
  ckArgs c s 0xFFF anyArg <|
    let x := c.a0
    if tenantState s x = 1 ∧ (assigned s x ≠ 0 ∨ s.ctxs.any (fun h => h.2.owner == x)) then .fail s 0x41
    else if tenantState s x ≠ 1 then .fail s 0x43
    else .later (flushAll { s with tenants := Tbl.upd s.tenants x (fun t => { t with state := 2 }) } x)

def cmdTenantQuery (c : CmdCtx) (s : State) : CmdRes :=
  ckArgs c s 0xFFF anyArg <| .data s [dw (tenantState s c.a0 + assigned s c.a0 * 2 ^ 32)]

def execTenantOpen (c : CmdIn) (s : State) : Host.Outcome State Fault Refusal := ok (pageCommand blkTENANT 0x01 cmdTenantOpen c s)
def execTenantClose (c : CmdIn) (s : State) : Host.Outcome State Fault Refusal := ok (pageCommand blkTENANT 0x02 cmdTenantClose c s)
def execTenantQuery (c : CmdIn) (s : State) : Host.Outcome State Fault Refusal := ok (pageCommand blkTENANT 0x03 cmdTenantQuery c s)
def execFuncAssign (c : CmdIn) (s : State) : Host.Outcome State Fault Refusal := ok (pageCommand blkTENANT 0x04 cmdFuncAssign c s)
def execFuncQuery (c : CmdIn) (s : State) : Host.Outcome State Fault Refusal := ok (pageCommand blkTENANT 0x05 cmdFuncQuery c s)

/-! ## Meters and policers (R365 to R367, R376) -/

def execCombiningFlush (tile : Fin 32) (s : State) : Host.Outcome State Fault Refusal := ok (flushComb s tile.val)

def cmdMtrRead (c : CmdCtx) (s : State) : CmdRes :=
  ckArgs c s 0x80000FFF 0x13F <|
    let x := ownerIx (c.a0 % 4096) (bit c.a0 31)
    .data s (if 40 ≤ c.a1 % 64 then [0] else s.memGetQ (counterAddr s (bits c.a1 8 8) x (c.a1 % 64)) 1)

def cmdPolRead (c : CmdCtx) (s : State) : CmdRes :=
  ckArgs c s 0xFFFF anyArg <|
    if c.a0 / 2048 ≠ c.inst then .fail s 0x40
    else
      let t := Tbl.getD s.met.pol c.a0 ((0, 0) : Nat × Nat)
      .data s [dw t.1, dw t.2]

def execMtrRead (c : CmdIn) (s : State) : Host.Outcome State Fault Refusal := ok (pageCommand blkMETER 0x01 cmdMtrRead c s)
def execPolRead (c : CmdIn) (s : State) : Host.Outcome State Fault Refusal := ok (pageCommand blkMETER 0x02 cmdPolRead c s)

/-- One policer is refilled: RATE for each whole µs since its last refill, up to the bucket (R367). -/
def refillOne (s : State) (i : Nat) (t : Nat × Nat) : Nat × Nat :=
  match (entryAt s 9 i).filter (fun e => bit (qw e.data 1) 13 && e.live) with
  | none => t
  | some e =>
    let us := (s.ns - t.2) / 1000
    (min (256 * qb e.data 0 63 32) (t.1 + qb e.data 0 31 0 * us), t.2 + 1000 * us)

/-- The next refill deadline of an instance. -/
def scheduleRefill (s : State) (p at_ : Nat) : State :=
  match s.schedule (32 + p) at_ blkMETER 1 0 with
  | (s, true) => { s with met := { s.met with refillRetry := Tbl.del s.met.refillRetry p } }
  | (s, false) => { s.bumpErr blkMETER p 1 with met := { s.met with refillRetry := Tbl.put s.met.refillRetry p (s.ns + 1000) } }

/-- The refill deadline fires: the policers of the instance are refilled, the next deadline follows. -/
def refillFire (s : State) (p deadline : Nat) (stepped : Bool) : State :=
  let pol := Tbl.mapV s.met.pol (fun i t => if i / 2048 = p then refillOne s i t else t)
  scheduleRefill { s with met := { s.met with pol := pol } } p (if stepped then s.ns + 1000 else deadline + 1000)

/-- R367: the first deadline is the row itself (log 24). -/
def refillRow (p : Nat) (s : State) : State :=
  match s.pendingEvent (32 + p) blkMETER 1 0 with
  | some e => refillFire (s.fireEvent (32 + p) e) p e.deadline false
  | none => if (Tbl.get? s.met.refillRetry p).isSome then s else refillFire s p s.ns false

/-- R367: a refused schedule is tried again. -/
def refillAgain (p : Nat) (s : State) : State :=
  match Tbl.get? s.met.refillRetry p with
  | none => s
  | some t => let s := s.reach t; scheduleRefill s p s.ns

def execPolicerRefill (tile : Fin 32) (s : State) : Host.Outcome State Fault Refusal := ok (refillRow tile.val s)
def execPolicerRefillRetry (tile : Fin 32) (s : State) : Host.Outcome State Fault Refusal := ok (refillAgain tile.val s)

/-! ## The minute seal (R368 to R373) -/

/-- The entries of a bank leave every combining buffer. -/
def flushBank (s : State) (bank : Nat) : State :=
  let es := s.met.comb.flatMap (fun c => c.2.filter (fun e => e.1 / 64 / 4097 == bank))
  let s := es.foldl (fun (s : State) (e : Nat × Nat) => addCounter s e.1 e.2) s
  { s with met := { s.met with comb := Tbl.mapV s.met.comb (fun _ es => es.filter (fun e => decide (e.1 / 64 / 4097 ≠ bank))) } }

/-- A bank of counters reads 0. -/
def clearBank (s : State) (bank : Nat) : State :=
  let lo := counterAddr s bank 0 0
  { s with mem := s.mem.filter (fun c => !(lo ≤ c.1 && c.1 < lo + 512 * 4097)) }

/-- A digest as 48 bytes, and as six qwords. -/
def digestBytes (h : BitVec 384) : List Byte := leBytes 48 h.toNat
def digestQws (h : BitVec 384) : List Dword := bytesQw (digestBytes h) 6

/-- PREV_HASH of the first record of a chain (R371, R373). -/
def genesis (s : State) (ownerValue : Nat) : BitVec 384 :=
  Config.sha384 (leBytes 8 s.met.chainId.toNat ++ leBytes 8 ownerValue)

/-- FLAGS of a record (R372), but for UNSIGNED. -/
def sealFlags (s : State) (d : SealDue) (folded first final : Bool) (carried : Nat) : Nat :=
  b2n d.trace + 2 * b2n d.stepped + 4 * b2n s.met.takeover + 8 * b2n folded + 16 * b2n first + 32 * b2n final +
    64 * b2n (carried != 0)

/-- Qwords 0 to 5 of a record. -/
def sealHead (s : State) (d : SealDue) (kind ownerValue flags carried seq : Nat) : List Dword :=
  [dw (1 + kind * 2 ^ 8 + ownerValue * 2 ^ 16 + flags * 2 ^ 32 + carried * 2 ^ 48), dw (unsigned 64 d.minute), dw d.boundary, dw seq,
   s.met.chainId, s.stamp]

/-- The slice of an owner (R371); that of a skipped minute is all zero (R374). -/
def sliceOf (s : State) (d : SealDue) (x carried : Nat) : List Dword :=
  let t : Tenant := Tbl.getD s.tenants x {}
  sealHead s d 1 (ownerVal x) (sealFlags s d t.folded t.first (d.closing.contains x && t.state == 2) carried) carried t.seq ++
    digestQws (if t.first then genesis s (ownerVal x) else t.prev) ++ [0, 0, 0, 0] ++
    (if d.skipped then List.replicate 64 0 else s.memGetQ (counterAddr s (bankOf d.minute) x 0) 64)

/-- What a sealed minute leaves with an owner: the chain goes on; a tenant that was CLOSING is FREE. -/
def afterSlice (s : State) (d : SealDue) (p : Nat × List Dword) : State :=
  let t : Tenant := Tbl.getD s.tenants p.1 {}
  let s := { s with tenants := Tbl.put s.tenants p.1 { t with first := false, seq := t.seq + 1, folded := false,
                                                              prev := Config.sha384 (qwBytes p.2) } }
  if d.closing.contains p.1 && t.state == 2 then tenantFree s p.1 else s

/-- The owners that take a slice, ascending: ACTIVE and CLOSING tenants, and the provider. -/
def slicedOwners (s : State) : List Nat := ((s.tenants.filter (fun t => t.1 < 4096 && t.2.state != 0)).map Prod.fst) ++ [4096]

/-- R368 step 2, R370: a minute whose grace has passed is sealed, or carried when no staging slot is free. -/
def sealMinute (d : SealDue) (s : State) : State :=
  let bank := bankOf d.minute
  let s := s.reach (d.boundary + s.rd SLICE.SEAL_GRACE * 1000)
  let s := flushBank { s with met := { s.met with due := s.met.due.drop 1, graceOver := some d.minute } } bank
  if s.rd SLICE.STAGE_MINUTES ≤ s.met.staged.length then
    let s := ((s.bumpStat SLICE.CARRIED 0).bumpErr blkSLICE 0 0).istat blkSLICE 0 1
    { s with met := { s.met with carried := Tbl.put s.met.carried bank (Tbl.getD s.met.carried bank 0 + 1) } }
  else
    let carried := if d.skipped then 0 else Tbl.getD s.met.carried bank 0
    let slices := (slicedOwners s).map (fun x => (x, sliceOf s d x carried))
    let digest := Config.sha384 (slices.flatMap (fun p => digestBytes (Config.sha384 (qwBytes p.2))))
    let first := s.met.sealSeq == 0
    let rcd := sealHead s d 2 0x1000 (sealFlags s d false first false carried) carried s.met.sealSeq ++ [0, 0, 0, 0, 0, 0] ++
      digestQws digest ++ [dw slices.length]
    let s := slices.foldl (fun s p => afterSlice s d p) s
    let s := if d.skipped then s else clearBank s bank
    { s with met := { s.met with staged := s.met.staged ++ [{ minute := d.minute, slices := slices, sealRec := padQ rcd 80 }],
                                 sealSeq := s.met.sealSeq + 1, takeover := false, carried := if d.skipped then s.met.carried else Tbl.del s.met.carried bank } }

/-! ## Signing and the slice ring (R368, R370, R373, R377, R392) -/

/-- The index the next record takes: records written that wait for mirroring come first. -/
def ringNext (s : State) : Nat :=
  (s.rd SLICE.RING_PROD + (s.twin.waiting.filter (fun w => w.ringProd.isSome)).length) % 2 ^ 32

/-- A free place in the slice ring. -/
def ringRoom (s : State) : Bool :=
  decide ((ringNext s + 2 ^ 32 - s.rd SLICE.RING_CONS) % 2 ^ 32 < 2 ^ (s.rd SLICE.RING_LOG2 % 32))

/-- Write a record to the ring: RING_PROD passes it at once, or while the pair is PAIRED once its SLICE records are
acknowledged (R390, R392). -/
def writeRecord (s : State) (rcd : List Dword) : State :=
  let n := ringNext s
  let s := s.memPutQ (s.rd64 SLICE.RING_BASE + 640 * (n % 2 ^ (s.rd SLICE.RING_LOG2 % 32))) rcd
  let s := (List.range 4).foldl (fun (s : State) (k : Nat) =>
    mirrorRec s 0x06 (dw (n + k * 2 ^ 32) :: (rcd.drop (20 * k)).take 20) (k != 3)) s
  if pairState s = 3 then
    setTwin s (fun t => { t with waiting := t.waiting ++ [{ mseq := t.mseqTx, ringProd := some ((n + 1) % 2 ^ 32), since := s.ns }] })
  else s.wr SLICE.RING_PROD 0 (n + 1)

/-- Signed minutes are copied out in order while the ring has room. -/
def copyOut : Nat → State → State
  | 0, s => s
  | f + 1, s =>
    match s.met.staged with
    | [] => s
    | m :: rest =>
      if !m.signed then s
      else if !ringRoom s then s.istat blkSLICE 0 2
      else
        match m.slices with
        | p :: more =>
          copyOut f ((writeRecord { s with met := { s.met with staged := { m with slices := more } :: rest } } p.2).bumpStat SLICE.SLICES 0)
        | [] =>
          let s := writeRecord { s with met := { s.met with staged := rest } } m.sealRec
          copyOut f ((s.wr64 SLICE.LAST_MINUTE 0 (unsigned 64 m.minute)).istat blkSLICE 0 0)

/-- Copy out all there is room for. -/
def copyAll (s : State) : State := copyOut ((s.met.staged.map (fun m => m.slices.length + 1)).sum + 1) s

/-- Bytes 0 to 511 of a seal record, with PREV_HASH and the flags it ends with. -/
def sealBody (s : State) (m : Staged) (unsigned_ : Bool) : List Dword :=
  let prev := if bit (qw m.sealRec 0) 36 then genesis s 0x1FFF else s.met.sealPrev
  [dw (qw m.sealRec 0 + (if unsigned_ then 2 ^ 39 else 0))] ++ (m.sealRec.drop 1).take 5 ++ digestQws prev ++ (m.sealRec.drop 12).take 52

/-- The oldest minute not signed takes its signature, or goes without one (R372, R373). -/
def finishSeal (sig : Option (BitVec 384 × BitVec 384)) (s : State) : State :=
  match s.met.staged.findIdx? (fun m => !m.signed) with
  | none => s
  | some i =>
    let m : Staged := s.met.staged.getD i { minute := 0, slices := [], sealRec := [] }
    let body := sealBody s m sig.isNone
    let rs := match sig with | some (r, t) => beBytes 48 r.toNat ++ beBytes 48 t.toNat | none => List.replicate 96 0
    let keyId := (digestBytes (Config.sha384 Config.attestPub)).take 16
    let rcd := body ++ bytesQw (rs ++ keyId ++ List.replicate 16 0) 16
    copyAll { s with met := { s.met with staged := listSet s.met.staged i { m with sealRec := rcd, signed := true },
                                         sealPrev := Config.sha384 (qwBytes body) } }

/-- R372: Daxlia has not signed within 50 ms of step 2. -/
def signLate (s : State) : State :=
  match s.met.staged.find? (fun m => !m.signed) with
  | none => s
  | some m => finishSeal none (((s.reach (qw m.sealRec 5 + 50000000)).bumpErr blkSLICE 0 1).istat blkSLICE 0 3)

/-- R377: a write of RING_CONS. -/
def ringCons (value : Word) (s : State) : State :=
  let cons := s.rd SLICE.RING_CONS
  let prod := s.rd SLICE.RING_PROD
  if (prod + 2 ^ 32 - cons) % 2 ^ 32 < (value.toNat + 2 ^ 32 - cons) % 2 ^ 32 then s.bumpErr blkSLICE 0 3
  else copyAll (s.wr SLICE.RING_CONS 0 value.toNat)

def execSealGraceExpiry (s : State) : Host.Outcome State Fault Refusal :=
  ok (match s.met.due with
    | [] => s
    | d :: _ => sealMinute d s)
/-- Daxlia signs; after an unlock it has no attestation key, and seals stay unsigned (R420). -/
def signSeal (r t : BitVec 384) (s : State) : State := if s.dax.debug then s else finishSeal (some (r, t)) s

def execSealSigned (r s_ : BitVec 384) (s : State) : Host.Outcome State Fault Refusal := ok (signSeal r s_ s)
def execSignTimeout (s : State) : Host.Outcome State Fault Refusal := ok (signLate s)
def execRingConsWrite (who : Requester) (value : Word) (s : State) : Host.Outcome State Fault Refusal :=
  ok (pageWrite who blkSLICE 0 (ringCons value) s)

end Sys2Proof.Machine
end

