-- ==== Sys2Proof/Machine/Windows.lean ====
section
/-! DEFINITION. Rack windows: the shadow and active tables, epochs, BAR4 requests, violations (R100 to R103, R105). -/

namespace Sys2Proof.Machine

def winOf (s : State) (i : Nat) : WinUnit := Tbl.getD s.windows i {}
def setWin (s : State) (i : Nat) (w : WinUnit) : State := { s with windows := Tbl.put s.windows i w }

def winValid (e : List Dword) : Bool := bit (qw e 0) 63
def winSrc (e : List Dword) : Nat := qb e 0 46 40
def winStart (e : List Dword) : Nat := qb e 0 23 0 * 4096
def winBytes (e : List Dword) : Nat := qb e 1 24 0 * 4096
def winOwner (e : List Dword) : Nat := ownerIx (qb e 0 59 48) (bit (qw e 0) 60)
def winTarget (e : List Dword) : Nat := qb e 3 6 0

/-- COMMIT_STAT.BUSY: a TLP of an epoch older than the current one has not completed. -/
def WinUnit.busy (w : WinUnit) : Bool := decide (1 < w.epochs.length)

/-- Epochs older than the current one stay live while a TLP of theirs has not completed; BUSY falling raises PG_ISTAT
bit 0. -/
def settleWin (s : State) (i : Nat) : State :=
  let w := winOf s i
  let keep := w.epochs.take 1 ++ (w.epochs.drop 1).filter (fun e => w.tlps.any (fun t => t.epoch == e.1))
  let s := setWin s i { w with epochs := keep }
  if w.busy && keep.length ≤ 1 then s.istat blkWINDOW i 0 else s

/-- The valid window of a source port that covers an aperture offset: its number within the unit and its entry. -/
def winAt (table : Tbl (List Dword)) (port a : Nat) : Option (Nat × List Dword) :=
  table.find? (fun e => winValid e.2 && winSrc e.2 == port && decide (winStart e.2 ≤ a) && decide (a < winStart e.2 + winBytes e.2))

/-- A violation (R103, R105): VIOL_INFO, VIOL_ADDR, the event to the owner's event ring on the source port, the lowest
one of its functions there, and the provider's fault record. -/
def violation (s : State) (i port a cause : Nat) (win : Option (Nat × List Dword)) : State :=
  let n := (win.map (fun w => w.1)).getD 0
  let s := (s.wr WINDOW.VIOL_INFO i (port + n * 2 ^ 8 + cause * 2 ^ 16)).wr64 WINDOW.VIOL_ADDR i a
  let s := s.istat blkWINDOW i 1
  let s := match win with
    | some (n, e) =>
      if winOwner e = 4096 then s
      else
        match s.rings.find? (fun r => r.1 / 65536 == port && funcOwner s port (r.1 / 16 % 4096) == winOwner e) with
        | some (k, _) => postEvent s k ⟨3, 0xFFF, n, cause, 1, s.ns⟩
        | none => s
    | none => s
  raiseFault s 0x00E (w32 cause) (BitVec.ofNat 16 n)

/-- The target port can take a forwarded request. -/
def targetReady (s : State) (p : Nat) : Bool :=
  portUsed s p && (hportOf s p).quar == 1 && s.stateOf blkHPORT p == 4

/-- A request that its epoch's mapping cannot serve: Unsupported Request, counted in PG_ERRCNT n. -/
def refuseTlp (s : State) (i port a n cause : Nat) (win : Option (Nat × List Dword)) (read : Bool) : State :=
  unsupported (violation (s.bumpErr blkWINDOW i n) i port a cause win) port 0 read

/-- A TLP of a window is forwarded with its Relaxed Ordering, split as the target allows (R98, R100 to R102), charged to the window's owner (R364). -/
def forwardTlp (s : State) (i port a len : Nat) (e : List Dword) (write : Option (List Byte)) (ro : Bool) : State :=
  let dst := (qb e 2 63 12 * 4096 + (a - winStart e)) % 2 ^ 64
  let t := winTarget e
  let s := s.bumpStat WINDOW.FWD i
  let m := pipeOfPort s port
  let s := charge (charge s m (winOwner e) 35 len s.ns) m (winOwner e) 36 1 s.ns
  match write with
  | some bs => s.hostWrites t 0 dst bs ro
  | none =>
    let w := winOf s i
    let tlp : WinTlp := { id := w.nextId, epoch := (w.epochs.headD (0, [])).1, src := port, write := false }
    (setWin s i { w with tlps := w.tlps ++ [tlp], nextId := w.nextId + 1 }).hostReads t 0 7 dst len ro

/-- R101, R103: a BAR4 request of PF0 of a source port. A write completes as its forwarded TLP leaves. -/
def windowTlp (port a len : Nat) (write : Option (List Byte)) (ro : Bool) (s : State) : State :=
  let i := port / 8
  let h := hportOf s port
  let w := winOf s i
  let len := match write with | some bs => bs.length | none => len
  let read := write.isNone
  if !funcLive s port 0 || h.bar4 = 0 || 2 ^ h.bar4 ≤ a || !accepts s blkWINDOW i then unsupported s port 0 read
  else
    match winAt (w.epochs.headD (0, [])).2 port a with
    | none =>
      match (w.epochs.drop 1).findSome? (fun e => winAt e.2 port a) with
      | some x => refuseTlp s i port a 4 4 (some x) read
      | none => refuseTlp s i port a 0 1 none read
    | some (n, e) =>
      if winStart e + winBytes e < a + len then refuseTlp s i port a 3 3 (some (n, e)) read
      else if !bit (qw e 0) (if read then 62 else 61) then refuseTlp s i port a 2 2 (some (n, e)) read
      else if !targetReady s (winTarget e) then
        let s := s.bumpErr blkWINDOW i 1
        let s := (s.wr WINDOW.VIOL_INFO i (port + n * 2 ^ 8 + 5 * 2 ^ 16)).wr64 WINDOW.VIOL_ADDR i a
        let s := raiseFault (s.istat blkWINDOW i 1) 0x00E 5 (BitVec.ofNat 16 n)
        if read then s.emit (.completion port 2 []) else s
      else forwardTlp s i port a len e write ro

def execWindowTlpRx (port : Fin 128) (addr : Dword) (len : Nat) (write : Option (List Byte)) (ro : Bool)
    (s : State) : Host.Outcome State Fault Refusal :=
  ok (windowTlp port.val addr.toNat len write ro s)

/-- R101, R103: a forwarded read completes, or times out or fails. -/
def windowReply (i id : Nat) (reply : ReadEnd) (s : State) : State :=
  let w := winOf s i
  match w.tlps.find? (fun t => t.id == id) with
  | none => s
  | some t =>
    let s := setWin s i { w with tlps := w.tlps.erase t }
    let s := match reply with
      | .data bs => s.emit (.completion t.src 0 bs)
      | _ => (s.bumpErr blkWINDOW i 1).emit (.completion t.src 2 [])
    settleWin s i

def execWindowTargetCompletion (inst : Fin 16) (tlp : Nat) (reply : ReadEnd) (s : State) : Host.Outcome State Fault Refusal :=
  ok (windowReply inst.val tlp reply s)

/-- A source port is reset or removed (R103): the returns of its reads are discarded. -/
def dropWindowReads (s : State) (port : Nat) : State :=
  let w := winOf s (port / 8)
  settleWin (setWin s (port / 8) { w with tlps := w.tlps.filter (fun t => t.src != port) }) (port / 8)

/-! ## Commands (R101, R102, R105) -/

def cmdWinWrite (c : CmdCtx) (s : State) : CmdRes :=
  ckArgs c s 0xFF anyArg <|
    if qwRsvd c.d [0xFFFF7F0000FFFFFF, 0x1FFFFFF, 0xFFFFFFFFFFFFF000, 0x7F] then .fail s 0x03
    else if winSrc c.d / 8 ≠ c.inst ∨ (winValid c.d ∧ (qb c.d 1 24 0 = 0 ∨ 0x1000000 < qb c.d 1 24 0)) then .fail s 0x02
    else
      let w := winOf s c.inst
      .done (setWin s c.inst { w with shadow := Tbl.put w.shadow c.a0 (padQ c.d 4) })

def cmdWinRead (c : CmdCtx) (s : State) : CmdRes :=
  ckArgs c s 0xFF 0x1 <|
    let w := winOf s c.inst
    .data s (padQ (Tbl.getD (if c.a1 = 0 then w.shadow else (w.epochs.headD (0, [])).2) c.a0 []) 4)

/-- Two windows of one source port overlap in aperture. -/
def winOverlap (x y : List Dword) : Bool :=
  winValid x && winValid y && winSrc x == winSrc y && decide (winStart x < winStart y + winBytes y) &&
    decide (winStart y < winStart x + winBytes x)

/-- A shadow table is refused (R102), the lowest code first (R470). -/
def commitBad (s : State) (w : WinUnit) : Nat :=
  let vs := (w.shadow.filter (fun e => winValid e.2)).map Prod.snd
  let size := fun (p : Nat) => let z := s.rd HPORT.BAR4_SIZE p % 64; if z = 0 then 0 else 2 ^ z
  if (w.shadow.any (fun x => w.shadow.any (fun y => decide (x.1 < y.1) && winOverlap x.2 y.2))) then 0x4C
  else if 4 ≤ ((w.epochs.map Prod.fst).filter (fun e => w.tlps.any (fun t => t.epoch == e))).length then 0x4D
  else if vs.any (fun e => decide (size (winSrc e) < winStart e + winBytes e)) then 0x4E
  else if vs.any (fun e => !portUsed s (winTarget e) || decide (2 ^ 64 < qb e 2 63 12 * 4096 + winBytes e)) then 0x4F
  else 0

def cmdWindowCommit (c : CmdCtx) (s : State) : CmdRes :=
  ckArgs c s anyArg anyArg <|
    let w := winOf s c.inst
    match commitBad s w with
    | 0 =>
      let next := ((w.epochs.headD (0, [])).1 + 1) % 65536
      let s := setWin s c.inst { w with epochs := (next, w.shadow) :: w.epochs }
      let w := winOf s c.inst
      let keep := w.epochs.take 1 ++ (w.epochs.drop 1).filter (fun e => w.tlps.any (fun t => t.epoch == e.1))
      .done (setWin s c.inst { w with epochs := keep })
    | code => .fail s code

def execWinWrite (c : CmdIn) (s : State) : Host.Outcome State Fault Refusal := ok (pageCommand blkWINDOW 0x01 cmdWinWrite c s)
def execWinRead (c : CmdIn) (s : State) : Host.Outcome State Fault Refusal := ok (pageCommand blkWINDOW 0x02 cmdWinRead c s)
def execWindowCommit (c : CmdIn) (s : State) : Host.Outcome State Fault Refusal := ok (pageCommand blkWINDOW 0x03 cmdWindowCommit c s)

end Sys2Proof.Machine
end

