-- ==== Sys2Proof/Machine/Hosts.lean ====
section
/-! DEFINITION. Host ports: presence, removal and quarantine, attachment, resets of functions and ports, the drain
(R75 to R81, R94 to R96, R266, R362, R363). -/

namespace Sys2Proof.Machine

/-! ## Octets and links of a host port (R74, R75, R77) -/

/-- The octets of a host port: two for an x16 port. -/
def octetsOfHost (s : State) (p : Nat) : List Nat :=
  let o := octetOfPort p
  if hsplitOf s o = 2 then [o, o + 1] else [o]

/-- An octet takes a state (R74): PG_ISTAT bit 4 when it changes. -/
def setOct (s : State) (o st : Nat) : State :=
  if s.stateOf blkOCTET o = st then s else (s.setState blkOCTET o st).istat blkOCTET o 4

/-- A port of an octet comes up, or goes down; the first and the last move the octet (R74). -/
def octPortUp (s : State) (o k : Nat) : State :=
  let s := { s with octUp := Tbl.put s.octUp o (setAdd (Tbl.getD s.octUp o []) k) }
  if s.stateOf blkOCTET o = 3 then setOct s o 4 else s
def octPortDown (s : State) (o k : Nat) : State :=
  let s := { s with octUp := Tbl.put s.octUp o (setDel (Tbl.getD s.octUp o []) k) }
  if s.stateOf blkOCTET o = 4 ∧ Tbl.getD s.octUp o [] = [] then setOct s o 3 else s

/-- Every octet of a port is TRAINING or UP. -/
def octetsReady (s : State) (p : Nat) : Bool := (octetsOfHost s p).all (fun o => decide (3 ≤ s.stateOf blkOCTET o))

/-- HPRSNT_N and PERST_N serve the port: x8, or the lower octet of an x16 pair (R77). -/
def pinServed (s : State) (p : Nat) : Bool := portUsed s p && hsplitOf s (octetOfPort p) != 1

/-- The port that an octet's pins serve. -/
def pinPort (s : State) (o : Nat) : Option Nat :=
  if persOf s o = 1 ∧ (hsplitOf s o = 0 ∨ hsplitOf s o = 2) then some (portOfOctet o 0) else none

/-- The pins of a port: HPRSNT_N low, PERST_N low. -/
def presentPin (s : State) (p : Nat) : Bool := s.pwr.hprsnt.contains (octetOfPort p)
def perstLow (s : State) (p : Nat) : Bool := pinServed s p && !s.pwr.perst.contains (octetOfPort p)

/-- The port may train: its octets are up, stage 2 has enabled its HPORT page, the device is not halted, and not FENCED when
the port is paired (R96, R393, R416). -/
def mayTrain (s : State) (p : Nat) : Bool :=
  s.enabled blkHPORT p && octetsReady s p && !s.flt.halt && !(pairState s == 5 && portPaired s p)

/-- Where a port without a link stands: under fundamental reset, training, or its link held down (R96). -/
def idlePort (s : State) (p : Nat) : Nat :=
  if (hportOf s p).inReset && perstLow s p then 5 else if mayTrain s p then 2 else 1

/-- A port's link comes up or goes down: PG_ISTAT bit 0 of HPORT, and its octets (R74, R104). -/
def hostLink (s : State) (p : Nat) (up : Bool) : State :=
  let h := hportOf s p
  if h.l0 = up then s
  else
    let s := (setHport s p { h with l0 := up }).istat blkHPORT p 0
    (octetsOfHost s p).foldl (fun (s : State) (o : Nat) => if up then octPortUp s o (p % 2) else octPortDown s o (p % 2)) s

/-! ## What a reset and a removal do to a function's work (R10, R79, R122, R126, R226, R275, R362) -/

/-- Completions that wait for mirroring and are not visible are discarded with the work (R10): of queues, event rings,
controllers and QPs that meet a condition. -/
def squashWaiting (s : State) (queue ring ctl qp : Nat → Bool) : State :=
  setTwin s (fun t => { t with waiting := t.waiting.map (fun (w : Waiting) =>
    let gone := (match w.cTo with | some (k, _) => queue k | none => false) || w.nv.any (fun x => ctl x.1)
    { w with outs := if gone then [] else w.outs, cTo := if gone then none else w.cTo,
             evs := w.evs.filter (fun e => !ring e.1), nv := w.nv.filter (fun x => !ctl x.1), rdma := w.rdma.filter (fun x => !qp x.1) }) })

/-- The queue, QP or controller belongs to a function. -/
def queueIn (port sel k : Nat) : Bool := decide (k < 2 ^ 32) && k / 4096 == fkey port sel
def qpIn (port sel : Nat) (q : Qp) : Bool := qb q.attr 0 18 12 == port && qb q.attr 0 11 0 == sel
def ctlIn (port sel : Nat) (c : NvCtl) : Bool := c.port == port && c.sel == sel

/-- Completions not visible of a function's work. -/
def squashFunc (s : State) (port sel : Nat) : State :=
  squashWaiting s (queueIn port sel) (fun r => r / 16 == fkey port sel)
    (fun i => match Tbl.get? s.ctls i with | some c => ctlIn port sel c | none => false)
    (fun n => match Tbl.get? s.qps n with | some q => qpIn port sel q | none => false)

/-- A Q_STOP that waits on a queue which leaves its state ends with BAD_STATE (R122). -/
def endStop (s : State) (k : Nat) (q : Queue) : State := if q.stopping then endWaiting s blkQMGR (queuePort k) 0x03 0x43 else s

/-- A reset of the owning function resets a queue (R122). -/
def resetQueue (s : State) (k : Nat) : State :=
  match Tbl.get? s.queues k with
  | none => s
  | some q =>
    if q.state = 0 ∨ q.state = 4 then s
    else
      let s := endStop (dropWaiting s k 0x09) k q
      let s := updCtx s q.handle (fun c => { c with bells := [] })
      touchQueue (setQueue s k { q.restart 0 0 true with state := 1, stopping := false, rxWait := [] }) k

/-- A removal quarantines a queue (R79, R122): C is kept. -/
def quarantineQueue (s : State) (k : Nat) : State :=
  match Tbl.get? s.queues k with
  | none => s
  | some q =>
    if q.state = 0 ∨ q.state = 4 then s
    else
      let s := endStop (dropWaiting s k 0x09) k q
      let s := setQueue s k { q.restart q.c q.d (q.state != 2) with prior := q.state, state := 4, stopping := false, rxWait := [] }
      quarantineCtx s q.handle

/-- A QP's deadlines and outstanding work go. -/
def stillQp (s : State) (n : Nat) : State :=
  updQp ((s.cancelAll blkRDMA 1 n).cancelAll blkRDMA 2 n) n (fun q =>
    { q with timer := none, timerRetry := false, rnrWait := none, attempts := [], reads := [], atoms := [], stalled := [] })

/-- A reset of the function puts a QP in ERROR without completions (R226); a backing behind it is lost (R290). -/
def resetQp (s : State) (n : Nat) (q : Qp) : State :=
  if q.state = 5 then s else backingQpError (touchQp (updQp (stillQp s n) n (fun q => { q with state := 4 })) n) n

/-- A removal quarantines a QP (R226, R248). -/
def quarantineQp (s : State) (n : Nat) (q : Qp) : State :=
  if q.state = 5 then s
  else
    let s := setQp s n (rewindQp s.queues n q)
    let s := updQp (stillQp s n) n (fun x => { x with prior := q.state, state := 5 })
    [0, 1, 2, 3].foldl (fun (s : State) (i : Nat) => quarantineCtx s (q.handle + i)) s

/-- Fetching of a controller's SQs starts again at SQHD (R279): commands in flight are discarded. -/
def refetch (s : State) (i : Nat) : State :=
  updCtl (nvDiscard s (fun x => x.ctl == i)) i (fun c => { c with sqs := Tbl.mapV c.sqs (fun _ (q : NvQ) => { q with fetch := q.head }) })

/-- A removal quarantines a controller (R275). -/
def quarantineCtl (s : State) (i : Nat) (c : NvCtl) : State :=
  if c.state = 5 then s
  else
    let s := refetch (s.cancelAll blkNVME 3 i) i
    let s := updCtl s i (fun x => { x with prior := c.state, state := if c.state = 4 then 4 else 5, coalAt := none })
    (c.sqs ++ c.cqs).foldl (fun (s : State) (q : Nat × NvQ) => quarantineCtx s q.2.handle) s

/-- An event ring survives a reset with EP, ER_CONS, ARMED and OVERRUN at their reset values, its backlog discarded (R126). -/
def resetRings (s : State) (port sel : Nat) : State :=
  { s with rings := Tbl.mapV s.rings (fun k (r : EvRing) => if k / 16 == fkey port sel then
      { r with ep := 0, cons := 0, armed := false, overrun := false, ovrDue := false, backlog := [] } else r) }

/-- Queued packet items whose descriptor cell names a vport of the function are discarded (R362 step 5). -/
def discardFuncItems (s : State) (port sel : Nat) : State :=
  discardItems s (fun i =>
    let cell := cellAddr (qb i 2 19 0)
    let word := fun (w : Nat) => leNat (Memory.readBytes s.mem (cell + 128 + 2 * (w - 64)) 2)
    let v := vportOf s port (word 80 % 1024)
    1 ≤ Item.type i && Item.type i ≤ 4 && bit (word 80) 12 && word 81 == port && vportValid v && vportFunc v == sel)

/-- Steps 1 to 6 of a drain (R362). -/
def drainSteps (s : State) (port sel : Nat) (removal : Bool) : State :=
  let queues := (s.queues.filter (fun q => queueIn port sel q.1)).map Prod.fst
  let qps := s.qps.filter (fun q => qpIn port sel q.2)
  let ctls := s.ctls.filter (fun c => ctlIn port sel c.2)
  let s := queues.foldl (fun (s : State) (k : Nat) =>
    match ((Tbl.get? s.queues k).map (readsOfQueue s)).getD 0 with
    | 0 => s
    | n => { s with lateReads := Tbl.put s.lateReads k (Tbl.getD s.lateReads k 0 + n) }) s
  let s := squashFunc s port sel
  let s := qps.foldl (fun (s : State) (q : Nat × Qp) => if removal then quarantineQp s q.1 q.2 else resetQp s q.1 q.2) s
  let s := ctls.foldl (fun (s : State) (c : Nat × NvCtl) => if removal then quarantineCtl s c.1 c.2 else ctlFlr s c.1) s
  let s := discardFuncItems s port sel
  let s := if !removal && sel == 0 then dropRegion s port else s
  let s := queues.foldl (fun (s : State) (k : Nat) => if removal then quarantineQueue s k else resetQueue s k) s
  if removal then s else resetRings s port sel

/-! ## The drain engine (R363) -/

def drainsRunning (s : State) : Nat := (s.drains.filter (fun d => d.running)).length

/-- A drain starts, or waits in arrival order while 256 run. -/
def beginDrain (s : State) (removal : Bool) (port sel : Nat) : State :=
  let s := setFunc s port sel { funcOf s port sel with draining := true, transPend := true }
  if s.drains.any (fun d => d.port == port && d.sel == sel && d.removal == removal) then s
  else
    let go := decide (drainsRunning s < 256)
    let s := { s with drains := s.drains ++ [({ port := port, sel := sel, removal := removal, start := s.ns, running := go } : Drain)] }
    if go then drainSteps s port sel removal else s

/-- A waiting drain starts when there is room. -/
def nextDrain (s : State) : State :=
  if 256 ≤ drainsRunning s then s
  else
    match s.drains.find? (fun (d : Drain) => !d.running) with
    | none => s
    | some d =>
      let s := { s with drains := s.drains.map (fun (x : Drain) => if x = d then { x with running := true } else x) }
      drainSteps s d.port d.sel d.removal

/-- Step 7: a drain of a function ends and is reported. -/
def endDrain (s : State) (port sel : Nat) : State :=
  match s.drains.find? (fun (d : Drain) => d.port == port && d.sel == sel) with
  | none => s
  | some d =>
    let s := if d.running then s else drainSteps s port sel d.removal
    let s := { s with drains := s.drains.erase d }
    let s := setFunc s port sel { funcOf s port sel with draining := false, transPend := false }
    let s := (s.istat blkTENANT 0 0).bumpStat TENANT.DRAINED 0
    nextDrain (s.raiseMax TENANT.DRAIN_MAX 0 ((s.ns - d.start) / 1000))

/-- R363: the writebacks of a drain are done; a drain that still waits has not begun. -/
def drainComplete (port sel : Nat) (s : State) : State :=
  if s.drains.any (fun d => d.port == port && d.sel == sel && d.running) then endDrain s port sel else s

/-! ## Function and port resets (R94, R95) -/

/-- A function's configuration space and BAR registers return to reset values; its owner stays (R94, R359). -/
def resetFunc (s : State) (port sel : Nat) : State :=
  let f := funcOf s port sel
  setFunc s port sel { owner := f.owner, inReset := f.inReset, draining := f.draining, transPend := f.transPend,
                       subsumed := f.subsumed, hbBaseLo := f.hbBaseLo, hbBaseHi := f.hbBaseHi, hbPages := f.hbPages, hbValid := f.hbValid }

/-- An FLR of a function starts (R94); an FLR of a VF that runs is subsumed in one of its PF (R95). -/
def startFlr (s : State) (port sel : Nat) : State :=
  let fs := flrScope s port sel
  let s := fs.foldl (fun (s : State) (f : Nat) =>
    setFunc s port f { funcOf s port f with inReset := true, subsumed := f != sel }) s
  let s := if sel = 2 then s else fs.foldl (fun (s : State) (f : Nat) => beginDrain s false port f) s
  fs.foldl (fun (s : State) (f : Nat) => resetFunc s port f) s

/-- An FLR of this very function runs, or one that covers it. -/
def flrRuns (s : State) (port sel : Nat) : Bool := (funcOf s port sel).inReset

/-- Functions leave reset. -/
def leaveReset (s : State) (port : Nat) (fs : List Nat) : State :=
  let s := fs.foldl (fun (s : State) (f : Nat) => endDrain s port f) s
  fs.foldl (fun (s : State) (f : Nat) =>
    setFunc s port f { funcOf s port f with inReset := false, subsumed := false, draining := false, transPend := false }) s

/-- A FUNC_RESET that waits for one of these functions ends (R94, R95). -/
def endFuncReset (s : State) (port : Nat) (fs : List Nat) (res : Nat) : State :=
  match waitingCmd s blkHPORT port 0x03 with
  | some r => if fs.contains (r.arg0.toNat % 4096) then endWaiting s blkHPORT port 0x03 res else s
  | none => s

/-- R94: a function reset completes: its drains have ended, the VFs of a PF are gone. -/
def flrComplete (port sel : Nat) (s : State) : State :=
  let f := funcOf s port sel
  let h := hportOf s port
  if !f.inReset || f.subsumed || h.inReset then s
  else
    let fs := flrScope s port sel
    let s := leaveReset s port fs
    let h := hportOf s port
    let s := setHport s port (if sel = 0 then { h with nvf0 := 0 } else if sel = 1 then { h with nvf1 := 0 } else h)
    endFuncReset ((s.istat blkHPORT port 3).bumpStat HPORT.FLR_COUNT port) port fs 0

/-- A fundamental or hot reset of a port starts (R94, R95, R266): FLRs are subsumed, every function drains. -/
def portReset (s : State) (port : Nat) : State :=
  let fs := funcsOf s port
  let s := setHport (s.istat blkHPORT port 1) port { hportOf s port with inReset := true }
  let s := fs.foldl (fun (s : State) (f : Nat) => setFunc s port f { funcOf s port f with inReset := true, subsumed := true }) s
  let s := dropWindowReads (dmaPortLost s port) port
  let s := (fs.filter (· != 2)).foldl (fun (s : State) (f : Nat) => beginDrain s false port f) s
  fs.foldl (fun (s : State) (f : Nat) => resetFunc s port f) s

/-- What the provider allocated is presented (R92, R93). -/
def present (s : State) (port : Nat) : State :=
  let h := hportOf s port
  setHport s port { h with shown := h.next, nvf0 := 0, nvf1 := 0 }

/-- R96: the functions of a port are ready. -/
def functionsReady (port : Nat) (s : State) : State :=
  let h := hportOf s port
  let st := s.stateOf blkHPORT port
  if h.quar ≠ 1 ∨ !h.l0 ∨ !mayTrain s port ∨ perstLow s port ∨ (st ≠ 3 ∧ ¬ (st = 5 ∧ h.inReset)) then s
  else
    let fs := funcsOf s port
    let s := if h.inReset then present (leaveReset s port fs) port else s
    let s := setHport s port { hportOf s port with inReset := false }
    endFuncReset ((s.setState blkHPORT port 4).istat blkHPORT port 2) port fs 0

/-! ## Removal (R78, R79) -/

/-- Schedule the quarantine expiry; refused, it is tried again after 1 ms (R79, R81). -/
def scheduleExpiry (s : State) (port deadline : Nat) : State :=
  match s.schedule (32 + port % 32) deadline blkOCTET 1 port with
  | (s, true) => setHport s port { hportOf s port with quarRetry := none }
  | (s, false) => setHport (s.bumpErr blkOCTET (octetOfPort port) 3) port { hportOf s port with quarRetry := some (deadline, s.ns + 1000000) }

/-- A host port is removed (R78 to R81, R95). -/
def removal (s : State) (port : Nat) : State :=
  let o := octetOfPort port
  let h := hportOf s port
  if h.quar ≠ 1 ∧ h.quar ≠ 3 then s
  else
    let s := hostLink s port false
    let s := (s.istat blkOCTET o 0).bumpErr blkOCTET o 1
    let s := setHport s port { hportOf s port with quar := 2, debounce := none, grace := none, inReset := false }
    let s := s.setState blkHPORT port (idlePort s port)
    if h.quar = 3 then s
    else
      let fs := presented h
      let s := endFuncReset s port fs 0x07
      let s := { s with drains := s.drains.filter (fun d => d.port != port) }
      let s := fs.foldl (fun (s : State) (f : Nat) =>
        setFunc s port f { funcOf s port f with inReset := false, subsumed := false, intxCause := 0 }) s
      let s := dmaPortLost s port
      let s := (fs.filter (· != 2)).foldl (fun (s : State) (f : Nat) => beginDrain s true port f) s
      let s := dropRegion s port
      scheduleExpiry (dropWindowReads s port) port (s.ns + s.rd OCTET.QUAR_TIME o * 1000000)

/-! ## Attachment (R80) -/

/-- Drains of a removal end before the port is attached again or purged. -/
def endDrains (s : State) (port : Nat) : State :=
  (s.drains.filter (fun d => d.port == port)).foldl (fun (s : State) (d : Drain) => endDrain s port d.sel) s

/-- The quarantined contexts go HOME (R264). -/
def unquarantine (s : State) (port : Nat) : State :=
  { s with ctxs := Tbl.mapV s.ctxs (fun _ c => if c.port == port && c.state == 5 then
      { c with state := 1, quar := false, dirty := false } else c) }

/-- The quarantined queues, QPs and controllers are restored (R80, R122, R248, R279). -/
def restore (s : State) (port : Nat) : State :=
  let s := unquarantine (endDrains s port) port
  let s := { s with
    queues := Tbl.mapV s.queues (fun k q => if k < 2 ^ 32 && queuePort k == port && q.state == 4 then
                { q with state := q.prior, d := q.c, u := q.c } else q),
    qps := Tbl.mapV s.qps (fun _ q => if qb q.attr 0 18 12 == port && q.state == 5 then { q with state := q.prior } else q) }
  { s with ctls := Tbl.mapV s.ctls (fun _ c => if c.port == port && c.state == 5 then { c with state := c.prior } else c) }

/-- The quarantined contexts are deleted, with their bench, store and host-backing space (R80, R122, R226, R275). -/
def purge (s : State) (port : Nat) : State :=
  let s := endDrains s port
  let queues := s.queues.filter (fun q => q.1 < 2 ^ 32 && queuePort q.1 == port && q.2.state == 4)
  let qps := s.qps.filter (fun q => qb q.2.attr 0 18 12 == port && q.2.state == 5)
  let ctls := s.ctls.filter (fun c => c.2.port == port && (c.2.state == 5 || c.2.state == 4))
  let s := queues.foldl (fun (s : State) (q : Nat × Queue) => freeHandle { s with queues := Tbl.del s.queues q.1 } q.2.handle) s
  let s := qps.foldl (fun (s : State) (q : Nat × Qp) =>
    [0, 1, 2, 3].foldl (fun (s : State) (i : Nat) => freeHandle s (q.2.handle + i)) { s with qps := Tbl.del s.qps q.1 }) s
  ctls.foldl (fun (s : State) (c : Nat × NvCtl) =>
    let s := (c.2.sqs ++ c.2.cqs).foldl (fun (s : State) (q : Nat × NvQ) => freeHandle s q.2.handle) s
    updCtl (ctlReset (setCtl s c.1 { c.2 with sqs := [], cqs := [], state := 0 }) c.1) c.1 (fun x => { x with state := if c.2.state = 4 then 4 else 0 })) s

/-- The functions of a port start fresh (R80, R92, R104). -/
def freshStart (s : State) (port : Nat) : State :=
  let w := s.rd HPORT.FUNC_CTRL port
  let s := present s port
  let s := setHport s port { hportOf s port with pf1 := bit w 0, cf := bits w 5 4, bar4 := s.rd HPORT.BAR4_SIZE port % 64 }
  let fs := ((s.funcs.map Prod.fst).filter (fun k => k / 4096 == port)).map (fun k => k % 4096)
  let s := fs.foldl (fun (s : State) (f : Nat) => setFunc s port f { owner := (funcOf s port f).owner }) s
  let s := ((s.queues.map Prod.fst).filter (fun k => k < 2 ^ 32 && queuePort k == port)).foldl resetQueue s
  let s := ((s.ctls.filter (fun c => c.2.port == port)).map Prod.fst).foldl ctlFlr s
  ((s.rings.map (fun r => r.1 / 16)).filter (fun k => k / 4096 == port)).foldl (fun (s : State) (k : Nat) => resetRings s port (k % 4096)) s

/-- Where an attached port goes next (R94, R96). -/
def bringUp (s : State) (port : Nat) : State :=
  let s := setHport s port { hportOf s port with inReset := perstLow s port }
  s.setState blkHPORT port (if (hportOf s port).l0 then 3 else idlePort s port)

/-- The pending expiry is cancelled. -/
def cancelExpiry (s : State) (port : Nat) : State :=
  setHport (s.cancelAll blkOCTET 1 port) port { hportOf s port with quarRetry := none }

/-- A host attaches (R80). -/
def attach (s : State) (port : Nat) : State :=
  let o := octetOfPort port
  let h := hportOf s port
  if s.flt.halt then s
  else
    match h.quar with
    | 0 => bringUp (freshStart (setHport s port { h with quar := 1 }) port) port
    | 2 =>
      if bit (s.rd OCTET.QUAR_CTRL o) 0 then
        let s := cancelExpiry s port
        bringUp (restore (setHport s port { hportOf s port with quar := 1 }) port) port
      else
        let s := setHport s port { h with quar := 3 }
        (s.setState blkHPORT port (if h.l0 then 3 else idlePort s port)).istat blkOCTET o 1
    | _ => s

/-- The quarantine expiry of a port fires (R80). -/
def quarFire (s : State) (port : Nat) : State :=
  let o := octetOfPort port
  let note := fun (s : State) => (s.bumpErr blkOCTET o 2).istat blkOCTET o 3
  match (hportOf s port).quar with
  | 2 =>
    let s := purge s port
    note (setHport s port { hportOf s port with quar := 0 })
  | 3 =>
    let s := purge s port
    note (bringUp (freshStart (setHport s port { hportOf s port with quar := 1 }) port) port)
  | _ => s

end Sys2Proof.Machine
end

