-- ==== Sys2Proof/Machine/HostRows.lean ====
section
/-! DEFINITION. The rows of host ports: pins, links, resets, configuration requests, allocations (R77 to R81, R88 to R99,
R104). -/

namespace Sys2Proof.Machine

/-! ## Presence (R77, R78, R81) -/

/-- HPRSNT_N of an octet takes a level; the list holds the octets whose pin is low (a host is there, R78). -/
def setHprsnt (s : State) (o : Nat) (level : Bool) : State :=
  { s with pwr := { s.pwr with hprsnt := if level then setDel s.pwr.hprsnt o else setAdd s.pwr.hprsnt o } }

/-- PERST_N of an octet takes a level; the list holds the octets whose pin is high (R77). -/
def setPerst (s : State) (o : Nat) (level : Bool) : State :=
  { s with pwr := { s.pwr with perst := if level then setAdd s.pwr.perst o else setDel s.pwr.perst o } }

/-- R78: HPRSNT_N changes: a debounce starts when the level differs from what the port was judged to be; a change back
cancels it. -/
def presenceChange (o : Nat) (level : Bool) (s : State) : State :=
  let s := setHprsnt s o level
  match pinPort s o with
  | none => s
  | some p =>
    let h := hportOf s p
    let differs := if level then h.quar == 1 || h.quar == 3 else h.quar == 0 || h.quar == 2
    setHport s p { h with debounce := if differs && !s.flt.halt then some (s.ns + s.rd OCTET.PRSNT_DEBOUNCE o * 1000) else none }

def execHprsntNChange (octet : Fin 128) (level : Bool) (s : State) : Host.Outcome State Fault Refusal :=
  ok (presenceChange octet.val level s)

/-- R78: the debounce ends: the port is judged attached or removed. -/
def debounceEnds (o : Nat) (s : State) : State :=
  match pinPort s o with
  | none => s
  | some p =>
    match (hportOf s p).debounce with
    | none => s
    | some d =>
      let s := s.reach d
      let s := setHport s p { hportOf s p with debounce := none }
      if !presentPin s p then removal s p else if octetsReady s p then attach s p else s

def execPrsntDebounceExpiry (octet : Fin 128) (s : State) : Host.Outcome State Fault Refusal := ok (debounceEnds octet.val s)

/-- R78: a link leaves L0: LINK_GRACE begins, but for a fundamental reset. -/
def leaveL0 (p : Nat) (s : State) : State :=
  if !portUsed s p || !(hportOf s p).l0 then s
  else
    let s := hostLink s p false
    let h := hportOf s p
    let s := if (h.quar = 1 ∨ h.quar = 3) ∧ !perstLow s p then
        setHport s p { h with grace := some (s.ns + s.rd OCTET.LINK_GRACE (octetOfPort p) * 1000) } else s
    if s.stateOf blkHPORT p = 5 then s else s.setState blkHPORT p (idlePort s p)

def execHostLinkLeaveL0 (port : Fin 128) (s : State) : Host.Outcome State Fault Refusal := ok (leaveL0 port.val s)

/-- R78: the link has not returned within LINK_GRACE. -/
def graceEnds (p : Nat) (s : State) : State :=
  match (hportOf s p).grace with
  | none => s
  | some d => removal (setHport (s.reach d) p { hportOf s p with grace := none }) p

def execLinkGraceExpiry (port : Fin 128) (s : State) : Host.Outcome State Fault Refusal := ok (graceEnds port.val s)

/-- R78, R80, R94: a link trains: a hot reset when it returns within LINK_GRACE, the attachment of an x4 port or of a
port whose cable is present, else the way to the early endpoint. -/
def linkTrained (p gen width : Nat) (flit : Bool) (s : State) : State :=
  if !portUsed s p || !mayTrain s p || perstLow s p then s
  else
    let back := (hportOf s p).grace.isSome
    let s := setHport s p { hportOf s p with gen := gen, width := width, flit := flit, grace := none }
    let s := hostLink s p true
    let h := hportOf s p
    if h.quar = 1 then
      let s := if back && !h.inReset then portReset s p else s
      if s.stateOf blkHPORT p = 4 ∧ !(hportOf s p).inReset then s else s.setState blkHPORT p 3
    else if h.quar = 3 then s.setState blkHPORT p 3
    else if !pinServed s p || (presentPin s p && h.debounce.isNone) then attach s p
    else s

def execHostLinkTrained (port : Fin 128) (gen : BitVec 4) (width : BitVec 5) (flit : Bool) (s : State) :
    Host.Outcome State Fault Refusal :=
  ok (linkTrained port.val gen.toNat width.toNat flit s)

/-! ## Resets (R94 to R96) -/

/-- R94: PERST_N falls: a fundamental reset of every function; the link drops with it. -/
def perstFalls (o : Nat) (s : State) : State :=
  let s := setPerst s o false
  match pinPort s o with
  | none => s
  | some p =>
    if (hportOf s p).quar ≠ 1 then
      let s := hostLink (setHport s p { hportOf s p with grace := none }) p false
      s.setState blkHPORT p (idlePort s p)
    else
      let s := hostLink (setHport s p { hportOf s p with grace := none }) p false
      (portReset s p).setState blkHPORT p 5

def execPerstNAssert (octet : Fin 128) (s : State) : Host.Outcome State Fault Refusal := ok (perstFalls octet.val s)

/-- R96: PERST_N rises: the link retrains. -/
def perstRises (o : Nat) (s : State) : State :=
  let s := setPerst s o true
  match pinPort s o with
  | none => s
  | some p => if s.stateOf blkHPORT p = 5 ∧ !(hportOf s p).l0 then s.setState blkHPORT p (idlePort s p) else s

def execPerstNDeassert (octet : Fin 128) (s : State) : Host.Outcome State Fault Refusal := ok (perstRises octet.val s)

/-- R94: an in-band hot reset. -/
def hotReset (p : Nat) (s : State) : State :=
  let h := hportOf s p
  if h.quar ≠ 1 ∨ !h.l0 ∨ s.stateOf blkHPORT p = 5 then s else (portReset s p).setState blkHPORT p 5

def execHotReset (port : Fin 128) (s : State) : Host.Outcome State Fault Refusal := ok (hotReset port.val s)

/-- A configuration request reaches the functions: 0 no request can arrive, 1 Retry Status, 2 answered (R80, R96). -/
def configMeets (s : State) (p : Nat) : Nat :=
  let h := hportOf s p
  if (h.quar ≠ 1 ∧ h.quar ≠ 3) ∨ !h.l0 then 0 else if h.quar = 1 ∧ s.stateOf blkHPORT p = 4 then 2 else 1

/-- A configuration write that starts something meets Retry Status, or Unsupported Request for no function. -/
def configWrite (p sel : Nat) (k : State → State) (s : State) : State :=
  match configMeets s p with
  | 0 => s
  | 1 => s.emit (.completion p 3 [])
  | _ => if funcPresent s p sel then k s else unsupported s p sel true

/-- R94, R95: Initiate FLR. -/
def hostFlr (p sel : Nat) (s : State) : State :=
  if flrRuns s p sel then s.bumpErr blkHPORT p 5 else startFlr s p sel

def execInitiateFlr (port : Fin 128) (sel : BitVec 12) (s : State) : Host.Outcome State Fault Refusal :=
  ok (configWrite port.val sel.toNat (hostFlr port.val sel.toNat) s)

/-- R91: a function with Power Management moves between D0 and D3hot; the move to D0 resets it as an FLR does. -/
def powerState (p sel : Nat) (d3 : Bool) (s : State) : State :=
  let f := funcOf s p sel
  if 2 < sel || f.d3 = d3 then s
  else
    let s := setFunc s p sel { f with d3 := d3 }
    if d3 || f.inReset then s else startFlr s p sel

def execPowerStateWrite (port : Fin 128) (sel : BitVec 12) (d3 : Bool) (s : State) : Host.Outcome State Fault Refusal :=
  ok (configWrite port.val sel.toNat (powerState port.val sel.toNat d3) s)

def execFlrComplete (port : Fin 128) (sel : BitVec 12) (s : State) : Host.Outcome State Fault Refusal :=
  ok (flrComplete port.val sel.toNat s)
def execDrainComplete (port : Fin 128) (sel : BitVec 12) (s : State) : Host.Outcome State Fault Refusal :=
  ok (drainComplete port.val sel.toNat s)
def execFunctionsReady (port : Fin 128) (s : State) : Host.Outcome State Fault Refusal := ok (functionsReady port.val s)

/-! ## Quarantine (R80, R81) -/

def execQuarantineExpiry (port : Fin 128) (s : State) : Host.Outcome State Fault Refusal :=
  ok (match s.anyEvent blkOCTET 1 port.val with
    | some (n, e) => quarFire (s.fireEvent n e) port.val
    | none => s)

/-- R81: a refused expiry is scheduled again. -/
def quarRetry (p : Nat) (s : State) : State :=
  match (hportOf s p).quarRetry with
  | none => s
  | some (deadline, t) => scheduleExpiry (s.reach t) p deadline

def execQuarScheduleRetry (port : Fin 128) (s : State) : Host.Outcome State Fault Refusal := ok (quarRetry port.val s)

def cmdReattach (accept : Bool) (c : CmdCtx) (s : State) : CmdRes :=
  ckArgs c s anyArg anyArg <|
    if 1 < c.a0 then .fail s 0x02
    else
      let p := portOfOctet c.inst c.a0
      if 8 ≤ c.inst % 16 ∨ !portUsed s p ∨ (hportOf s p).quar ≠ 3 then .fail s 0x4A
      else
        let s := setHport (cancelExpiry s p) p { hportOf s p with quar := 1, quarRetry := none }
        .done (bringUp (if accept then restore s p else freshStart (purge s p) p) p)

def execReattachAccept (c : CmdIn) (s : State) : Host.Outcome State Fault Refusal :=
  ok (pageCommand blkOCTET 0x04 (cmdReattach true) c s)
def execReattachRefuse (c : CmdIn) (s : State) : Host.Outcome State Fault Refusal :=
  ok (pageCommand blkOCTET 0x05 (cmdReattach false) c s)

/-! ## Configuration space (R88 to R91) -/

/-- The function that a routing ID names, counted from the port's own (R89). -/
def selOfRid (rid : Nat) : Option Nat :=
  if rid < 3 then some rid
  else if 0x100 ≤ rid ∧ rid < 0x500 then some (0x400 + (rid - 0x100))
  else if 0x500 ≤ rid ∧ rid < 0x900 then some (0x800 + (rid - 0x500))
  else none

/-- 0 PF0, 1 PF1, 2 the Control Function, 3 a VF of PF0, 4 a VF of PF1. -/
def funcKind (sel : Nat) : Nat := if sel < 3 then sel else if sel < 0x800 then 3 else 4

/-- Device ID and class code (R89). -/
def deviceId (kind : Nat) : Nat := [0x4096, 0x4098, 0x4090, 0x4097, 0x4099].getD kind 0
def classCode (kind : Nat) : Nat := [0x020000, 0x010802, 0x088000, 0x020000, 0x010802].getD kind 0

/-- The capabilities a function carries (R91): ID and offset, ascending. -/
def capsOf (kind : Nat) : List (Nat × Nat) :=
  (if kind < 3 then [(0x01, 0x040)] else []) ++ [(0x10, 0x050), (0x11, 0x0A0), (0x01, 0x100), (0x0E, 0x180)] ++
  (if kind < 2 then [(0x10, 0x190)] else []) ++ (if kind < 3 then [(0x0D, 0x1D0)] else []) ++
  (if kind = 0 then [(0x2E, 0x1E0), (0x25, 0x200), (0x2A, 0x210), (0x31, 0x240), (0x32, 0x260)] else [])

/-- The header of the capability at an offset: its ID and the next one's offset; extended ones with version 1. -/
def capHeader (kind off : Nat) : Option Nat :=
  let cs := capsOf kind
  let ext := decide (0x100 ≤ off)
  match cs.find? (fun c => c.2 == off) with
  | none => none
  | some (id, _) =>
    let next := ((cs.find? (fun c => decide (off < c.2) && (decide (0x100 ≤ c.2) == ext))).map (fun c => c.2)).getD 0
    some (if ext then id + 2 ^ 16 + next * 2 ^ 20 else id + next * 2 ^ 8)

/-- The BAR register at an offset (R90): log2 of the BAR's size, its type bits, whether it is the upper half. VF BARs
stand in the SR-IOV capability of the PF. -/
def barAt (h : HPort) (kind off : Nat) : Option (Nat × Nat × Bool) :=
  let rows : List (Nat × Nat × Nat) := match kind with
    | 0 => [(0x10, 16, 4), (0x18, 16, 4), (0x20, h.bar4, 12), (0x1B4, 16, 4), (0x1BC, 13, 4)]
    | 1 => [(0x10, 16, 4), (0x18, 16, 4), (0x1B4, 16, 4), (0x1BC, 13, 4)]
    | 2 => [(0x10, 29, 4), (0x18, 16, 4)]
    | _ => []
  match rows.find? (fun r => r.1 == off || r.1 + 4 == off) with
  | some (o, z, f) => if z = 0 then none else some (z, f, decide (o ≠ off))
  | none => none

/-- TotalVFs of a PF as presented. -/
def totalVfs (h : HPort) (kind : Nat) : Nat := if kind = 0 then h.shown.n0 else h.shown.n1

/-- The pending INTx cause of a function (R97). -/
def intxPending (s : State) (p sel : Nat) : Bool :=
  let f := funcOf s p sel
  match sel with
  | 0 => f.intxCause != 0
  | 1 => f.intxCause != 0
  | 2 => s.typePend.any (fun t => routesTo s t (hportOf s p).cf)
  | _ => false

/-- A word of a function's configuration space (R89 to R91). -/
def cfgRead (s : State) (p sel off : Nat) : Word :=
  let h := hportOf s p
  let f := funcOf s p sel
  let k := funcKind sel
  let off := off / 4 * 4
  let kept := (Tbl.getD f.cfg off 0).toNat
  let pf := decide (k < 2)
  match capHeader k off with
  | some v => if off = 0x0A0 then w32 (v + (msixSize s p sel - 1) % 2048 * 2 ^ 16 + b2n f.msixEn * 2 ^ 31) else w32 v
  | none =>
    match barAt h k off with
    | some (z, flags, hi) =>
      let lo := if z < 32 then kept / 2 ^ z * 2 ^ z else 0
      w32 (if hi then (if z ≤ 32 then kept else kept / 2 ^ (z - 32) * 2 ^ (z - 32)) else lo + flags)
    | none =>
      if off = 0x000 then w32 (0x1F7A + deviceId k * 2 ^ 16)
      else if off = 0x004 then w32 (kept % 2 ^ 16 + b2n (intxPending s p sel) * 2 ^ 19 + 2 ^ 20)
      else if off = 0x008 then w32 (1 + classCode k * 2 ^ 8)
      else if off = 0x02C then w32 (0x1F7A + s.rd HPORT.SUBSYS_ID p % 2 ^ 16 * 2 ^ 16)
      else if off = 0x034 then w32 (if k < 3 then 0x40 else 0x50)
      else if off = 0x03C then w32 (kept % 256 + (if k < 3 then 2 ^ 8 else 0))
      else if off = 0x044 ∧ k < 3 then w32 (if f.d3 then 3 else 0)
      else if off = 0x058 then w32 ((if k < 3 then s.devCtl p sel else kept) % 2 ^ 15 + b2n f.transPend * 2 ^ 21)
      else if off = 0x0A4 then 2
      else if off = 0x0A8 then w32 (if k < 3 then 0x8002 else 0x1002)
      else if off = 0x19C ∧ pf then w32 (totalVfs h k * (2 ^ 16 + 1))
      else if off = 0x1A4 ∧ pf then w32 ((if k = 0 then 0x0100 else 0x04FF) + 2 ^ 16)
      else if off = 0x1A8 ∧ pf then w32 ((if k = 0 then 0x4097 else 0x4099) * 2 ^ 16)
      else if (off = 0x1AC ∨ off = 0x1B0) ∧ pf then 1
      else if off = 0x1D4 ∧ k < 3 then 0xD
      else if (off < 0x40) ∨ (capsOf k).any (fun c => decide (c.2 < off) && decide (off < c.2 + 0x80)) then w32 kept
      else 0

/-- VF Enable and NumVFs of a PF (R89, R92): VFs that go are reset. -/
def setVfs (s : State) (p k n : Nat) : State :=
  let h := hportOf s p
  let old := if k = 0 then h.nvf0 else h.nvf1
  let base := if k = 0 then 0x400 else 0x800
  let s := ((List.range old).filter (fun i => n ≤ i)).foldl (fun (s : State) (i : Nat) => resetFunc (drainSteps s p (base + i) false) p (base + i)) s
  let h := hportOf s p
  setHport s p (if k = 0 then { h with nvf0 := n } else { h with nvf1 := n })

/-- A configuration write to a ready function. -/
def cfgPut (p sel off : Nat) (v : Word) (s : State) : State :=
  let k := funcKind sel
  let off := off / 4 * 4
  let keep := fun (s : State) (v : Word) =>
    setFunc s p sel { funcOf s p sel with cfg := Tbl.put (funcOf s p sel).cfg off v }
  if off = 0x004 then
    let s := keep s v
    setFunc s p sel { funcOf s p sel with intDis := bit v.toNat 10 }
  else if off = 0x044 ∧ k < 3 then
    if v.toNat % 4 = 3 then powerState p sel true s else if v.toNat % 4 = 0 then powerState p sel false s else s
  else if off = 0x058 then
    let s := keep s v
    if bit v.toNat 15 then hostFlr p sel s else s
  else if off = 0x0A0 then setFunc s p sel { funcOf s p sel with msixEn := bit v.toNat 31 }
  else if off = 0x198 ∧ k < 2 then
    let n := min ((Tbl.getD (funcOf s p sel).cfg 0x1A0 0).toNat % 2 ^ 16) (totalVfs (hportOf s p) k)
    setVfs (keep s v) p k (if bit v.toNat 0 then n else 0)
  else if off = 0x1A0 ∧ k < 2 ∧ bit (Tbl.getD (funcOf s p sel).cfg 0x198 0).toNat 0 then s
  else keep s v

/-- R89, R96, R99: a configuration request. -/
def configRequest (p rid off : Nat) (write : Option Word) (s : State) : State :=
  match configMeets s p with
  | 0 => s
  | 1 => s.emit (.completion p 3 [])
  | _ =>
    match selOfRid rid with
    | none => unsupported s p 0 true
    | some sel =>
      if !funcPresent s p sel then unsupported s p 0 true
      else if (funcOf s p sel).inReset then s.emit (.completion p 3 [])
      else
        match write with
        | some v => (cfgPut p sel off v s).emit (.completion p 0 [])
        | none => s.emit (.completion p 0 (leBytes 4 (cfgRead s p sel off).toNat))

def execConfigRequest (port : Fin 128) (rid : BitVec 16) (off : BitVec 12) (write : Option Word) (s : State) :
    Host.Outcome State Fault Refusal :=
  ok (configRequest port.val rid.toNat off.toNat write s)

/-! ## Errors from a host (R99) -/

def execPoisonedWriteRx (port : Fin 128) (sel : BitVec 12) (s : State) : Host.Outcome State Fault Refusal :=
  ok (((s.bumpErr blkHPORT port.val 6).aer port.val sel.toNat 3))
def execUnexpectedCompletionRx (port : Fin 128) (sel : BitVec 12) (s : State) : Host.Outcome State Fault Refusal :=
  ok (s.aer port.val sel.toNat 5)
def execMalformedTlpRx (port : Fin 128) (ecrc : Bool) (s : State) : Host.Outcome State Fault Refusal :=
  ok (((s.bumpErr blkHPORT port.val (if ecrc then 3 else 2)).aer port.val 0 1))

/-! ## Commands of HPORT (R92 to R94, R104) -/

/-- Pool ranges that a port holds: as presented and as allocated. -/
def vfRanges (a : Alloc) : List (Nat × Nat) := [(a.base0, a.n0), (a.base1, a.n1)].filter (fun r => r.2 != 0)

/-- The lowest start of `n` free pool indices. -/
def fitRange (taken : List (Nat × Nat)) (n : Nat) : Option Nat :=
  if n = 0 then some 0
  else (0 :: taken.map (fun r => r.1 + r.2)).foldl (fun (best : Option Nat) (b : Nat) =>
    if b + n ≤ 4096 && taken.all (fun r => decide (b + n ≤ r.1) || decide (r.1 + r.2 ≤ b)) then
      match best with
      | some x => some (min x b)
      | none => some b
    else best) none

def cmdVfAlloc (c : CmdCtx) (s : State) : CmdRes :=
  ckArgs c s anyArg anyArg <|
    if 1024 < c.a0 + c.a1 then .fail s 0x02
    else
      let taken := s.hports.flatMap (fun p => vfRanges p.2.shown ++ (if p.1 = c.inst then [] else vfRanges p.2.next))
      match fitRange taken c.a0 with
      | none => .fail s 0x08
      | some b0 =>
        match fitRange (taken ++ [(b0, c.a0)].filter (fun r => r.2 != 0)) c.a1 with
        | none => .fail s 0x08
        | some b1 =>
          let h := hportOf s c.inst
          .done (setHport s c.inst { h with next := { h.next with base0 := b0, n0 := c.a0, base1 := b1, n1 := c.a1 } })

/-- MSI-X entries that an allocation of a port takes (R77). -/
def msixDemand (cf : Nat) (a : Alloc) : Nat := a.pf0 + a.pf1 + cf + a.n0 * a.vf0 + a.n1 * a.vf1

/-- MSI-X entries that every port holds: both allocations of one that differ (R92, R77). -/
def msixHeld (s : State) : Nat :=
  (s.hports.map (fun p =>
    let cf := if bits (s.rd HPORT.FUNC_CTRL p.1) 5 4 = 0 then 0 else s.boot.cfMsix
    if p.2.shown = p.2.next then msixDemand cf p.2.next else msixDemand cf p.2.next + msixDemand cf p.2.shown)).sum

def cmdMsixAlloc (c : CmdCtx) (s : State) : CmdRes :=
  ckArgs c s 0x0FFF0FFF 0x007F007F <|
    let pf0 := bits c.a0 11 0
    let pf1 := bits c.a0 27 16
    let vf0 := bits c.a1 6 0
    let vf1 := bits c.a1 22 16
    if pf0 = 0 ∨ 2048 < pf0 ∨ pf1 = 0 ∨ 2048 < pf1 ∨ vf0 = 0 ∨ 64 < vf0 ∨ vf1 = 0 ∨ 64 < vf1 then .fail s 0x02
    else
      let h := hportOf s c.inst
      let t := setHport s c.inst { h with next := { h.next with pf0 := pf0, pf1 := pf1, vf0 := vf0, vf1 := vf1 } }
      if 131072 < msixHeld t then .fail s 0x08 else .done t

/-- R94, R95: FUNC_RESET; a reset of the function that runs already is the one it waits for. -/
def cmdFuncReset (c : CmdCtx) (s : State) : CmdRes :=
  ckArgs c s 0xFFF anyArg <|
    if !funcPresent s c.inst c.a0 then .fail s 0x50
    else if flrRuns s c.inst c.a0 then .later s
    else .later (startFlr s c.inst c.a0)

def execVfAlloc (c : CmdIn) (s : State) : Host.Outcome State Fault Refusal := ok (pageCommand blkHPORT 0x01 cmdVfAlloc c s)
def execMsixAlloc (c : CmdIn) (s : State) : Host.Outcome State Fault Refusal := ok (pageCommand blkHPORT 0x02 cmdMsixAlloc c s)
def execFuncReset (c : CmdIn) (s : State) : Host.Outcome State Fault Refusal := ok (pageCommand blkHPORT 0x03 cmdFuncReset c s)

end Sys2Proof.Machine
end

