-- ==== Sys2Proof/Machine/RackTime.lean ====
section
/-! DEFINITION. Rack Time: sources and selection, the discipline, steps, seals, reference outputs, RTIME commands (R13 to
R30, R38 to R43, R467 to R469), and the CAL page commands (R45). -/

namespace Sys2Proof.Machine

def setClk (s : State) (f : Clock → Clock) : State := { s with clk := f s.clk }

/-- The source of a code of R41. -/
def srcOfCode (n : Nat) : Option Source :=
  match n with
  | 1 => some .ptp
  | 2 => some .pps
  | 3 => some .twin
  | _ => none

def codeOfSrc : Source → Nat
  | .ptp => 1
  | .pps => 2
  | .twin => 3

/-- The sources from highest to lowest rank; a code repeated at a lower rank is ignored there (R41). -/
def ranking (s : State) : List Source :=
  let c := s.rd RTIME.SRC_CTRL
  ([bits c 1 0, bits c 3 2, bits c 5 4].filterMap srcOfCode).eraseDups

def qualOf (c : Clock) : Source → Qual
  | .ptp => c.ptp
  | .pps => c.pps
  | .twin => c.twin

def setQual (c : Clock) (src : Source) (q : Qual) : Clock :=
  match src with
  | .ptp => { c with ptp := q }
  | .pps => { c with pps := q }
  | .twin => { c with twin := q }

/-- A source counts as qualified: enabled, its rule of R16 holds, FORCE_HOLDOVER clear (R16, R23). -/
def qualified (s : State) (src : Source) : Bool :=
  let c := s.rd RTIME.SRC_CTRL
  !bit c 31 && bit c (7 + codeOfSrc src) && (qualOf s.clk src).ok

/-- The highest-ranked qualified source (R19). -/
def bestSource (s : State) : Option Source := (ranking s).find? (qualified s)

/-- The mean of the frequency adjustment over the last 16 s, each value weighed by the time it held (R23). -/
def meanAdj (s : State) : Int :=
  let from_ := s.bref - 16000000000
  let spans := (s.clk.hist.zip ((s.clk.hist.drop 1).map Prod.fst ++ [s.bref])).map
    (fun p => (p.2 - max p.1.1 from_, p.1.2))
  let total := (spans.map Prod.fst).sum
  if total = 0 then s.clk.freqAdj else ((spans.map (fun p => (p.1 : Int) * p.2)).sum) / (total : Int)

/-- A change of the discipline state raises PG_ISTAT bit 0 (R469). -/
def setDState (s : State) (d : DState) : State :=
  if s.clk.dstate == d then s else (setClk s (fun c => { c with dstate := d })).istat blkRTIME 0 0

/-- Leave for HOLDOVER or FREERUN when no source is left (R23). -/
def loseAll (s : State) : State :=
  let s' := setClk s (fun c => { c with source := none, lockCount := 0, awaitInit := false })
  match s.clk.dstate with
  | .locked => setDState (setClk s' (fun c => { c with freqAdj := meanAdj s, heldAdj := meanAdj s, hist := [] })) .holdover
  | .acquiring =>
    if s.clk.everLocked then setDState (setClk s' (fun c => { c with freqAdj := c.heldAdj })) .holdover
    else setDState s' .freerun
  | _ => s'

/-- Select a source for ACQUIRING (R19, R23); leaving FREERUN, its first measurement is the initial step. -/
def selectSource (s : State) (src : Source) : State :=
  let first := s.clk.dstate == .freerun
  let held := if s.clk.dstate == .locked then meanAdj s else s.clk.heldAdj
  setDState (setClk s (fun c => { c with source := some src, lockCount := 0, awaitInit := first || c.awaitInit,
                                         heldAdj := held, hist := [] })) .acquiring

/-- After any change of qualification: a lost selection gives way to the next-ranked qualified source at once, or to
HOLDOVER or FREERUN; a qualified source ends FREERUN and HOLDOVER (R19, R23). -/
def reselect (s : State) : State :=
  match s.clk.source with
  | some cur =>
    if qualified s cur then s
    else
      match bestSource s with
      | some src => selectSource (s.istat blkRTIME 0 3) src
      | none => loseAll s
  | none =>
    match bestSource s with
    | some src => selectSource s src
    | none => s

/-- A source stops qualifying (R16): PG_ISTAT bit 2 when it was qualified. -/
def loseSource (s : State) (src : Source) : State :=
  let q := qualOf s.clk src
  let s := setClk s (fun c => setQual c src { q with ok := false })
  reselect (if q.ok then s.istat blkRTIME 0 2 else s)

/-- A source qualifies now, if it did not already. -/
def gainSource (s : State) (src : Source) : State :=
  let q := qualOf s.clk src
  setClk s (fun c => setQual c src { ok := true, since := if q.ok then q.since else s.bref, last := s.bref })

/-- The sequencer arms: LAST_SEALED takes the current minute, a chain starts with a CHAIN_ID of the DRBG (R30, R371). -/
def armSequencer (s : State) : State :=
  let (id, s) := s.fresh 64
  let s := setClk s (fun c => { c with armed := true, lastSealed := minuteOf s s.ns })
  { s with met := { s.met with chainId := id, sealSeq := 0, sealPrev := 0 },
           tenants := Tbl.mapV (Tbl.put s.tenants 4096 (Tbl.getD s.tenants 4096 {}))
             (fun _ t => { t with first := true, seq := 0, prev := 0 }) }

/-- The servo's adjustment for a phase error: the manual gives its sign and its limit ±SLEW_MAX, not its size (R21,
log 16). -/
def slew (s : State) (err : Int) : State :=
  let (v, s) := s.fresh 32
  let lim := s.rd RTIME.SLEW_MAX * 256
  let mag : Int := ((if lim = 0 then 0 else v.toNat % lim + 1 : Nat) : Int)
  let adj := if err < 0 then -mag else if err = 0 then 0 else mag
  setClk s (fun c => { c with freqAdj := adj, hist := c.hist ++ [(s.bref, adj)] })

/-- A measurement of the selected source, in 2^-16 ns: positive when Rack Time is behind (R21 to R23). -/
def measure (s : State) (src : Source) (offset : Int) : State :=
  if s.clk.source != some src then s
  else if s.clk.awaitInit then
    setClk s (fun c => { c with awaitInit := false, initialStep := true, stepPending := some offset, lockCount := 0 })
  else
    let err := offset - s.clk.stepPending.getD 0
    if err.natAbs > s.rd RTIME.STEP_THRESH * 65536 then
      setDState (setClk s (fun c => { c with stepPending := some offset, lockCount := 0,
                                             heldAdj := if c.dstate == .locked then meanAdj s else c.heldAdj,
                                             hist := [] })) .acquiring
    else
      let s := slew s err
      if s.clk.dstate == .acquiring then
        let n := if err.natAbs ≤ s.rd RTIME.LOCK_THRESH * 65536 then s.clk.lockCount + 1 else 0
        if 16 ≤ n then
          let s := setDState (setClk s (fun c => { c with lockCount := 0, everLocked := true })) .locked
          if s.clk.armed then s else armSequencer s
        else setClk s (fun c => { c with lockCount := n })
      else s

/-- BREF reaches an instant, Rack Time advancing with it. -/
def reachBref (s : State) (t : Nat) : State := s.pass (t - s.bref)

/-! ## Commands and events -/

/-- R39, R16: a write of PTP_OFFSET_HI commits the measurement with the staged PTP_OFFSET_LO. -/
def ptpCommit (who : Requester) (hi : Word) (s : State) : State :=
  let lo := (Tbl.get? s.stages (State.addr RTIME.PTP_OFFSET_LO 0 0 * 2048 + whoIx who)).getD 0
  let v := signed 64 (lo.toNat + hi.toNat * 4294967296)
  measure (reselect (gainSource s .ptp)) .ptp v

def execPtpOffsetCommit (who : Requester) (hi : Word) (s : State) : Host.Outcome State Fault Refusal :=
  ok (pageWrite who blkRTIME 0 (ptpCommit who hi) s)

/-- R16: PTP_TIMEOUT (ms of BREF) has passed since the last write. -/
def execPtpTimeoutExpiry (s : State) : Host.Outcome State Fault Refusal :=
  ok (if s.clk.ptp.ok then
    loseSource ((reachBref s (s.clk.ptp.last + s.rd RTIME.PTP_TIMEOUT * 1000000)).bumpErr blkRTIME 0 0) .ptp else s)

/-- The phase of Rack Time against its nearest whole second, in 2^-16 ns: positive when it is behind. -/
def ppsOffset (s : State) : Int :=
  let p := s.now % (1000000000 * 65536)
  if p * 2 < 1000000000 * 65536 then -(p : Int) else ((1000000000 * 65536 - p : Nat) : Int)

/-- R16: an edge within 1.2 s of the last qualifies PPS while TREF_IN is in range; its phase is a measurement. -/
def ppsEdge (dt : Nat) (s : State) : State :=
  let s := s.pass dt
  let q := s.clk.pps
  let off := ppsOffset s
  let s := s.wr RTIME.PPS_PHASE 0 (unsigned 32 (off / 65536))
  if s.clk.trefOk && q.last != 0 && decide (s.bref ≤ q.last + 1200000000) then
    measure (reselect (gainSource s .pps)) .pps off
  else setClk s (fun c => { c with pps := { q with last := s.bref } })

def execPpsInEdge (dt : Nat) (s : State) : Host.Outcome State Fault Refusal := ok (ppsEdge dt s)

/-- R16: 1.2 s of BREF without an edge. -/
def execPpsInMissing (s : State) : Host.Outcome State Fault Refusal :=
  ok (if s.clk.pps.last ≠ 0 then
    let s := ((reachBref s (s.clk.pps.last + 1200000001)).bumpErr blkRTIME 0 1).istat blkRTIME 0 4
    let s := loseSource s .pps
    setClk s (fun c => { c with pps := { c.pps with last := 0 } })
  else s)

/-- R16, R19: the frequency check finds TREF_IN out of range, or back in. -/
def execTrefInOutOfRange (out : Bool) (s : State) : Host.Outcome State Fault Refusal :=
  ok (let s := setClk s (fun c => { c with trefOk := !out })
      if out then
        let s := s.istat blkRTIME 0 5
        loseSource (if s.clk.pps.ok then s.bumpErr blkRTIME 0 1 else s) .pps
      else s)

/-- R19: a higher-ranked source has stayed qualified for QUAL_TIME. -/
def qualExpiry (src : Source) (s : State) : State :=
  match s.clk.source with
  | none => s
  | some cur =>
    if qualified s src && (ranking s).idxOf src < (ranking s).idxOf cur then
      let s := reachBref s ((qualOf s.clk src).since + s.rd RTIME.QUAL_TIME * 1000000000)
      if bestSource s == some src then selectSource (s.istat blkRTIME 0 3) src else s
    else s

def execQualTimeExpiry (src : Source) (s : State) : Host.Outcome State Fault Refusal := ok (qualExpiry src s)

/-- R23, R41: FORCE_HOLDOVER. -/
def execForceHoldoverWrite (who : Requester) (on : Bool) (s : State) : Host.Outcome State Fault Refusal :=
  ok (pageWrite who blkRTIME 0 (fun s =>
    let c := s.rd RTIME.SRC_CTRL
    reselect (s.wr RTIME.SRC_CTRL 0 (c % 2 ^ 31 + b2n on * 2 ^ 31))) s)

/-- R19, R41: ENABLE of the sources. -/
def execSourceEnableWrite (who : Requester) (en : BitVec 3) (s : State) : Host.Outcome State Fault Refusal :=
  ok (pageWrite who blkRTIME 0 (fun s =>
    let c := s.rd RTIME.SRC_CTRL
    reselect (s.wr RTIME.SRC_CTRL 0 (c - bits c 10 8 * 256 + en.toNat * 256))) s)

/-- R41: the ranks. -/
def execSourceRankWrite (who : Requester) (ranks : BitVec 6) (s : State) : Host.Outcome State Fault Refusal :=
  ok (pageWrite who blkRTIME 0 (fun s =>
    let c := s.rd RTIME.SRC_CTRL
    reselect (s.wr RTIME.SRC_CTRL 0 (c / 64 * 64 + ranks.toNat))) s)

/-- R28: a MINUTE_OFFSET above 59, or while armed, is rejected and counted. -/
def minuteOffset (value : Word) (s : State) : State :=
  if 59 < value.toNat ∨ s.clk.armed then s.bumpErr blkRTIME 0 2 else s.wr RTIME.MINUTE_OFFSET 0 value.toNat

def execMinuteOffsetWrite (who : Requester) (value : Word) (s : State) : Host.Outcome State Fault Refusal :=
  ok (pageWrite who blkRTIME 0 (minuteOffset value) s)

/-- One seal of the sequencer: boundary `n` ends the minute before it (R29, R368); TRACEABLE is taken now (R30). `skipped`:
a step passed that whole minute (R374). -/
def sealOne (s : State) (n : Int) (stepped : Bool) (skipped : Bool := false) : State :=
  let at_ := (n * 60 + (s.rd RTIME.MINUTE_OFFSET : Int)).toNat * 1000000000
  let due : SealDue := { minute := n - 1, boundary := at_, stepped := stepped || s.clk.sealStepped, trace := s.traceable,
                         closing := (s.tenants.filter (fun t => t.2.state == 2)).map Prod.fst, skipped := skipped }
  { s with clk := { s.clk with lastSealed := n, sealStepped := false }, met := { s.met with due := s.met.due ++ [due] } }

/-- A seal for every minute number from LAST_SEALED + 1 up to the current one, ascending (R29); of those a step passes, the
first ends the minute in progress and the others end minutes that it skipped (R374). -/
def sealUpTo (s : State) (stepped : Bool) : State :=
  if s.clk.armed then
    (List.range (minuteOf s s.ns - s.clk.lastSealed).toNat).foldl
      (fun (s : State) (k : Nat) => sealOne s (s.clk.lastSealed + 1) stepped (stepped && k != 0)) s
  else s

/-- R29, R368: Rack Time passes the next minute boundary; one that it has passed already is sealed now. -/
def minuteBoundary (s : State) : State :=
  let next := ((minuteOf s s.ns + 1) * 60 + (s.rd RTIME.MINUTE_OFFSET : Int)).toNat * 1000000000
  if s.clk.armed ∧ s.clk.lastSealed < minuteOf s s.ns then sealUpTo s false else sealUpTo (s.reach next) false

def execMinuteBoundary (s : State) : Host.Outcome State Fault Refusal := ok (minuteBoundary s)

/-- R22, R30: the pending step takes effect at the next time-bus frame (a multiple of 32 ns of BREF). What a skipped
deadline fires is in Timers. -/
def applyStep (s : State) : State :=
  match s.clk.stepPending with
  | none => s
  | some d =>
    let s := reachBref s ((s.bref + 31) / 32 * 32)
    let s := { s with now := ((s.now : Int) + d).toNat }
    let s := ((s.bumpStat RTIME.STEP_COUNT 0).wr64 RTIME.LAST_STEP 0 (unsigned 64 (d / 65536))).istat blkRTIME 0 1
    let init := s.clk.initialStep
    let s := setClk s (fun c => { c with stepPending := none, initialStep := false })
    if init && s.clk.armed then
      setClk s (fun c => { c with lastSealed := minuteOf s s.ns, sealStepped := true })
    else sealUpTo s true

/-- R38: PPS_OUT rises at the next whole second shifted by PPS_OUT_OFFSET, and falls PPS_OUT_WIDTH later. -/
def ppsPulse (rise : Bool) (s : State) : State :=
  let off := signed 32 (s.rd RTIME.PPS_OUT_OFFSET)
  let last := ((s.ns : Int) - off) / 1000000000 * 1000000000 + off
  if rise then
    let s := s.reach (last + 1000000000).toNat
    if ppsDriven s then (setClk s (fun c => { c with ppsOut := true })).emit (.pin 1 0 1)
    else s
  else if s.clk.ppsOut then
    (setClk (s.reach (last + s.rd RTIME.PPS_OUT_WIDTH).toNat) (fun c => { c with ppsOut := false })).emit (.pin 1 0 0)
  else s

def execPpsOutPulse (rise : Bool) (s : State) : Host.Outcome State Fault Refusal := ok (ppsPulse rise s)

/-- R30, R43: ARM_SEALS. -/
def cmdArmSeals (_ : CmdCtx) (s : State) : CmdRes :=
  if s.clk.dstate != .freerun then .fail s 0x46
  else .done (if s.clk.armed then s else armSequencer s)

def execArmSeals (c : CmdIn) (s : State) : Host.Outcome State Fault Refusal := ok (pageCommand blkRTIME 0x02 cmdArmSeals c s)

/-- R469: LANE_CAL runs while the lane's octet is TRAINING or UP; it ends by LANE_CAL_COMPLETE. -/
def cmdLaneCal (c : CmdCtx) (s : State) : CmdRes :=
  if 1023 < c.a0 then .fail s 0x45
  else if s.stateOf blkOCTET (c.a0 / 8) < 3 then .fail s 0x44
  else .later s

def execLaneCal (c : CmdIn) (s : State) : Host.Outcome State Fault Refusal := ok (pageCommand blkRTIME 0x01 cmdLaneCal c s)

/-- R469: the calibration ends. -/
def laneCalDone (good : Bool) (offset : Word) (s : State) : State :=
  match waitingCmd s blkRTIME 0 0x01 with
  | none => s
  | some r =>
    let lane := r.arg0.toNat
    let cal := s.rd OCTET.LANE_CALSTAT (lane / 8)
    let b := 2 ^ (lane % 8)
    if good then
      endWaiting ((s.wr OCTET.LANE_OFFSET (lane / 8) offset.toNat (lane % 8)).wr OCTET.LANE_CALSTAT (lane / 8) (cal ||| b))
        blkRTIME 0 0x01 0
    else
      endWaiting ((s.wr OCTET.LANE_CALSTAT (lane / 8) (cal - (cal &&& b))).istat blkOCTET (lane / 8) 2) blkRTIME 0 0x01 0x47

def execLaneCalComplete (good : Bool) (offset : Word) (s : State) : Host.Outcome State Fault Refusal :=
  ok (laneCalDone good offset s)

/-! ## CAL page (R45) -/

/-- R32, R45: SCHEDULE; reserved bits end with 0x42 before anything else. -/
def cmdSchedule (c : CmdCtx) (s : State) : CmdRes :=
  if qb c.d 1 45 40 ≠ 0 then .fail s 0x42
  else if qb c.d 1 63 56 < 0xF0 then .fail s 0x02
  else
    let r := s.calSchedule c.inst ⟨qw c.d 0, qb c.d 1 63 56, qb c.d 1 55 48, qb c.d 1 39 0⟩
    { res := r.2, st := r.1 }

/-- The UNIT and COOKIE of CANCEL and QUERY. -/
def calArgs (c : CmdCtx) : Nat × Nat := (bits c.a1 31 24, c.a0 + bits c.a1 7 0 * 2 ^ 32)

/-- R45: CANCEL removes every pending event of a provider UNIT and COOKIE. -/
def cmdCancel (c : CmdCtx) (s : State) : CmdRes :=
  ckArgs c s 0xFFFFFFFF 0xFF0000FF <|
    let (unit, cookie) := calArgs c
    let p := fun (e : CalEvent) => e.unit == unit && e.cookie == cookie
    if unit < 0xF0 then .fail s 0x02
    else if s.calCount c.inst p = 0 then .fail s 0x43
    else .done (s.calCancel c.inst p)

/-- R45: QUERY returns the earliest matching event. -/
def cmdQuery (c : CmdCtx) (s : State) : CmdRes :=
  ckArgs c s 0xFFFFFFFF 0xFF0000FF <|
    let (unit, cookie) := calArgs c
    match State.calFirst (((s.slice c.inst).chip ++ (s.slice c.inst).spill).filter
        (fun e => e.unit == unit && e.cookie == cookie)) with
    | some e => .data s [dw e.deadline, dw (e.unit * 2 ^ 56 + e.kind * 2 ^ 48 + e.cookie)]
    | none => .fail s 0x43

def execSchedule (c : CmdIn) (s : State) : Host.Outcome State Fault Refusal := ok (pageCommand blkCAL 0x01 cmdSchedule c s)
def execCancel (c : CmdIn) (s : State) : Host.Outcome State Fault Refusal := ok (pageCommand blkCAL 0x02 cmdCancel c s)
def execQuery (c : CmdIn) (s : State) : Host.Outcome State Fault Refusal := ok (pageCommand blkCAL 0x03 cmdQuery c s)

/-- R31: now enters the next bucket above level 0 that holds an event of the slice; the event's level follows from now. -/
def cascade (n : Nat) (s : State) : State :=
  match s.calNext n with
  | none => s
  | some e =>
    let l := calLevel s.ns e.deadline
    if l = 0 then s
    else
      let w := if l = 1 then 2 ^ 10 else if l = 2 then 2 ^ 20 else 2 ^ 30
      let t := e.deadline / w * w
      let s := s.reach (if l = 4 then (e.deadline / 2 ^ 30 - 1023) * 2 ^ 30 else t)
      let sl := s.slice n
      if s.rd CAL.SPILL_HI n ≤ sl.chip.length then
        s.setSlice n (calSpill s.ns (s.rd CAL.SPILL_LO n) (s.rd CAL.SPILL_SIZE n) sl.chip.length sl)
      else s

def execCalLevelCascade (slice : Fin 64) (s : State) : Host.Outcome State Fault Refusal := ok (cascade slice.val s)

/-- R34: the earliest spilled event becomes near and returns on chip, displacing a later event that is not near, or
waiting when every entry is near. -/
def spillReturn (n : Nat) (s : State) : State :=
  match State.calFirst (s.slice n).spill with
  | none => s
  | some e =>
    let s := s.reach ((e.deadline / 2 ^ 20 - 1) * 2 ^ 20)
    let sl := s.slice n
    let rest := sl.spill.erase e
    if sl.chip.length < 65536 then s.setSlice n { chip := sl.chip ++ [e], spill := rest }
    else if (calLatest s.ns sl.chip).isSome then
      let d := calDisplace s.ns { chip := sl.chip, spill := rest }
      s.setSlice n { d with chip := d.chip ++ [e] }
    else raisePage (s.bumpErr blkCAL n 2) blkCAL n 1

def execCalSpillReturn (slice : Fin 64) (s : State) : Host.Outcome State Fault Refusal := ok (spillReturn slice.val s)

end Sys2Proof.Machine
end

