-- ==== Sys2Proof/Machine/TwinLink.lean ====
section
/-! DEFINITION. Twin links and the pair: IDENT, flow control and replay, acknowledged records, the pair states, joining
(R378 to R380, R385, R386, R389 to R391). -/

namespace Sys2Proof.Machine

/-- A change of the pair state (R380, R401). -/
def setPair (s : State) (st : Nat) : State :=
  if pairState s = st then s
  else setTwin ((s.setState blkTWIN 0 st).istat blkTWIN 0 0) (fun t => { t with sentTake := false })

/-- This device's rank. -/
def rank (s : State) : Nat := bits (s.rd TWIN.PAIR_CFG) 1 1

/-- The link of a T octet: its TWIN page (R70). -/
def linkOfOctet (o : Nat) : Nat := 2 * (o / 16) + (o % 16 - 14)

/-- A T octet exists. -/
def anyTwin (s : State) : Bool := (List.range 16).any (fun l => persOf s (octetOfTwin l) == 4)

/-! ## Completions that waited (R390) -/

/-- What waited becomes visible: C, events, completions of NVMe, RDMA acknowledgements, RING_PROD, the end of a page
command; the longest wait is kept. -/
def releaseWaiting (s : State) (w : Waiting) : State :=
  let s := s.raiseMax TWIN.MIRROR_LAG_MAX 0 (s.ns - w.since)
  let s := makeVisible s w
  let s := match w.cTo with | some (k, _) => pull (settleQueue s k) k | none => s
  let s := w.nv.foldl (fun (s : State) (x : Nat × NvCpl) => nvVisible s x.1 x.2) s
  let s := w.rdma.foldl (fun (s : State) (x : Nat × Nat × Nat × Nat × List Byte) =>
    sendRdma s x.1 x.2.1 x.2.2.1 x.2.2.2.1 0 false false x.2.2.2.2 []) s
  match w.page with
  | some p =>
    match Tbl.get? s.running p with
    | some r => endCommand s p r.res.toNat r.ret
    | none => s
  | none => s

/-- Completions stop waiting: all are released in order (R380, R394). -/
def releaseAll (s : State) : State :=
  let ws := s.twin.waiting
  ws.foldl releaseWaiting (setTwin s (fun t => { t with waiting := [], unacked := [] }))

/-- `a` is at or before `b` in a 40-bit series. -/
def seqLe (a b : Nat) : Bool := decide ((b + 2 ^ 40 - a % 2 ^ 40) % 2 ^ 40 < 2 ^ 39)

/-- A MACK is taken (R390): records up to it are acknowledged, what waited for them becomes visible in order. -/
def takeMack (s : State) (m : Nat) : State :=
  if !seqLe m s.twin.mseqTx ∨ seqLe m s.twin.mackRx then s
  else
    let go := s.twin.waiting.takeWhile (fun (w : Waiting) => seqLe w.mseq m)
    let s := setTwin s (fun t => { t with mackRx := m, unacked := t.unacked.filter (fun u => !seqLe u.1 m),
                                          waiting := t.waiting.drop go.length })
    let s := go.foldl releaseWaiting s
    sendHeld (s.twin.unacked.length + 1) s

/-! ## Links (R379, R385, R386) -/

/-- The credits this end grants each credited channel in IDENT: its own choice (log 34). -/
def ownCredits : Nat := 4095

/-- An IDENT flit: PAIR_ID, RANK and the link's number, then the credits of each channel (R379). -/
def sendIdent (s : State) (l : Nat) : State :=
  putFlit s l 7 false false 0 0 0 [dw (s.rd TWIN.PAIR_ID + rank s * 2 ^ 32 + l * 2 ^ 36), dw (ownCredits * 2 ^ 16 + ownCredits * 2 ^ 32),
                                   dw (ownCredits * 2 ^ 16)]

/-- A T octet reaches UP: flit lock, and IDENT while the pair is configured. -/
def linkLocked (s : State) (l : Nat) : State :=
  if pairState s = 0 then setLink s l { stat := 1 } else sendIdent (setLink s l { stat := 2 }) l

/-- The pair becomes inactive or ALONE with its configuration and its T octets (R380). -/
def settlePair (s : State) : State :=
  if bit (s.rd TWIN.PAIR_CFG) 0 && anyTwin s then
    if pairState s = 0 then
      let s := setPair s 1
      (s.twin.links.filter (fun k => k.2.stat == 1)).foldl (fun (s : State) (k : Nat × Link) => linkLocked s k.1) s
    else s
  else setPair (releaseAll s) 0

/-- The shadow and what was received of a group are discarded. -/
def dropShadow (s : State) : State :=
  setTwin s (fun t => { t with shadow := [], compl := [], totals := [], group := [], early := [], bulkMine := false, bulkPeer := false })

/-- The twin source is lost when no link is in service (R16). -/
def twinTimeLost (s : State) : State := if linksUp s = [] then loseSource s .twin else s

/-- A link goes out of service: its unacknowledged records, and what it had not sent, go to the other links (R391). -/
def linkDown (s : State) (l : Nat) : State :=
  let k := linkOf s l
  let s := setLink s l { stat := 0 }
  if k.stat ≠ 3 then s
  else
    let s := s.istat blkTWIN l 1
    let others := (k.replay.map (fun r => (r.2.1, r.2.2)) ++ k.queued).filter (fun r => r.1 == 2 || r.1 == 5)
    let s := others.foldl (fun (s : State) (r : Nat × List Dword) =>
      match nextLink s with
      | some (n, s) => sendFlit s n r.1 r.2
      | none => s) s
    let s := setTwin s (fun t => { t with unacked := t.unacked.map (fun (u : Nat × Nat × List Dword) => if u.2.1 = l then (u.1, 16, u.2.2) else u) })
    let s := sendHeld (s.twin.unacked.length + 1) s
    let s := if linksUp s = [] ∧ pairState s = 2 then setPair (dropShadow (releaseAll s)) 1 else s
    twinTimeLost s

/-- A flit that only acknowledges, refuses or returns credits. -/
def sendLinkFlit (s : State) (l : Nat) (nak : Bool) (crCh crN : Nat) : State := putFlit s l 7 false nak 0 crCh crN []

/-- The header of a flit as it arrived, and whether its CRC is good (R382, R384). -/
def flitHeaderOf (f : Flit) : Dword :=
  flitHeader f.channel.toNat f.replay f.nak f.ackOk f.seq.toNat f.ackSeq.toNat f.crCh.toNat f.crN.toNat f.payload.length
def flitGood (f : Flit) : Bool := f.crc == flitCrc (flitHeaderOf f) f.payload

/-- Flits of a link are sent again from a SEQ on (R385). -/
def replayFrom (s : State) (l : Nat) : State :=
  let k := linkOf s l
  k.replay.foldl (fun (s : State) (r : BitVec 16 × Nat × List Dword) =>
    (putFlit s l r.2.1 true false r.1.toNat 0 0 r.2.2).bumpStat TWIN.REPLAYS l) s

/-- A link is taken down and retrained (R385). -/
def retrain (s : State) (l : Nat) : State :=
  octPortDown (linkDown (s.bumpErr blkTWIN l 0) l) (octetOfTwin l) 0

/-- The acknowledgement, NAK and credits of a flit's header are taken (R385, R386). -/
def takeHeader (s : State) (f : Flit) : State :=
  let l := f.link.val
  let k := linkOf s l
  let covered := fun (r : BitVec 16 × Nat × List Dword) => decide ((f.ackSeq - r.1).toNat - 1 < 2 ^ 15) && f.ackSeq != r.1
  let keep := if f.ackOk || f.nak then k.replay.filter (fun r => !covered r) else k.replay
  let k := { k with replay := keep, replays := if keep.length < k.replay.length then 0 else k.replays, heard := true,
                    credits := listSet k.credits f.crCh.toNat (k.credits.getD f.crCh.toNat 0 + f.crN.toNat) }
  let s := setTwin (setLink s l k) (fun t => { t with lastHeard := s.bref })
  let s := if f.nak && !keep.isEmpty then
      if k.replays = 8 then retrain s l else replayFrom (setLink s l { k with replays := k.replays + 1 }) l
    else s
  pumpLink l ((linkOf s l).queued.length + 1) s

/-- A NAK for the expected SEQ, once for each expected value. -/
def nakOnce (s : State) (l : Nat) : State :=
  if (linkOf s l).nakSent then s else sendLinkFlit (setLink s l { linkOf s l with nakSent := true }) l true 0 0

/-- A flit arrives on a link (R384 to R386): the state, and whether its payload is to be taken. -/
def acceptFlit (s : State) (f : Flit) : State × Bool :=
  let l := f.link.val
  if (linkOf s l).stat = 0 then (s, false)
  else if !flitGood f then (nakOnce (s.bumpStat TWIN.CRC_ERR l) l, false)
  else
    let s := takeHeader s f
    let k := linkOf s l
    if !sequenced f.channel.toNat then (s.bumpStat TWIN.FLITS_RX l, true)
    else if k.stat ≠ 3 then (s, false)
    else if f.seq = k.rxSeq then
      let s := (setLink s l { k with rxSeq := k.rxSeq + 1, nakSent := false }).bumpStat TWIN.FLITS_RX l
      (sendLinkFlit s l false f.channel.toNat 1, true)
    else if (k.rxSeq - f.seq).toNat < 2 ^ 15 then (s, false)
    else (nakOnce s l, false)

def execLinkFlitRx (f : Flit) (s : State) : Host.Outcome State Fault Refusal := ok (acceptFlit s f).1

/-! ## Joining (R380, R389, R393) -/

/-- A record over BULK: the format of R389 without a place in the mirror series. -/
def bulkRec (s : State) (kind : Nat) (body : List Dword) (more : Bool) : State :=
  match nextLink s with
  | none => s
  | some (l, s) => sendFlit s l 5 (dw (kind + body.length % 32 * 2 ^ 8 + b2n more * 2 ^ 13) :: body)

/-- A context over BULK. -/
def bulkCtx (s : State) (h : Nat) (qws : List Dword) : State :=
  let hd := match Tbl.get? s.ctxs h with | some c => ctxHeader c | none => 0
  let all := hd :: qws.take 31
  let s := bulkRec s 0x01 (dw (h + min 28 all.length * 2 ^ 40) :: all.take 28) (decide (28 < all.length))
  if all.length ≤ 28 then s else bulkRec s 0x01 (dw (h + 28 * 2 ^ 32 + (all.length - 28) * 2 ^ 40) :: all.drop 28) false

/-- Every context of the queues, QPs and controllers that meet a condition goes over BULK. -/
def bulkObjects (s : State) (port : Nat → Bool) (handle : Nat → Bool) : State :=
  let s := (s.queues.filter (fun q => q.1 < 2 ^ 32 && port (queuePort q.1) && handle q.2.handle)).foldl
    (fun (s : State) (q : Nat × Queue) => bulkCtx s q.2.handle (ringAnchor q.1 q.2)) s
  let s := (s.qps.filter (fun q => port (Qp'.port q.2) && handle q.2.handle)).foldl (fun (s : State) (q : Nat × Qp) =>
    [0, 1, 2, 3].foldl (fun (s : State) (i : Nat) => bulkCtx s (q.2.handle + i) (qpPart q.1 q.2 i)) s) s
  (s.ctls.filter (fun c => port c.2.port)).foldl (fun (s : State) (c : Nat × NvCtl) =>
    let s := (c.2.sqs.filter (fun q => handle q.2.handle)).foldl (fun (s : State) (q : Nat × NvQ) =>
      bulkCtx s q.2.handle (nvqWords c.1 q.1 false c.2 q.2)) s
    (c.2.cqs.filter (fun q => handle q.2.handle)).foldl (fun (s : State) (q : Nat × NvQ) =>
      bulkCtx s q.2.handle (nvqWords c.1 q.1 true c.2 q.2)) s) s

/-- The page and arguments of the CMD WRITE record that writes a table entry (R211, R212). -/
def entryCmd (key : Nat) (e : Entry) : List Dword :=
  let code := key / 2 ^ 40
  let pos := key % 2 ^ 40
  let blk := if code = 5 ∨ code = 6 then blkTCAM else if code = 7 then blkFLOW else blkHTBL
  let inst := if code = 4 then pos / 2 ^ 20 else 0
  let arg1 := code + e.ageClass * 2 ^ 6 + b2n e.static * 2 ^ 10 + ownerVal e.owner * 2 ^ 16 + b2n e.wide * 2 ^ 29
  [dw (blk + inst * 2 ^ 8 + 2 * 2 ^ 24), dw ((if code = 4 ∨ code = 7 then 0 else pos) + arg1 * 2 ^ 32)] ++ padQ e.data 8

/-- The bulk copy of a joining twin: its contexts, and of rank 0 the tables; rank 1's tables make room for them. -/
def bulkCopy (s : State) : State :=
  let s := bulkObjects s (portPaired s) (fun _ => true)
  if rank s = 0 then
    (s.tables.filter (fun t => t.1 / 2 ^ 40 != 8 && t.2.valid)).foldl (fun (s : State) (t : Nat × Entry) =>
      bulkRec s 0x03 (entryCmd t.1 t.2) false) s
  else { s with tables := s.tables.filter (fun t => t.1 / 2 ^ 40 == 8) }

/-- JOINING begins: what a mirror series held before is over. -/
def startJoin (s : State) : State :=
  let s := setPair (dropShadow s) 2
  bulkCopy (setTwin s (fun t => { t with mseqTx := 0, mackRx := 0, mseqRx := 0, unacked := [] }))

/-- A FENCED twin purges every object of its paired ports before it joins, because the survivor holds them (R393). -/
def purgePaired (s : State) : State :=
  ((List.range 128).filter (fun p => portPaired s p)).foldl (fun (s : State) (p : Nat) =>
    let s := (presented (hportOf s p)).foldl (fun (s : State) (f : Nat) => drainSteps s p f true) s
    purge s p) s

/-- R380: a link in service moves a pair that is ALONE, TAKEN_OVER with the peer ALONE, or FENCED. -/
def tryJoin (s : State) : State :=
  if linksUp s = [] then s
  else
    match pairState s with
    | 1 => startJoin s
    | 4 => if bits s.twin.peerQ0.toNat 2 0 = 1 ∨ bits s.twin.peerQ0.toNat 2 0 = 2 then startJoin s else s
    | 5 =>
      let s := startJoin (purgePaired s)
      ((List.range 128).filter (fun p => portPaired s p && !(hportOf s p).l0)).foldl (fun (s : State) (p : Nat) =>
        s.setState blkHPORT p (idlePort s p)) s
    | _ => s

/-- R379: an IDENT flit is checked. -/
def identRx (l pairId : Nat) (peerRank : Bool) (num : Nat) (credits : List Nat) (s : State) : State :=
  let k := linkOf s l
  if pairState s = 0 ∨ (k.stat ≠ 2 ∧ k.stat ≠ 4) then s
  else if pairId ≠ s.rd TWIN.PAIR_ID ∨ num ≠ l ∨ b2n peerRank = rank s then
    (setLink (s.bumpErr blkTWIN l 1) l { k with stat := 4 }).istat blkTWIN l 3
  else
    let grant := (List.range 8).map (fun c => if sequenced c then credits.getD c 0 else 0)
    let s := setTwin (setLink s l { stat := 3, heard := true, credits := grant }) (fun t => { t with lastHeard := s.bref })
    let s := tryJoin s
    let s := sendHeld (s.twin.unacked.length + 1) s
    pumpLink l ((linkOf s l).queued.length + 1) s

def execIdentRx (link : Fin 16) (pairId : Word) (rank : Bool) (num : BitVec 4) (credits : List Nat) (s : State) :
    Host.Outcome State Fault Refusal :=
  ok (identRx link.val pairId.toNat rank num.toNat credits s)

/-- R379: a REFUSED link sends IDENT again. -/
def identRetry (l : Nat) (s : State) : State := if (linkOf s l).stat = 4 then sendIdent s l else s

def execIdentRetry (link : Fin 16) (s : State) : Host.Outcome State Fault Refusal := ok (identRetry link.val s)

/-- PAIRED once both bulk copies are done. -/
def bulkMet (s : State) : State := if pairState s = 2 && s.twin.bulkMine && s.twin.bulkPeer then setPair s 3 else s

/-- A message on the COMMAND channel: 1 BULK_DONE, 2 LEAVE, 3 HANDBACK with its port, 4 TAKEOVER_DONE (log 35). -/
def sendMessage (s : State) (code port : Nat) : State :=
  match nextLink s with
  | some (l, s) => sendFlit s l 2 [dw (code + port * 2 ^ 8)]
  | none => s

/-- R380: this twin's bulk copy has been sent. -/
def bulkSent (s : State) : State :=
  if pairState s ≠ 2 ∨ s.twin.bulkMine || s.twin.links.any (fun k => k.2.queued.any (fun q => q.1 == 5)) then s
  else bulkMet (setTwin (sendMessage s 1 0) (fun t => { t with bulkMine := true }))

def execBulkCopyComplete (s : State) : Host.Outcome State Fault Refusal := ok (bulkSent s)

def execBulkDoneRx (s : State) : Host.Outcome State Fault Refusal :=
  ok (if pairState s = 2 then bulkMet (setTwin s (fun t => { t with bulkPeer := true })) else s)

/-- The pair parts (R380): the shadow goes, completions stop waiting. -/
def leavePair (s : State) : State := setPair (dropShadow (releaseAll s)) 1

def execLeaveRx (s : State) : Host.Outcome State Fault Refusal := ok (if pairState s = 3 then leavePair s else s)

def execMackRx (mseq : BitVec 40) (s : State) : Host.Outcome State Fault Refusal := ok (takeMack s mseq.toNat)

end Sys2Proof.Machine
end

