-- ==== Sys2Proof/Machine/Twin.lean ====
section
/-! DEFINITION. The pair: applying mirror records, time transfer and heartbeats, takeover, fence and handback (R387 to
R399, R401). -/

namespace Sys2Proof.Machine

/-! ## Records (R389 to R392) -/

/-- The records of a flit's payload: header and body. -/
def recordsOf : Nat → List Dword → List (Nat × List Dword)
  | 0, _ => []
  | f + 1, l =>
    match l with
    | [] => []
    | h :: t =>
      let n := bits h.toNat 12 8
      if bits h.toNat 7 0 = 0 then [] else (h.toNat, t.take n) :: recordsOf f (t.drop n)

/-- Where the shadow keeps a context of the peer (R390). -/
def shadowAddr (s : State) (h : Nat) : Nat := s.rd64 TWIN.SHADOW_BASE + 256 * h

/-- A CTX record (R389, R400): into the shadow; a handle it does not cover stops JOINING at ALONE. -/
def applyCtx (s : State) (bulk : Bool) (b : List Dword) : State :=
  let h := qb b 0 24 0
  if s.rd TWIN.SHADOW_SLOTS ≤ h then (if pairState s = 2 then setPair (dropShadow s) 1 else s)
  else
    let s := s.memPutQ (shadowAddr s h + 8 * qb b 0 36 32) ((b.drop 1).take (qb b 0 44 40))
    setTwin s (fun t => { t with shadow := setAdd t.shadow h,
                                 handed := if bulk && pairState s == 3 then setAdd t.handed h else t.handed })

/-- A CMD record (R389, R399): applied to this device's own page; a result other than the sender's is a divergence. -/
def applyCmd (s : State) (b : List Dword) : State :=
  let blk := qb b 0 7 0
  let inst := qb b 0 16 8
  if (blk ≠ blkHTBL ∧ blk ≠ blkTCAM ∧ blk ≠ blkFLOW) ∨ pageCount blk ≤ inst then s
  else
    let r := tableEffect (qb b 0 31 24) ⟨blk, inst, .ctrlA, qb b 1 31 0, qb b 1 63 32, padQ (b.drop 2) 8, []⟩ s
    if r.res = 0 then r.st else raisePage (r.st.bumpErr blkTWIN 0 4) blkTWIN 0 1

/-- The key under which a total of the peer is kept: bank, owner value, counter. -/
def totalKey (bank owner i : Nat) : Nat := (bank * 8192 + owner) * 64 + i

/-- A METER record (R392): a total replaces, a charge adds. -/
def applyMeter (s : State) (b : List Dword) : State :=
  let k := totalKey (qb b 0 24 24) (qb b 0 12 0) (qb b 0 21 16)
  let old := Tbl.getD s.twin.totals k 0
  setTwin s (fun t => { t with totals := Tbl.put t.totals k (if bit (qw b 0) 25 then b.getD 1 0 else old + b.getD 1 0) })

/-- A SLICE record (R392, R399): into PEER_RING at the same index; discarded when the ring is full. The owner's totals of
the sealed bank are over. -/
def applySlice (s : State) (b : List Dword) : State :=
  let n := qb b 0 31 0
  let c := qb b 0 33 32
  let size := 2 ^ (s.rd TWIN.PEER_RING_LOG2 % 32)
  if size ≤ (n + 2 ^ 32 - s.rd TWIN.PEER_RING_CONS) % 2 ^ 32 then (if c = 0 then s.bumpErr blkTWIN 0 6 else s)
  else
    let s := s.memPutQ (s.rd64 TWIN.PEER_RING_BASE + 640 * (n % size) + 160 * c) ((b.drop 1).take 20)
    let s := if c = 0 ∧ qb b 1 15 8 = 1 then
        setTwin s (fun t => { t with totals := t.totals.filter (fun (e : Nat × Dword) =>
          e.1 / 64 != bankOf (signed 64 (qw b 2)) * 8192 + qb b 1 28 16) })
      else s
    if c = 3 then s.wr TWIN.PEER_RING_PROD 0 (n + 1) else s

/-- One record of another kind than MACK takes effect (R389). -/
def applyRecord (bulk : Bool) (s : State) (r : Nat × List Dword) : State :=
  let b := r.2
  match bits r.1 7 0 with
  | 1 => applyCtx s bulk b
  | 2 =>
    let c := (qb b 0 24 0, qb b 0 47 32, qb b 0 51 48)
    setTwin s (fun t => { t with compl := t.compl.filter (fun x => x.1 != c.1 || x.2.1 != c.2.1) ++ [c] })
  | 3 => applyCmd s b
  | 4 => applyMeter s b
  | 5 => setTwin s (fun t => { t with shadow := setDel t.shadow (qb b 0 24 0), compl := t.compl.filter (fun x => x.1 != qb b 0 24 0) })
  | 6 => applySlice s b
  | _ => s

/-- Records in turn join the group; its last record applies it (R390). -/
def applyTurn : Nat → State → State
  | 0, s => s
  | f + 1, s =>
    let n := (s.twin.mseqRx + s.twin.group.length + 1) % 2 ^ 40
    match Tbl.get? s.twin.early n with
    | none => s
    | some r =>
      let s := setTwin s (fun t => { t with early := Tbl.del t.early n, group := t.group ++ [r] })
      if bit (qw r 0) 13 then applyTurn f s
      else
        let g := s.twin.group
        let s := g.foldl (fun (s : State) (r : List Dword) => applyRecord false s (qw r 0, r.drop 1)) s
        applyTurn f (setTwin s (fun t => { t with group := [], mseqRx := n }))

/-- A record of a MIRROR flit is taken (R390, R391): a MACK at once; another unless it has come before. -/
def takeRecord (s : State) (r : Nat × List Dword) : State :=
  if bits r.1 7 0 = 7 then takeMack s (qb r.2 0 39 0)
  else
    let n := bits r.1 63 24
    if seqLe n ((s.twin.mseqRx + s.twin.group.length) % 2 ^ 40) then s
    else setTwin s (fun t => { t with early := Tbl.put t.early n (dw r.1 :: r.2) })

/-- A MACK record goes out: the highest MSEQ applied. It has no place in the series. -/
def sendMack (s : State) : State :=
  match nextLink s with
  | some (l, s) => sendFlit s l 1 [dw (7 + 2 ^ 8), dw s.twin.mseqRx]
  | none => s

/-- R390: a MIRROR flit arrives; its records apply in MSEQ order and what was applied is acknowledged. -/
def mirrorRx (f : Flit) (s : State) : State :=
  let (s, take) := acceptFlit s f
  if !take ∨ (pairState s ≠ 2 ∧ pairState s ≠ 3) then s
  else
    let before := s.twin.mseqRx
    let s := (recordsOf 30 f.payload).foldl takeRecord s
    let s := applyTurn s.twin.early.length s
    if s.twin.mseqRx = before then s else sendMack s

def execMirrorRecordRx (f : Flit) (s : State) : Host.Outcome State Fault Refusal := ok (mirrorRx f s)

/-- R389, R398: a BULK flit arrives: the records of a snapshot or a handback. -/
def bulkRx (f : Flit) (s : State) : State :=
  let (s, take) := acceptFlit s f
  if !take ∨ (pairState s ≠ 2 ∧ pairState s ≠ 3) then s else (recordsOf 30 f.payload).foldl (applyRecord true) s

def execBulkRecordRx (f : Flit) (s : State) : Host.Outcome State Fault Refusal := ok (bulkRx f s)

/-! ## Heartbeat, time and liveness (R387, R388) -/

/-- A valid flit of a link: the peer is heard. -/
def hear (s : State) (l : Nat) : State := setTwin (setLink s l { linkOf s l with heard := true }) (fun t => { t with lastHeard := s.bref })

/-- The discipline state as a code (R40). -/
def dstateCode : DState → Nat
  | .freerun => 0
  | .acquiring => 1
  | .locked => 2
  | .holdover => 3

/-- Qword 0 of the heartbeat. -/
def beatWord (s : State) : Nat :=
  pairState s + rank s * 8 + dstateCode s.clk.dstate * 16 + ((s.clk.source.map codeOfSrc).getD 0) * 256 + b2n s.traceable * 4096

/-- R387: a HEARTBEAT flit on every link in service. -/
def heartbeatTx (s : State) : State :=
  (linksUp s).foldl (fun (s : State) (l : Nat) => sendFlit s l 4 [dw (beatWord s), s.stamp, dw s.twin.mseqRx]) s

def execHeartbeatTx (s : State) : Host.Outcome State Fault Refusal := ok (heartbeatTx s)

/-- R16 to R18, R387: a heartbeat is received: the peer's state, its MACK, and whether it is fit to give time. -/
def heartbeatRx (l : Nat) (q0 q1 q2 : Dword) (dt : Nat) (s : State) : State :=
  let _ := q1
  let s := s.pass dt
  if (linkOf s l).stat ≠ 3 then s
  else
    let s := hear s l
    let s := (setTwin s (fun t => { t with peerQ0 := q0 })).wr TWIN.PEER_STATE 0 (bits q0.toNat 12 0)
    let s := takeMack s (bits q2.toNat 39 0)
    let d := bits q0.toNat 7 4
    let s := if (d = 2 ∨ d = 3) ∧ bits q0.toNat 11 8 ≠ 3 then reselect (gainSource s .twin) else loseSource s .twin
    tryJoin s

def execHeartbeatRx (link : Fin 16) (q0 q1 q2 : Dword) (dt : Nat) (s : State) : Host.Outcome State Fault Refusal :=
  ok (heartbeatRx link.val q0 q1 q2 dt s)

/-- A time of R13 as two qwords: its low 64 bits, then the rest. -/
def timeWords (t : Nat) : List Dword :=
  let v := t / 65536 / 1000000000 * 2 ^ 48 + t / 65536 % 1000000000 * 2 ^ 16 + t % 65536
  [dw v, dw (v / 2 ^ 64)]

/-- A TIME flit (R388). -/
def sendTime (s : State) (l t1 t2 t3 t4 : Nat) : State := sendFlit s l 3 ([t1, t2, t3, t4].flatMap timeWords)

/-- R388: the rank 0 end starts an exchange on each link in service. -/
def exchangeStart (s : State) : State :=
  if rank s = 0 then (linksUp s).foldl (fun (s : State) (l : Nat) => sendTime s l s.now 0 0 0) s else s

def execTimeExchangeStart (s : State) : Host.Outcome State Fault Refusal := ok (exchangeStart s)

/-- The offset of an exchange toward the rank 0 end, in 2^-16 ns (R388). -/
def exchangeOffset (s : State) (l t1 t2 t3 t4 : Nat) : Int :=
  (((t2 : Int) - t1) - ((t4 : Int) - t3) - signed 32 (s.rd TWIN.TIME_ASYM l)) / 2

/-- An exchange of the lowest-numbered link in service is a measurement (R388). -/
def useExchange (s : State) (l : Nat) (offset : Int) : State := if (linksUp s).head? = some l then measure s .twin offset else s

/-- R388: a TIME flit arrives: a request at rank 1, a reply at rank 0, all four values at rank 1. -/
def timeRx (l t1 t2 t3 t4 dt : Nat) (s : State) : State :=
  let s := s.pass dt
  if (linkOf s l).stat ≠ 3 then s
  else
    let s := hear s l
    if rank s = 0 then
      if t4 = 0 then
        let t4 := s.now
        useExchange (sendTime s l t1 t2 t3 t4) l (exchangeOffset s l t1 t2 t3 t4)
      else s
    else if t4 = 0 then sendTime s l t1 s.now s.now 0
    else useExchange s l (-(exchangeOffset s l t1 t2 t3 t4))

def execTimeFlitRx (link : Fin 16) (t1 t2 t3 t4 : Nat) (dt : Nat) (s : State) : Host.Outcome State Fault Refusal :=
  ok (timeRx link.val t1 t2 t3 t4 dt s)

/-- R387: TWIN_LIVE_IN has an edge. -/
def liveEdge (dt : Nat) (s : State) : State :=
  let s := s.pass dt
  setTwin s (fun t => { t with liveIn := !t.liveIn, liveLast := s.bref, liveStopped := false })

def execTwinLiveInEdge (dt : Nat) (s : State) : Host.Outcome State Fault Refusal := ok (liveEdge dt s)

/-- R387, R466: LIVE_LOSS of BREF without an edge. -/
def liveLoss (s : State) : State :=
  if s.twin.liveStopped then s
  else (setTwin (reachBref s (s.twin.liveLast + s.rd TWIN.LIVE_LOSS)) (fun t => { t with liveStopped := true })).istat blkMGMT 0 2

def execLiveLossExpiry (s : State) : Host.Outcome State Fault Refusal := ok (liveLoss s)

/-- R387: TWIN_LIVE_OUT toggles while the device is out of reset. -/
def liveToggle (s : State) : State :=
  if s.pwr.pwrgood && !s.pwr.held then
    (setTwin s (fun t => { t with liveOut := !t.liveOut })).emit (.pin 2 0 (b2n (!s.twin.liveOut)))
  else s

def execTwinLiveOutToggle (s : State) : Host.Outcome State Fault Refusal := ok (liveToggle s)

/-- The unsealed total of a counter: in HBM and in the combining buffers. -/
def meterTotal (s : State) (x i : Nat) : Nat :=
  let bank := bankOf (minuteNow s)
  let key := (bank * 4097 + x) * 64 + i
  qw (s.memGetQ (counterAddr s bank x i) 1) 0 + (s.met.comb.map (fun (c : Nat × List (Nat × Nat)) => Tbl.getD c.2 key 0)).sum

/-- The counters that travel as totals (R392). -/
def totalled : List Nat := (List.range 40).filter (fun i => !(18 ≤ i && i ≤ 21) && !(25 ≤ i && i ≤ 29))

/-- R392: the totals of every owner with something in them. -/
def mtrSync (s : State) : State :=
  let bank := bankOf (minuteNow s)
  (slicedOwners s).foldl (fun (s : State) (x : Nat) =>
    totalled.foldl (fun (s : State) (i : Nat) =>
      let v := meterTotal s x i
      if v = 0 then s else mirrorRec s 0x04 [dw (ownerVal x + i * 2 ^ 16 + bank * 2 ^ 24 + 2 ^ 25), dw v]) s) s

def execMtrSyncTx (s : State) : Host.Outcome State Fault Refusal := ok (mtrSync s)

/-! ## Taking over (R393 to R395) -/

/-- The local host port paired with a port of the peer (R381). -/
def localPort (s : State) (peer : Nat) : Option Nat :=
  (List.range 128).find? (fun p => portPaired s p && s.rd TWIN.PORT_PAIR 0 p % 128 == peer)

/-- PAIR_CHANGE to every event ring of the functions of a port (R395). -/
def pairChange (s : State) (port cause : Nat) : State :=
  ((s.rings.map Prod.fst).filter (fun k => k / 65536 == port && k / 16 % 4096 != 2)).foldl (fun (s : State) (k : Nat) =>
    postEvent s k ⟨0x08, 0xFFF, 0, cause, 1, s.ns⟩) s

/-- PAIR_CHANGE to every paired function. -/
def pairChangeAll (s : State) (cause : Nat) : State :=
  ((List.range 128).filter (fun p => portPaired s p)).foldl (fun (s : State) (p : Nat) => pairChange s p cause) s

/-- The qwords the shadow holds of a context. -/
def shadowOf (s : State) (h : Nat) : List Dword := s.memGetQ (shadowAddr s h) 32

/-- A taken object's context gets a local handle and its home copy (R394 step 2); `n` handles in a row. -/
def adoptCtx (s : State) (d : List Dword) (n port : Nat) : Option (Nat × State) :=
  (findHandle (s.ctxs.map Prod.fst) n (s.rd LEVAIN.STORE_SLOTS) (s.ctxs.length + 1) 0).map (fun h =>
    let c : Ctx := { unit := qb d 0 3 0, cls := qb d 0 5 4, quar := bit (qw d 0) 7, owner := ownerOfVal (qb d 0 20 8), port := port,
                     state := if bit (qw d 0) 7 then 5 else 1, dirty := false, ref := false }
    (h, (List.range n).foldl (fun (s : State) (i : Nat) => setCtx s (h + i) c) s))

/-- The ring that an anchor describes (R257), reading from C with D kept (R123). -/
def anchorRing (d : List Dword) (handle owner : Nat) : Queue :=
  { kind := qb d 2 41 39, log2 := qb d 2 38 35, base := qw d 1, bind := qb d 3 63 40, ering := qb d 2 53 50, devmem := false,
    handle := handle, owner := owner, c := BitVec.ofNat 16 (qb d 2 15 0), d := BitVec.ofNat 16 (qb d 2 31 16),
    u := BitVec.ofNat 16 (qb d 2 15 0), state := qb d 2 34 32, cause := qb d 2 49 42, fidx := BitVec.ofNat 16 (qb d 3 15 0) }

/-- The key of the ring that an anchor describes, on a local port. -/
def anchorKey (d : List Dword) (port : Nat) : Nat := fkey port (qb d 3 39 28) * 4096 + qb d 3 27 16

/-- The qwords of a QP, gathered from its four contexts in the shadow. -/
def shadowQp (s : State) (h : Nat) : List Dword := [0, 1, 2, 3].flatMap (fun i => (shadowOf s (h + i)).drop 1)

/-- A QP of the peer on a local port: its function keeps its selector. -/
def qpOnPort (q : Qp) (port : Nat) : Qp :=
  { q with attr := match q.attr with | a :: t => dw (a.toNat - bits a.toNat 18 12 * 2 ^ 12 + port * 2 ^ 12) :: t | [] => [] }

/-- One context of the shadow becomes an object of this device, unless one of its name stands here (R394 step 2).
`taken`: the object is the peer's. -/
def adoptOne (taken : Bool) (s : State) (h : Nat) : State :=
  let d := shadowOf s h
  match localPort s (qb d 0 27 21) with
  | none => s
  | some p =>
    let mark := fun (s : State) (hs : List Nat) =>
      setTwin s (fun t => { t with shadow := setDel t.shadow h, taken := if taken then t.taken ++ hs else t.taken })
    match qb d 0 3 0 with
    | 1 =>
      let k := anchorKey d p
      if (Tbl.get? s.queues k).isSome then s
      else
        match adoptCtx s d 1 p with
        | none => s
        | some (n, s) => storeCtx (mark (setQueue s k (anchorRing d n (ownerOfVal (qb d 0 20 8)))) [n]) n
    | 2 =>
      let w := shadowQp s h
      if h % 4 ≠ 0 ∨ (Tbl.get? s.qps (qw w 0)).isSome then s
      else
        match adoptCtx s d 4 p with
        | none => s
        | some (n, s) =>
          let x := wordsQp n w
          mark (setQp s x.1 (qpOnPort x.2 p)) [n, n + 1, n + 2, n + 3]
    | 3 =>
      let (i, y, isCq, c, q) := wordsNvq p 0 (d.drop 1)
      let have_ := match Tbl.get? s.ctls i with | some c => if isCq then (c.cq? y).isSome else (c.sq? y).isSome | none => false
      if have_ then s
      else
        match adoptCtx s d 1 p with
        | none => s
        | some (n, s) =>
          let s := if (Tbl.get? s.ctls i).isSome then s else setCtl s i c
          let q := { q with handle := n }
          mark (updCtl s i (fun c => if isCq then { c with cqs := Tbl.put c.cqs y q } else { c with sqs := Tbl.put c.sqs y q })) [n]
    | _ => s
where
  /-- The home copy of a taken ring. -/
  storeCtx (s : State) (h : Nat) : State := match Tbl.get? s.ctxs h with | some c => storeWrite s h c | none => s

/-- Groups of four qwords: the slots of a work item. -/
def slotsOf : Nat → List Dword → List (List Dword)
  | 0, _ => []
  | f + 1, l => if l.isEmpty then [] else padQ (l.take 4) 4 :: slotsOf f (l.drop 4)

/-- The repair of a ring's completion (R394 step 3): for each slot of the work item, written only if OWN is the lap parity
of its index and qword 3 does not show DONE with that PHASE. -/
def repairRing (s : State) (port sel : Nat) (q : Queue) (idx : Nat) (slots : List (List Dword)) : State :=
  slots.zipIdx.foldl (fun (s : State) (x : List Dword × Nat) =>
    let e := x.1
    let i := (idx + x.2) % 65536
    let s := s.emit (.memRead port sel 9 (q.base + 32 * (i % 2 ^ q.log2)) 32 false)
    let shown := bit (qw e 3) 63 && bit (qw e 3) 62 == entOwn e
    if entOwn e != bit i q.log2 || shown then s
    else
      let (v, s) := s.fresh 32
      let count := if q.kind = 1 ∨ q.kind = 3 then v.toNat else entLen e
      let last := x.2 + 1 == slots.length
      (entryWrites q i e (if last then count * 2 ^ 32 else 0x01) s.ns (b2n s.traceable * 2 ^ 60)).foldl
        (fun (s : State) (w : Nat × List Dword) => s.emit (.hostWrite port sel w.1 w.2)) s) s

/-- The repair of an NVMe completion (R394 step 3): written only if the phase tag there is not that of the lap. `later`:
completions of the same queue applied after it; `d`: qword 0 of the command and qword 1 of the entry, as read. -/
def repairCqe (s : State) (i y slot later : Nat) (d : List Dword) : State :=
  match Tbl.get? s.ctls i with
  | none => s
  | some c =>
    match c.cq? (cqOfSq c y), c.sq? y with
    | some k, some q =>
      let at_ := (k.tail + 2 * k.size - 1 - later) % k.size
      let phase := if at_ < k.tail then k.phase else !k.phase
      let s := s.emit (.memRead c.port c.sel 9 (k.base + 16 * at_) 16 false)
      let s := s.emit (.memRead c.port c.sel 9 (q.base + 64 * slot) 8 false)
      if bit (qw d 1) 48 = phase then s
      else
        let (v, s) := s.fresh 15
        let (w, s) := s.fresh 32
        s.emit (.hostWrite c.port c.sel (k.base + 16 * at_)
          (cqe { sq := y, slot := slot, cid := qb d 0 31 16, status := v.toNat, dw0 := w.toNat, token := none } q.head phase))
    | _, _ => s

/-- The completion queue that a COMPL record of an NVMe queue belongs to. -/
def complCq (s : State) (c : Nat × Nat × Nat) : Option (Nat × Nat × Nat) :=
  if c.2.2 ≠ 3 then none
  else
    let d := shadowOf s c.1
    match localPort s (qb d 0 27 21) with
    | none => none
    | some p =>
      let (i, y, _, _, q) := wordsNvq p 0 (d.drop 1)
      some (i, y, q.cq)

/-- Every completion mirrored is repaired, in the order the records were applied; `slots` is what the device reads. -/
def repairAll (compl : List (Nat × Nat × Nat)) (slots : List (List Dword)) (s : State) : State :=
  compl.zipIdx.foldl (fun (s : State) (x : (Nat × Nat × Nat) × Nat) =>
    let c := x.1
    let given := slots.getD x.2 []
    match complCq s c with
    | some (i, y, k) =>
      let later := ((compl.drop (x.2 + 1)).filter (fun e => match complCq s e with | some (a, _, b) => a == i && b == k | none => false)).length
      repairCqe s i y c.2.1 later given
    | none =>
      let d := shadowOf s c.1
      match localPort s (qb d 0 27 21) with
      | none => s
      | some p =>
        if c.2.2 = 1 then repairRing s p (qb d 3 39 28) (anchorRing d 0 0) c.2.1 (slotsOf 64 given) else s) s

/-- Taken rings, QPs and controllers go on (R123, R248, R279): what a ring has to read is demanded. -/
def resumeTaken (s : State) (handles : List Nat) : State :=
  let s := (s.queues.filter (fun q => q.1 < 2 ^ 32 && handles.contains q.2.handle && q.2.state == 1 && q.2.d != q.2.c)).foldl
    (fun (s : State) (q : Nat × Queue) => pull (demand s q.2.handle).1 q.1) s
  (s.qps.filter (fun q => handles.contains q.2.handle)).foldl (fun (s : State) (q : Nat × Qp) => resumeQp (qpHere s q.2.handle).1 q.1) s

/-- The totals last mirrored join the current bank (R394 step 4). -/
def addTotals (s : State) : State :=
  let bank := bankOf (minuteNow s)
  s.twin.totals.foldl (fun (s : State) (e : Nat × Dword) =>
    addCounter s ((bank * 4097 + ownerOfVal (e.1 / 64 % 8192)) * 64 + e.1 % 64) e.2.toNat) s

/-- R394: the survivor takes over. -/
def takeOver (slots : List (List Dword)) (s : State) : State :=
  let s := ((setPair s 4).istat blkTWIN 0 2).wr64 TWIN.LAST_TAKE 0 s.ns
  let s := releaseAll (setTwin s (fun t => { t with group := [], early := [] }))
  let compl := s.twin.compl
  let before := s.twin.taken
  let s := repairAllFirst s compl slots
  let s := { addTotals s with met := { s.met with takeover := true } }
  let s := setTwin s (fun t => { t with compl := [], totals := [], shadow := [] })
  let s := resumeTaken s (s.twin.taken.filter (fun h => !before.contains h))
  let s := pairChangeAll s 0x1
  if linksUp s = [] then s else sendMessage s 4 0
where
  /-- The shadow is adopted, then its completions are repaired; what is read is still in the shadow's memory. -/
  repairAllFirst (s : State) (compl : List (Nat × Nat × Nat)) (slots : List (List Dword)) : State :=
    repairAll compl slots (s.twin.shadow.foldl (adoptOne true) s)

/-- Work in flight on a paired port is discarded (R10, R393): queues restart at C, QPs and SQs at their first incomplete
request. -/
def discardPort (s : State) (port : Nat) : State :=
  let s := { s with queues := Tbl.mapV s.queues (fun k (q : Queue) =>
    if k < 2 ^ 32 && queuePort k == port then { q.restart q.c q.d false with stopping := q.stopping } else q) }
  let s := (s.qps.filter (fun q => Qp'.port q.2 == port)).foldl (fun (s : State) (q : Nat × Qp) =>
    stillQp (setQp s q.1 (rewindQp s.queues q.1 q.2)) q.1) s
  ((s.ctls.filter (fun c => c.2.port == port)).map Prod.fst).foldl refetch s

/-- R393: the rank 1 twin of a partition is fenced: no waiting completion is written, paired ports hold their links down. -/
def fence (s : State) : State :=
  let s := setTwin (setPair s 5) (fun t => { t with waiting := [], unacked := [], group := [], early := [] })
  ((List.range 128).filter (fun p => portPaired s p)).foldl (fun (s : State) (p : Nat) =>
    (leaveL0 p (discardPort s p)).emit (.pin 6 p 1)) s

/-- R393, R399: a TAKEOVER flit arrives; when both twins have sent them, RANK decides. -/
def takeoverRx (l : Nat) (slots : List (List Dword)) (s : State) : State :=
  if (linkOf s l).stat = 0 then s
  else
    let s := hear s l
    if pairState s ≠ 3 then s
    else if !s.twin.sentTake then takeOver slots s
    else
      let s := s.bumpErr blkTWIN 0 5
      if rank s = 0 then takeOver slots s else fence s

def execTakeoverFlitRx (link : Fin 16) (_code : BitVec 8) (slots : List (List Dword)) (s : State) : Host.Outcome State Fault Refusal :=
  ok (takeoverRx link.val slots s)

/-- R387, R393: HB_LOSS of BREF without a valid flit: the peer is silent. -/
def hbLoss (slots : List (List Dword)) (s : State) : State :=
  if pairState s ≠ 3 ∧ s.twin.links.all (fun k => !k.2.heard) then s
  else
    let s := reachBref s (s.twin.lastHeard + s.rd TWIN.HB_LOSS)
    let s := setTwin s (fun t => { t with links := Tbl.mapV t.links (fun _ k => { k with heard := false }) })
    if pairState s ≠ 3 then s
    else if s.twin.liveStopped then takeOver slots s
    else if rank s = 0 then pairChangeAll (takeOver slots (s.bumpErr blkTWIN 0 5)) 0x3
    else fence (s.bumpErr blkTWIN 0 5)

def execHbLossExpiry (slots : List (List Dword)) (s : State) : Host.Outcome State Fault Refusal := ok (hbLoss slots s)

/-- R394: the survivor reports that it has taken over: nothing here changes. -/
def execTakeoverDoneRx (s : State) : Host.Outcome State Fault Refusal := ok s

/-! ## Commands and handback (R398, R401) -/

def cmdLeave (_ : CmdCtx) (s : State) : CmdRes :=
  if pairState s ≠ 3 then .fail s 0x40 else .done (leavePair (sendMessage s 2 0))

def cmdTakeover (_ : CmdCtx) (s : State) : CmdRes :=
  if pairState s ≠ 3 then .fail s 0x40 else .done (sendTakeover s s.flt.haltCode)

/-- The taken handles of a port. -/
def takenOf (s : State) (port : Nat) : List Nat :=
  s.twin.taken.filter (fun h => match Tbl.get? s.ctxs h with | some c => c.port == port | none => false)

def cmdHandback (c : CmdCtx) (s : State) : CmdRes :=
  ckArgs c s 0x7F anyArg <|
    if pairState s ≠ 3 then .fail s 0x40
    else if takenOf s c.a0 = [] then .fail s 0x41
    else .later (setTwin s (fun t => { t with handing := setAdd t.handing c.a0 }))

/-- No work of the handles is in flight. -/
def quiet (s : State) (handles : List Nat) : Bool :=
  s.queues.all (fun q => !handles.contains q.2.handle || (!q.2.reading && (q.2.waits || q.2.items.isEmpty))) &&
    s.nvCmds.all (fun x => match (Tbl.get? s.ctls x.ctl).bind (fun c => c.sq? x.sq) with | some q => !handles.contains q.handle | none => true)

/-- The handles' objects leave this device; they now stand on the peer. -/
def forget (s : State) (handles : List Nat) : State :=
  let s := handles.foldl (fun (s : State) (h : Nat) => match Tbl.get? s.ctxs h with
    | some c => freeSlot (dropParked s h) c
    | none => s) s
  let keep := fun (h : Nat) => !handles.contains h
  { s with queues := s.queues.filter (fun q => keep q.2.handle), qps := s.qps.filter (fun q => keep q.2.handle),
           ctls := (Tbl.mapV s.ctls (fun _ (c : NvCtl) => { c with sqs := c.sqs.filter (fun q => keep q.2.handle),
                                                                   cqs := c.cqs.filter (fun q => keep q.2.handle) })).filter
             (fun c => !(c.2.sqs.isEmpty && c.2.cqs.isEmpty && ((Tbl.get? s.ctls c.1).map (fun o => !o.sqs.isEmpty)).getD false)),
           ctxs := s.ctxs.filter (fun c => keep c.1),
           twin := { s.twin with taken := s.twin.taken.filter keep } }

/-- R398: the work in flight of a port that is handed back has ended: its objects go over BULK, then PAIR_CHANGE. -/
def handbackDrained (port : Nat) (s : State) : State :=
  match waitingCmd s blkTWIN 0 0x02 with
  | none => s
  | some r =>
    if r.arg0.toNat % 128 ≠ port then s
    else
      let hs := takenOf s port
      let ovf := fun (s : State) => setTwin s (fun t => { t with handing := setDel t.handing port })
      if pairState s ≠ 3 then endWaiting (ovf s) blkTWIN 0 0x02 0x40
      else if !quiet s hs then s
      else
        let s := bulkObjects s (· == port) (fun h => hs.contains h)
        let s := sendMessage s 3 port
        let s := pairChange s port 0x2
        endWaiting (ovf (forget s hs)) blkTWIN 0 0x02 0

def execLeave (c : CmdIn) (s : State) : Host.Outcome State Fault Refusal := ok (pageCommand blkTWIN 0x01 cmdLeave c s)
def execHandback (c : CmdIn) (s : State) : Host.Outcome State Fault Refusal := ok (pageCommand blkTWIN 0x02 cmdHandback c s)
def execTakeover (c : CmdIn) (s : State) : Host.Outcome State Fault Refusal := ok (pageCommand blkTWIN 0x03 cmdTakeover c s)
def execHandbackDrained (port : BitVec 7) (s : State) : Host.Outcome State Fault Refusal := ok (handbackDrained port.toNat s)

/-- R398: the peer hands back objects of a port: they become objects of this device again. -/
def handbackRx (port : Nat) (s : State) : State :=
  match localPort s port with
  | none => s
  | some p =>
    if pairState s ≠ 3 then s
    else
      let hs := s.twin.handed.filter (fun h => qb (shadowOf s h) 0 27 21 == port)
      let old := s.ctxs.map Prod.fst
      let s := hs.foldl (adoptOne false) s
      let s := setTwin s (fun t => { t with handed := t.handed.filter (fun h => !hs.contains h) })
      let s := resumeTaken s ((s.ctxs.map Prod.fst).filter (fun h => !old.contains h))
      pairChange s p 0x2

def execHandbackRx (port : BitVec 7) (s : State) : Host.Outcome State Fault Refusal := ok (handbackRx port.toNat s)

end Sys2Proof.Machine
end

