-- ==== Sys2Proof/Machine/Octets.lean ====
section
/-! DEFINITION. Octets: personalities, UP, DOWN, RECAL, calibration, the ports of E, D and T octets, inbound requests of
downstream devices (R26, R69 to R76, R82 to R87). -/

namespace Sys2Proof.Machine

/-- PERS_CTRL or PERS_ACTIVE: the personality, HSPLIT and DSPLIT of its value (R85). -/
def persIn (w : Nat) : Nat := w % 8
def hsplitIn (w : Nat) : Nat := bits w 5 4

/-- The value that counts for an octet when another comes up (R73). -/
def persCount (s : State) (o : Nat) : Nat :=
  if s.stateOf blkOCTET o ≤ 1 then s.rd OCTET.PERS_CTRL o else s.rd OCTET.PERS_ACTIVE o

/-- The positions of R69. -/
def posOk (pos pers : Nat) : Bool :=
  match pers with
  | 0 => true
  | 1 => decide (pos < 8)
  | 2 => true
  | 3 => true
  | 4 => decide (14 ≤ pos)
  | _ => false

/-- The octets of an x16 pair agree (R75): what an octet's value asks of the other one. -/
def pairOk (pos w other : Nat) : Bool :=
  if persIn w = 1 ∧ 2 ≤ hsplitIn w then
    hsplitIn w == 2 + pos % 2 && persIn other == 1 && hsplitIn other == 3 - pos % 2
  else true

/-- The other octet of a pair. -/
def mate (o : Nat) : Nat := if o % 2 = 0 then o + 1 else o - 1

/-- R73: the check of an UP with a value: 0, 0x49 POS_INVALID or 0x48 PERS_LIMIT. -/
def upCheck (s : State) (o w : Nat) : Nat :=
  let pos := o % 16
  let other := persCount s (mate o)
  let at_ := fun (n : Nat) => if n = o then w else persCount s n
  let die := (List.range 16).map (fun i => at_ (16 * (o / 16) + i))
  let ts := ((List.range 128).filter (fun n => persIn (at_ n) == 4)).length
  if !posOk pos (persIn w) || (persIn w == 2 && bits w 9 8 == 3) then 0x49
  else if pos < 8 && (!pairOk pos w other || !pairOk (mate o % 16) other w) then 0x49
  else if persIn w = 2 ∧ 4 < (die.filter (fun v => persIn v == 2)).length then 0x48
  else if ts = 1 then 0x48
  else 0

/-- The host ports of an octet's number, the lower octet's for half of an x16 pair. -/
def hostPorts (s : State) (o : Nat) : List Nat :=
  if persOf s o ≠ 1 then []
  else
    match hsplitOf s o with
    | 1 => [portOfOctet o 0, portOfOctet o 1]
    | 3 => [portOfOctet (o - 1) 0]
    | _ => [portOfOctet o 0]

/-- The Ethernet ports of a half by its mode: first lane positions (R82). -/
def halfPorts (mode : Nat) : List Nat :=
  match mode with
  | 0 => []
  | 1 => [0]
  | 2 => [0]
  | 3 => [0, 2]
  | 4 => [0, 1, 2, 3]
  | 5 => [0, 1, 2, 3]
  | 6 => [0, 1, 2, 3]
  | 7 => [0, 1, 2, 3]
  | _ => []

/-- The Ethernet ports of an octet. -/
def ethPorts (s : State) (o : Nat) : List Nat :=
  let m := s.rd EMAC.MODE o
  halfPorts (bits m 3 0) ++ (if bits m 3 0 = 1 then [] else (halfPorts (bits m 7 4)).map (· + 4))

/-- Root ports of a D octet (R84). -/
def dports (s : State) (o : Nat) : Nat := match dsplitOf s o with | 0 => 1 | 1 => 2 | _ => 4

/-- Frames that wait at a port whose link is lost are dropped; their senders' items complete with EGRESS_DOWN (R117). -/
def dropTx (s : State) (port : Nat) : State :=
  let fs := Tbl.getD s.txq port []
  let s := { s with txq := Tbl.del s.txq port }
  fs.foldl (fun (s : State) (f : List Byte × Option (Nat × BitVec 16)) =>
    if wantsStamp s f.2 then
      match f.2 with
      | some (k, idx) => flushItems (updItem s k idx (fun i => { i with fate := some (0x0A, 0), waitPort := none })) k
      | none => s
    else s) s

/-- A port of an E or D octet comes up (R74, R86, R87). -/
def portUp (s : State) (o k gen width : Nat) : State :=
  let up := Tbl.getD s.octUp o []
  if s.stateOf blkOCTET o < 3 ∨ up.contains k then s
  else
    match persOf s o with
    | 1 => match hostPorts s o with
      | [p] => if k = 0 then linkTrained p gen width (gen == 6) s else s
      | ps => if k < ps.length then linkTrained (ps.getD k 0) gen width (gen == 6) s else s
    | 2 =>
      if dports s o ≤ k then s
      else
        let s := (s.wr DPORT.DLLA o (s.rd DPORT.DLLA o ||| 2 ^ k)).wr DPORT.LINK o (min gen (s.rd DPORT.MAX_GEN o) + width * 16) k
        octPortUp (s.istat blkDPORT o 0) o k
    | 3 =>
      if !(ethPorts s o).contains k then s
      else octPortUp ((s.wr EMAC.LINK_UP o (s.rd EMAC.LINK_UP o ||| 2 ^ k)).istat blkEMAC o 0) o k
    | 4 => if k = 0 then linkLocked (octPortUp s o 0) (linkOfOctet o) else s
    | _ => s

/-- A port of an octet goes down (R74, R86, R87, R391); `lost`: not by a DOWN command. -/
def portDown (s : State) (o k : Nat) (lost : Bool) : State :=
  if persOf s o = 1 then
    match hostPorts s o with
    | [p] => if k = 0 then leaveL0 p s else s
    | ps => if k < ps.length then leaveL0 (ps.getD k 0) s else s
  else if !(Tbl.getD s.octUp o []).contains k then s
  else
    let s := octPortDown s o k
    match persOf s o with
    | 2 =>
      let v := s.rd DPORT.DLLA o
      let s := ((s.wr DPORT.DLLA o (v - (v &&& 2 ^ k))).wr DPORT.LINK o 0 k).istat blkDPORT o 0
      backingPortDown (if lost then s.bumpErr blkDPORT o 0 else s) o k
    | 3 =>
      let v := s.rd EMAC.LINK_UP o
      let s := (s.wr EMAC.LINK_UP o (v - (v &&& 2 ^ k))).istat blkEMAC o 0
      dropTx (if lost then s.bumpErr blkEMAC o 1 else s) (8 * o + k)
    | 4 => linkDown s (linkOfOctet o)
    | _ => s

def execPortLinkUp (octet : Fin 128) (k : Fin 8) (gen width : BitVec 4) (s : State) : Host.Outcome State Fault Refusal :=
  ok (portUp s octet.val k.val gen.toNat width.toNat)
def execPortLinkDown (octet : Fin 128) (k : Fin 8) (s : State) : Host.Outcome State Fault Refusal :=
  ok (portDown s octet.val k.val true)

/-- An octet is taken DOWN (R74): every port down; attached host ports through removal. -/
def octetDown (s : State) (o : Nat) : State :=
  if s.stateOf blkOCTET o ≤ 1 then s
  else
    let hp := hostPorts s o
    let s := if hp = [] then (Tbl.getD s.octUp o []).foldl (fun (s : State) (k : Nat) => portDown s o k false) s else s
    let s := setOct { s with octUp := Tbl.del s.octUp o } o 1
    hp.foldl (fun (s : State) (p : Nat) => (removal (hostLink s p false) p).setState blkHPORT p 1) s

/-- An octet takes a personality and starts its calibration (R74). -/
def startCal (s : State) (o w : Nat) : State :=
  let s := ((s.wr OCTET.PERS_ACTIVE o w).wr OCTET.LANE_CALSTAT o 0).wr EMAC.LINK_UP o 0
  let s := setOct s o 2
  settlePair ((hostPorts s o).foldl (fun (s : State) (p : Nat) => s.setState blkHPORT p 1) s)

/-- The ports of an octet that has no personality any more show nothing. -/
def octetOff (s : State) (o : Nat) : State :=
  let s := (hostPorts s o).foldl (fun (s : State) (p : Nat) => s.setState blkHPORT p 0) s
  settlePair (setOct ((s.wr OCTET.PERS_ACTIVE o 0).wr OCTET.LANE_CALSTAT o 0) o 0)

/-- R73, R74: UP. -/
def cmdUp (c : CmdCtx) (s : State) : CmdRes :=
  let o := c.inst
  let st := s.stateOf blkOCTET o
  let w := s.rd OCTET.PERS_CTRL o
  if 1 < st then .fail s 0x47
  else if st = 0 ∧ persIn w = 0 then .done s
  else
    let r := upCheck s o w
    if r ≠ 0 then .fail (s.bumpErr blkOCTET o 0) r
    else if persIn w = 0 then .done (octetOff s o)
    else .done (startCal s o w)

def cmdDown (c : CmdCtx) (s : State) : CmdRes :=
  if s.stateOf blkOCTET c.inst ≤ 1 then .fail s 0x47 else .done (octetDown s c.inst)

/-- R74: RECAL ends when the calibration does. -/
def cmdRecal (c : CmdCtx) (s : State) : CmdRes := if s.stateOf blkOCTET c.inst ≠ 1 then .fail s 0x47 else .later s

def execUp (c : CmdIn) (s : State) : Host.Outcome State Fault Refusal := ok (pageCommand blkOCTET 0x01 cmdUp c s)
def execDown (c : CmdIn) (s : State) : Host.Outcome State Fault Refusal := ok (pageCommand blkOCTET 0x02 cmdDown c s)
def execRecal (c : CmdIn) (s : State) : Host.Outcome State Fault Refusal := ok (pageCommand blkOCTET 0x03 cmdRecal c s)

/-- A calibration has measured the lanes of an octet (R26, R74). -/
def lanesMeasured (s : State) (o good : Nat) (offsets : List Word) : State :=
  let s := (List.range 8).foldl (fun (s : State) (k : Nat) =>
    if bit good k then s.wr OCTET.LANE_OFFSET o (offsets.getD k 0).toNat k else s) s
  let s := s.wr OCTET.LANE_CALSTAT o good
  if good = 0xFF then s else s.istat blkOCTET o 2

/-- A host port of an octet that has come to TRAINING: a cable that is present attaches (R78, R80, R96). -/
def hostTraining (s : State) (p : Nat) : State :=
  let h := hportOf s p
  let s := s.setState blkHPORT p (idlePort s p)
  if octetsReady s p && pinServed s p && presentPin s p && h.debounce.isNone && (h.quar == 0 || h.quar == 2) then attach s p else s

/-- R74: a calibration ends: of an octet in CAL, or of a RECAL. -/
def calComplete (o good : Nat) (offsets : List Word) (s : State) : State :=
  match s.stateOf blkOCTET o with
  | 2 =>
    let s := setOct (lanesMeasured s o good offsets) o 3
    (hostPorts s o).foldl hostTraining s
  | 1 => match waitingCmd s blkOCTET o 0x03 with
    | some _ => endWaiting (lanesMeasured s o good offsets) blkOCTET o 0x03 0
    | none => s
  | _ => s

def execOctetCalComplete (octet : Fin 128) (good : BitVec 8) (offsets : List Word) (s : State) : Host.Outcome State Fault Refusal :=
  ok (calComplete octet.val good.toNat offsets s)

/-! ## Requests of downstream devices (R84, R87) -/

/-- An inbound window as opened: first and last address. -/
def inbound (s : State) (o k w : Nat) : Nat × Nat :=
  let i := 4 * (4 * k + w)
  (s.rd64 DPORT.IW o i / 4096 * 4096, s.rd64 DPORT.IW o (i + 2) / 4096 * 4096 + 4095)

/-- The number under which a root port's completions leave: beyond the host ports. -/
def dportNumber (o k : Nat) : Nat := 128 + 4 * o + k

/-- R84: a request within a window reaches device memory; another, or one of no open row of the map, is unsupported. -/
def inboundRequest (o k addr len : Nat) (write : Option (List Byte)) (s : State) : State :=
  if persOf s o ≠ 2 ∨ !(Tbl.getD s.octUp o []).contains k then s
  else
    let n := match write with | some bs => bs.length | none => len
    let hit := (List.range 4).any (fun w => let r := inbound s o k w; decide (r.1 ≤ addr) && decide (addr + n ≤ r.2 + 1))
    let refuse := fun (s : State) => if write.isNone then s.emit (.completion (dportNumber o k) 1 []) else s
    if !hit then refuse (s.bumpErr blkDPORT o 1)
    else if devAny s addr n ≠ 0 then refuse s
    else
      match write with
      | some bs => s.memPut addr bs
      | none => s.emit (.completion (dportNumber o k) 0 (Memory.readBytes s.mem addr n))

def execDportInboundRequest (octet : Fin 128) (k : Fin 4) (addr : Dword) (len : Nat) (write : Option (List Byte)) (s : State) :
    Host.Outcome State Fault Refusal :=
  ok (inboundRequest octet.val k.val addr.toNat len write s)

end Sys2Proof.Machine
end

