-- ==== Sys2Proof/Machine/Boot.lean ====
section
/-! DEFINITION. Boot: power, the loader, the stages, the release of the harts, the BOOT page and the update of the slots
(R295, R402 to R417, R421, R449, R455). -/

namespace Sys2Proof.Machine

/-! ## Manifests (R406) -/

/-- Qword `i` of a manifest, and bits of it. -/
def mq (m : List Byte) (i : Nat) : Nat := leNat (cut m (8 * i) 8)

/-- Of stage `k` (1 to 4): offset in the slot, length, first digest, load address, entry point. -/
def stOffset (m : List Byte) (k : Nat) : Nat := bits (mq m (4 * k)) 63 32
def stLen (m : List Byte) (k : Nat) : Nat := bits (mq m (4 * k + 1)) 31 0
def stDigest (m : List Byte) (k : Nat) : Nat := bits (mq m (4 * k + 1)) 63 32
def stLoad (m : List Byte) (k : Nat) : Nat := mq m (4 * k + 2)
def stEntry (m : List Byte) (k : Nat) : Nat := mq m (4 * k + 3)
def manSvn (m : List Byte) : Nat := bits (mq m 1) 31 0
def manRaise (m : List Byte) : Bool := bit (mq m 0) 42

/-- Blocks of 64 KiB of a stage, and the true length of one. -/
def stBlocks (m : List Byte) (k : Nat) : Nat := (stLen m k + 65535) / 65536
def blockLen (m : List Byte) (k b : Nat) : Nat := min 65536 (stLen m k - 65536 * b)

/-- Where the digest list ends. -/
def listEnd (m : List Byte) : Nat := 160 + 48 * ([1, 2, 3, 4].map (stBlocks m)).sum

/-- A stage is within its limits and its LOAD_ADDR where R406 puts it. -/
def stageOk (m : List Byte) (k : Nat) : Bool :=
  let a := stLoad m k
  let n := stLen m k
  let within := fun (lo hi : Nat) => decide (lo ≤ a) && decide (a + n ≤ hi)
  mq m (4 * k) % 256 == k && stOffset m k % 65536 == 0 && n != 0 &&
    decide (160 + 48 * (stDigest m k + stBlocks m k) ≤ listEnd m) &&
    (match k with
     | 1 => decide (n ≤ 0x100000) && within 0x40000000 0x40800000
     | 2 => decide (n ≤ 0x400000) && within 0x40000000 0x40800000
     | 3 => decide (n ≤ 0x6000000) && within 0x1000000000 0x2800000000
     | _ => decide (n ≤ 0x40000) && within 0x40700000 0x40800000)

/-- The public keys of a manifest as stored, and the bytes that its signatures cover. -/
def ecKey (m : List Byte) : List Byte := cut m (listEnd m) 97
def mlKey (m : List Byte) : List Byte := cut m (listEnd m + 104) 2592
def signedPart (m : List Byte) : List Byte := m.take (listEnd m + 2696)

/-- R407 step 2: 0, or the code of R416. -/
def manifestCheck (b : Boot) (m : List Byte) : Nat :=
  let key := bits (mq m 0) 41 40
  if bits (mq m 0) 31 0 ≠ 0x4D484D46 ∨ bits (mq m 0) 39 32 ≠ 1 ∨ bits (mq m 0) 55 48 ≠ 4 ∨ mq m 3 % 65536 ≠ 0x4096 ∨
      m.length ≠ bits (mq m 1) 63 32 ∨ 131072 < m.length ∨ m.length < listEnd m + 7419 ∨
      !([1, 2, 3, 4].all (stageOk m)) then 0x03
  else if b.keyHash.getD key 0 ≠ Config.sha384 (ecKey m ++ mlKey m) ∨ bit b.revoked.toNat key ∨
      !Config.signatureGood (ecKey m) (signedPart m) (cut m (listEnd m + 2696) 96) ∨
      !Config.signatureGood (mlKey m) (signedPart m) (cut m (listEnd m + 2792) 4627) then 0x04
  else if manSvn m < minSvn b then 0x05
  else 0

/-- A block has its true length and its digest (R407). -/
def blockOk (m : List Byte) (k i : Nat) (bytes : List Byte) : Bool :=
  bytes.length == blockLen m k i &&
    Config.sha384 bytes == BitVec.ofNat 384 (leNat (cut m (160 + 48 * (stDigest m k + i)) 48))

/-! ## Stages 1 and 2 (R415, R417, R419) -/

/-- Every block of a stage has matched. -/
def stageLoaded (b : Boot) (k : Nat) : Bool :=
  b.manifest != [] && (List.range (stBlocks b.manifest k)).all (fun i => b.blocks.contains (k, i))

/-- The digest of a stage as it stands at LOAD_ADDR. -/
def stageDigest (s : State) (k : Nat) : BitVec 384 :=
  Config.sha384 (Memory.readBytes s.mem (stLoad s.boot.manifest k) (stLen s.boot.manifest k))

def setMeasure (s : State) (i : Nat) (v : BitVec 384) : State :=
  { s with boot := { s.boot with measures := Tbl.put s.boot.measures i v } }

/-- A measurement of what the manual does not lay out: ROM, fuse state, debug. -/
def freshMeasure (s : State) (i : Nat) : State := let (v, s) := s.fresh 384; setMeasure s i v

/-- Stage 1 (R415 step 3): measurements, key derivation, the import key pair. -/
def stage1 (s : State) : State :=
  let s := setMeasure (setMeasure (freshMeasure s 1) 2 (stageDigest s 1)) 3 (stageDigest s 2)
  let s := freshMeasure (setMeasure (setMeasure s 5 (stageDigest s 4)) 6 (Config.sha384 s.boot.manifest)) 7
  let (v, s) := s.fresh 384
  { s with dax := { s.dax with priv := v.toNat, attested := true, storage := true } }

/-- The DIMMs of a channel. -/
def dimms (c : Nat) : List (Nat × Bool) := [Config.dimm c 0, Config.dimm c 1].filter (fun d => d.1 != 0)

/-- The populated channels of an accepted DDR5 population (R347); none of any other. -/
def ddrChannels : Option (List Nat) :=
  let used := (List.range 8).filter (fun c => dimms c != [])
  let good := fun (c : Nat) => match dimms c with
    | [a] => Config.dimm c 0 == a && [16, 32, 64].contains a.1
    | [a, b] => a == b && [16, 32, 64].contains a.1
    | _ => false
  if (used == List.range 8 || used == List.range 4) && used.all (fun c => good c && dimms c == dimms 0) then some used else none

/-- A channel shows its DIMMs (R356). -/
def showChannel (s : State) (c : Nat) : State :=
  let ds := dimms c
  let cfg := (ds.getD 0 (0, false)).1 + 256 * (ds.getD 1 (0, false)).1 + 65536 * (if (ds.getD 0 (0, false)).2 then 2 else 1)
  (((s.wr DDRC.CAPACITY c ((ds.map Prod.fst).sum)).wr DDRC.DIMM_CFG c cfg).setState blkDDRC c 3)

/-- Stage 2 trains the memories (R346, R347, R353). -/
def trainMemories (s : State) : State :=
  let s := (List.range 4).foldl (fun (s : State) (i : Nat) => (s.wr HBMC.CAPACITY i 24).setState blkHBMC i 3) s
  let answered := ((List.range 16).map (fun n => if (Config.dimm (n / 2) (n % 2)).1 = 0 then 0 else 2 ^ n)).sum
  let s := s.wr MGMT.SPD_STAT 0 answered
  match ddrChannels with
  | some cs =>
    let total := ((cs.map (fun c => ((dimms c).map Prod.fst).sum)).sum) * 2 ^ 30
    (cs.foldl showChannel s).wr64 MEMENC.DDR_USABLE 0 (total / 16 * 15)
  | none => bootLog s 2 0 answered

/-- Qwords of the configuration record (R415). -/
def cfgQ (s : State) (i : Nat) : Nat := qw (s.memGetQ (stLoad s.boot.manifest 4 + 8 * i) 1) 0
def cfgOctet (s : State) (o : Nat) : Nat := bits (cfgQ s (1 + o / 2)) (32 * (o % 2) + 31) (32 * (o % 2))

/-- A control port of the record takes its CF_SEL. -/
def takeControl (s : State) (port sel : Nat) (en : Bool) : State :=
  if en then s.wr HPORT.FUNC_CTRL port (s.rd HPORT.FUNC_CTRL port % 16 + 16 * sel) else s

/-- UP by stage 2 for an octet that the record gives a personality (R73, R74). -/
def stage2Up (s : State) (o : Nat) : State :=
  let w := s.rd OCTET.PERS_CTRL o
  if s.stateOf blkOCTET o ≠ 0 ∨ persIn w = 0 then s
  else if upCheck s o w = 0 then startCal s o w
  else bootLog (s.bumpErr blkOCTET o 0) 2 (upCheck s o w) o

/-- Stage 2 applies the record. -/
def applyConfig (s : State) : State :=
  let q := cfgQ s 0
  let s := { s with boot := { s.boot with cfMsix := bits q 34 24 } }
  let s := (List.range 128).foldl (fun (s : State) (o : Nat) =>
    (s.wr OCTET.PERS_CTRL o (cfgOctet s o &&& 0x337)).wr EMAC.MODE o (bits (cfgOctet s o) 23 16)) s
  let s := takeControl (takeControl s (bits q 14 8) 1 (bit q 15)) (bits q 22 16) 2 (bit q 23)
  (List.range 128).foldl stage2Up s

/-- Stage 2 (R415 step 4). -/
def stage2 (s : State) : State :=
  let q := cfgQ s 0
  if q % 256 ≠ 1 ∨ bits q 34 24 = 0 then bootFail s 0x22
  else if !Config.hbmTrains then bootFail s 0x20
  else
    let s := applyConfig (trainMemories s)
    { s with boot := { s.boot with stage := 2 } }

/-- Stages 1, 2 and 4 have matched: stage 1 starts, a TRIAL slot pays an attempt first (R407, R411). -/
def runStages (s : State) : State :=
  let b := s.boot
  let f := b.slots.getD b.slot {}
  let s := if b.trial ∧ b.source ≤ 2 then
      { s with boot := { b with slots := listSet b.slots b.slot { f with attempts := clearLowest f.attempts } } }
    else s
  let s := { s with boot := { s.boot with stage := 1 } }
  if !s.dax.drbgOk then bootFail s 0x10 else stage2 (stage1 s)

/-- Stage 3 has matched: it lies in a SECURE region of HBM (R352, R415 step 5). -/
def finishStage3 (s : State) : State :=
  let b := stLoad s.boot.manifest 3
  let s := { s with regions := Tbl.put s.regions 2 [dw (b / 4096 * 4096), dw (b + stLen s.boot.manifest 3 - 1), 3] }
  let s := setMeasure s 4 (stageDigest s 3)
  { s with boot := { s.boot with stage := 3 } }

/-! ## The loader (R407 to R410) -/

/-- Boot takes data: powered, not held, not halted, harts not released. -/
def booting (s : State) : Bool :=
  s.flt.started && s.pwr.pwrgood && !s.pwr.held && !s.flt.halt && s.boot.source != 0 && s.boot.stage < 3

def takeManifest (bytes : List Byte) (s : State) : State :=
  if s.boot.manifest != [] then s
  else
    let r := manifestCheck s.boot bytes
    if r ≠ 0 then bootFail s r else { s with boot := { s.boot with manifest := bytes } }

/-- A block arrives: made visible when it matches. -/
def takeBlock (k i : Nat) (bytes : List Byte) (s : State) : State :=
  let m := s.boot.manifest
  if m = [] ∨ 4 < k ∨ stBlocks m k ≤ i ∨ s.boot.blocks.contains (k, i) ∨ (k = 3 ∧ s.boot.stage < 2) then s
  else if !blockOk m k i bytes then bootFail s (if k = 3 then 0x30 else 0x06)
  else
    let s := { s with boot := { s.boot with blocks := s.boot.blocks ++ [(k, i)] } }.memPut (stLoad m k + 65536 * i) bytes
    if s.boot.stage = 0 then
      (if stageLoaded s.boot 1 && stageLoaded s.boot 2 && stageLoaded s.boot 4 then runStages s else s)
    else if s.boot.stage = 2 && stageLoaded s.boot 3 then finishStage3 s
    else s

/-- R407: the loader receives the manifest (stage 0) or a block from a flash or the twin; a push is taken from what
RECOV_WRITE has stored. -/
def loaderBlock (source : Nat) (slotB : Bool) (stage block : Nat) (bytes : List Byte) (s : State) : State :=
  if !booting s || source != s.boot.source || s.boot.pushOpen || source == 3 || source == 4 then s
  else if source ≤ 2 ∧ slotB ≠ (s.boot.slot % 2 == 1) then s
  else if stage = 0 then takeManifest bytes s
  else takeBlock stage block bytes s

/-- Bytes of the pushed image, when every unit of them has arrived. -/
def pushBytes (t : Tbl (List Dword)) (at_ n : Nat) : Option (List Byte) :=
  let us := (List.range ((at_ % 64 + n + 63) / 64)).map (fun i => Tbl.get? t (at_ / 64 + i))
  if us.all Option.isSome then some (((us.flatMap (fun u => qwBytes (u.getD []))).drop (at_ % 64)).take n) else none

/-- The push source still runs. -/
def pushing (s : State) : Bool := booting s && s.boot.pushOpen

/-- A block of the pushed image, if it is there and waits to be checked. -/
def pushBlock (k : Nat) (s : State) (i : Nat) : State :=
  let m := s.boot.manifest
  if !pushing s || (k == 3 && s.boot.stage < 2) || s.boot.blocks.contains (k, i) then s
  else match pushBytes s.boot.push (stOffset m k + 65536 * i) (blockLen m k i) with
    | some bs => takeBlock k i bs s
    | none => s

/-- What the pushed image holds so far is checked (R407, R410). -/
def pushCheck (s : State) : State :=
  let s := if s.boot.manifest = [] then
      match pushBytes s.boot.push 0x1000 16 with
      | some h => match pushBytes s.boot.push 0x1000 (min 131072 (bits (mq h 1) 63 32)) with
        | some bs => takeManifest bs s
        | none => s
      | none => s
    else s
  if s.boot.manifest = [] then s
  else [1, 2, 4, 3].foldl (fun (s : State) (k : Nat) => (List.range (stBlocks s.boot.manifest k)).foldl (pushBlock k) s) s

/-- A 64-byte unit belongs to stage 3. -/
def inStage3 (m : List Byte) (u : Nat) : Bool :=
  m != [] && decide (stOffset m 3 ≤ 64 * u) && decide (64 * u < stOffset m 3 + stLen m 3)

def cmdRecovWrite (c : CmdCtx) (s : State) : CmdRes :=
  if !pushing s ∨ (inStage3 s.boot.manifest c.a0 && s.boot.stage < 2) then .fail s 0x41
  else .done (pushCheck { s with boot := { s.boot with push := Tbl.put s.boot.push c.a0 c.d } })

/-- R410: the push is complete; an image that is not whole fails (R409). -/
def cmdRecovDone (_ : CmdCtx) (s : State) : CmdRes :=
  if !s.boot.pushOpen ∨ s.flt.halt then .fail s 0x41
  else if s.boot.stage = 3 then .done { s with boot := { s.boot with pushOpen := false } }
  else .done (bootFail s (if 1 ≤ s.boot.stage then 0x30 else 0x06))

/-- R409: a push has not ended within RECOV_WAIT. -/
def recovWait (s : State) : State :=
  if !s.boot.pushOpen ∨ s.flt.halt ∨ !s.flt.started then s
  else
    let s := s.reach (s.boot.srcAt + 60000000000)
    bootFail { s with boot := { s.boot with pushOpen := false } } (if 1 ≤ s.boot.stage then 0x30 else 0x01)

/-- R409: the twin has not started sending. -/
def twinWait (s : State) : State :=
  if !booting s ∨ s.boot.source ≠ 5 ∨ s.boot.manifest ≠ [] then s
  else bootFail (s.reach (s.boot.srcAt + 5000000000)) 0x01

def execLoaderBlockRx (source : BitVec 3) (slotB : Bool) (stage : BitVec 3) (block : Nat) (bytes : List Byte) (s : State) :
    Host.Outcome State Fault Refusal := ok (loaderBlock source.toNat slotB stage.toNat block bytes s)
def execRecovWrite (c : CmdIn) (s : State) : Host.Outcome State Fault Refusal := ok (pageCommand blkBOOT 0x03 cmdRecovWrite c s)
def execRecovDone (c : CmdIn) (s : State) : Host.Outcome State Fault Refusal := ok (pageCommand blkBOOT 0x04 cmdRecovDone c s)
def execRecovWaitExpiry (s : State) : Host.Outcome State Fault Refusal := ok (recovWait s)
def execTwinSourceWaitExpiry (s : State) : Host.Outcome State Fault Refusal := ok (twinWait s)

/-! ## Harts released (R321, R415 step 6) -/

/-- Every page enabled; the HUB page locked. -/
def enablePages (s : State) : State :=
  let s := sourceTable.foldl (fun (s : State) (r : Nat × Nat × Nat) => (List.range r.2.1).foldl (fun (s : State) (i : Nat) =>
    s.hdw r.1 i 0x08 (s.hd r.1 i 0x08 ||| 1)) s) s
  s.hdw blkHUB 0 0x08 (s.hd blkHUB 0 0x08 ||| 0x80000000)

/-- Host ports whose links were held down train (R96). -/
def portsTrain (s : State) : State :=
  (List.range 128).foldl (fun (s : State) (p : Nat) =>
    if portUsed s p && s.stateOf blkHPORT p == 1 then s.setState blkHPORT p (idlePort s p) else s) s

/-- The boot sequencer's last step (R415): pages enabled, ports training, the push closed, BOOT_TIME taken. -/
def enterService (s : State) : State :=
  let s := portsTrain (enablePages s)
  let s := { s with boot := { s.boot with stage := 5, pushOpen := false } }
  s.wr BOOT.BOOT_TIME 0 ((s.ns - s.boot.riseAt) / 1000)

/-- The release of the harts (R415): each starts at stage 3's entry, but for those of a FAULTED tile. -/
def hartRelease (s : State) : State :=
  if s.boot.stage ≠ 3 ∨ s.flt.halt then s
  else
    let entry := stEntry s.boot.manifest 3
    (List.range 1024).foldl (fun (s : State) (h : Nat) =>
      if s.faulted.contains (State.pk blkTILE (tileOf h)) then s else startHart s h entry 0) (enterService s)

def execHartRelease (s : State) : Host.Outcome State Fault Refusal := ok (hartRelease s)

/-! ## Power (R415, R438, R449, R455) -/

/-- Nominal mV of a rail (R445), and whether its last reading is below warning or at its reset level (R437). -/
def nominalMv (ch : Nat) : Nat :=
  if ch < 12 then 750 else if ch < 20 then 900
  else ([750, 750, 1200, 1100, 400, 1800, 800, 1100, 900, 1800, 1800, 750]).getD (ch - 20) 0
def railLow (s : State) (ch : Nat) : Bool :=
  match Tbl.get? s.pwr.railMv ch with | some mv => decide (mv * 100 < nominalMv ch * 95) | none => false
def railsLow (s : State) : Bool := (List.range 32).any (railLow s)

/-- Stage 0 starts; a rail that reached its reset level meanwhile is reported (R449). -/
def powerStart (s : State) : State :=
  let pend := s.pwr.railPend
  let s := bootStart { s with pwr := { s.pwr with held := false, clearAt := none, railPend := false } }
  if pend then raiseFault s 0x007 else s

def pwrgoodRise (bootSel : Nat) (testMode : Bool) (s : State) : State :=
  if s.pwr.pwrgood then s
  else
    let s := if s.pwr.cycled then { s with now := 0 } else s
    let s := { s with pwr := { s.pwr with pwrgood := true, cycled := false, straps := BitVec.ofNat 4 (bootSel + 8 * b2n testMode) } }
    if s.flt.haltSealed then s
    else if railsLow s then { s with pwr := { s.pwr with held := true, clearAt := none } }.emit (.pin 4 0 0)
    else powerStart s

def pwrgoodRelease (s : State) : State :=
  match s.pwr.clearAt with
  | some t => if s.pwr.held then powerStart (s.reach (t + 1000000)) else s
  | none => s

def pwrgoodFall (s : State) : State :=
  if !s.pwr.pwrgood then s
  else
    let s := deviceReset s
    { s with pwr := { s.pwr with pwrgood := false, held := false, holdEnd := none, clearAt := none, level := 0, straps := 0 },
             flt := { s.flt with started := false, pulseEnd := none } }

/-- R449: only what lives outside the powered dies stands: fuses, flashes, pins, what waits and what has left. -/
def powerCycle (s : State) : State :=
  { State.reset with
    pending := s.pending, free := s.free, out := s.out,
    clk := { ({} : Clock) with ppsOut := s.clk.ppsOut, trefOut := s.clk.trefOut },
    boot := { ({} : Boot) with bootList := s.boot.bootList, keyHash := s.boot.keyHash, revoked := s.boot.revoked,
                               fuseSvn := s.boot.fuseSvn, testFuse := s.boot.testFuse, slots := s.boot.slots,
                               records := s.boot.records },
    pwr := { ({} : Power) with hprsnt := s.pwr.hprsnt, perst := s.pwr.perst },
    twin := { ({} : Twin) with liveIn := s.twin.liveIn },
    flt := { ({} : Faults) with pinShown := s.flt.pinShown } }

def execPwrgoodRise (bootSel : BitVec 3) (testMode : Bool) (s : State) : Host.Outcome State Fault Refusal :=
  ok (pwrgoodRise bootSel.toNat testMode s)
def execPwrgoodHoldRelease (s : State) : Host.Outcome State Fault Refusal := ok (pwrgoodRelease s)
def execPwrgoodFall (s : State) : Host.Outcome State Fault Refusal := ok (pwrgoodFall s)
def execPowerCycle (s : State) : Host.Outcome State Fault Refusal := ok (powerCycle s)

/-! ## Slots (R411 to R414, R421) -/

/-- The flash write of an update fails, as the flash answers. -/
def flashFails (c : CmdCtx) : Bool := qb c.env 0 0 0 == 1

/-- Steps 6 and 8 of R412 on one flash that holds the running image: TRIAL to GOOD, an older slot to BAD. -/
def settleSlot (seq : Nat) (holds : Bool) (f : FSlot) : FSlot :=
  if !holds ∨ (f.state ≠ 0x07 ∧ f.state ≠ 0x03) then f
  else if f.seq = seq then { f with state := 0x03 }
  else if f.seq < seq then { f with state := 0 }
  else f

/-- A flash holds the running image. -/
def flashHolds (slots : List FSlot) (seq flash : Nat) : Bool :=
  [2 * flash, 2 * flash + 1].any (fun i => let f := slots.getD i {}; (f.state == 0x07 || f.state == 0x03) && f.seq == seq)

def cmdSlotGood (c : CmdCtx) (s : State) : CmdRes :=
  let b := s.boot
  let run := b.slots.getD b.slot {}
  if 3 ≤ b.source then .fail s 0x40
  else if flashFails c then .fail (s.bumpErr blkBOOT 0 1) 0x43
  else
    let slots := (b.slots.zipIdx).map (fun f => settleSlot run.seq (flashHolds b.slots run.seq (f.2 / 2)) f.1)
    let raise := manRaise b.manifest && b.records.any (fun r => decide (r.1 < manSvn b.manifest))
    let records := if raise then b.records.map (fun r => if r.1 < manSvn b.manifest then (manSvn b.manifest, r.2 + 1) else r) else b.records
    let demoted := (slots.zip b.slots).any (fun p => p.1.state == 0 && p.2.state != 0)
    let s := { s with boot := { b with slots := slots, records := records } }
    .done (if raise || demoted then s.istat blkBOOT 0 0 else s)

def cmdBootLogRead (c : CmdCtx) (s : State) : CmdRes :=
  .data s ((List.range 4).flatMap (fun i => padQ (s.boot.log.getD (c.a0 + i) []) 2))

def cmdFuseSvn (c : CmdCtx) (s : State) : CmdRes :=
  ckArgs c s 0x3F anyArg <|
    if 32 < c.a0 then .fail s 0x02
    else if minSvn s.boot < c.a0 then .fail s 0x42
    else .done { s with boot := { s.boot with fuseSvn := max s.boot.fuseSvn c.a0 } }

def execSlotGood (c : CmdIn) (s : State) : Host.Outcome State Fault Refusal := ok (pageCommand blkBOOT 0x01 cmdSlotGood c s)
def execBootLogRead (c : CmdIn) (s : State) : Host.Outcome State Fault Refusal := ok (pageCommand blkBOOT 0x02 cmdBootLogRead c s)
def execFuseSvn (c : CmdIn) (s : State) : Host.Outcome State Fault Refusal := ok (pageCommand blkBOOT 0x05 cmdFuseSvn c s)

/-! ## The management controller (R295) -/

/-- Bytes of HBM named by PRP1 and PRP2: where they lie, as two runs. -/
def devPrp (e : List Dword) (n : Nat) : List (Nat × Nat) :=
  let first := min n (4096 - qw e 3 % 4096)
  [(qw e 3, first), (qw e 4, n - first)]

/-- Both runs lie in HBM. -/
def prpInHbm (e : List Dword) (n : Nat) : Bool :=
  (devPrp e n).all (fun r => r.2 == 0 || (decide (0x1000000000 ≤ r.1) && decide (r.1 + r.2 ≤ 0x2800000000)))

def devWrite (s : State) (e : List Dword) (bs : List Byte) : State :=
  let r := devPrp e bs.length
  let first := (r.getD 0 (0, 0)).2
  (s.memPut (qw e 3) (bs.take first)).memPut (qw e 4) (bs.drop first)

def devRead (s : State) (e : List Dword) (n : Nat) : List Byte :=
  (devPrp e n).flatMap (fun r => Memory.readBytes s.mem r.1 r.2)

/-- The completion entry of a management command: no submission ring, so SQHD and the phase tag are 0 (log 36). -/
def mgmtCqe (s : State) (e : List Dword) (status : Nat) : CmdRes :=
  .data s [0, dw (2 ^ 32 * (sqeCid e + 65536 * (2 * status)))]

/-- Verification of a staged image by R407: manifest, then every block of every stage. -/
def imageOk (b : Boot) (img : List Byte) : Bool :=
  let m := cut img 0x1000 (min 131072 (bits (leNat (cut img 0x1008 8)) 63 32))
  manifestCheck b m == 0 && [1, 2, 3, 4].all (fun k => (List.range (stBlocks m k)).all (fun i =>
    blockOk m k i (cut img (stOffset m k + 65536 * i) (blockLen m k i))))

/-- The image slot (0 A, 1 B) that holds the running image; none after a push. -/
def runningSlot (b : Boot) : Option Nat := if b.source = 1 ∨ b.source = 2 then some (b.slot % 2) else none

def mapSlot (b : Boot) (slot : Nat) (f : FSlot → FSlot) : Boot :=
  { b with slots := (b.slots.zipIdx).map (fun x => if x.2 % 2 = slot then f x.1 else x.1) }

/-- Firmware Commit with an action (R295, R412). -/
def fwCommit (action : Nat) (c : CmdCtx) (e : List Dword) (s : State) : CmdRes :=
  let fs := sqeDw e 10 % 8
  let b := s.boot
  if fs ≠ 1 ∧ fs ≠ 2 ∨ runningSlot b = some (fs - 1) then mgmtCqe s e 0x106
  else if flashFails c then mgmtCqe (s.bumpErr blkBOOT 0 1) e 0x06
  else if action = 2 then
    if [0, 1].any (fun f => (b.slots.getD (2 * f + fs - 1) {}).state == 0x0F) then
      mgmtCqe { s with boot := mapSlot b (fs - 1) (fun f => if f.state = 0x0F then { f with state := 0x07 } else f) } e 0
    else mgmtCqe s e 0x107
  else if !imageOk b b.staged then mgmtCqe s e 0x107
  else
    let seq := (b.slots.getD b.slot {}).seq
    let new : FSlot := { state := if action = 1 then 0x07 else 0x0F, attempts := 7, seq := (seq + 1) % 2 ^ 32,
                         svn := manSvn (b.staged.drop 0x1000), len := b.staged.length, image := b.staged }
    mgmtCqe { s with boot := mapSlot b (fs - 1) (fun _ => new) } e 0

/-- An admin command of the management controller. -/
def mgmtAdmin (c : CmdCtx) (s : State) : CmdRes :=
  let e := c.d
  if qb e 0 15 14 ≠ 0 then mgmtCqe s e 0x02
  else
    match qb e 0 7 0 with
    | 0x06 =>
      if sqeDw e 10 % 256 ≠ 1 then mgmtCqe s e 0x02
      else if !prpInHbm e 4096 then mgmtCqe s e 0x04
      else mgmtCqe (devWrite s e (identController 0 4 4)) e 0
    | 0x02 =>
      let n := 4 * (bits (sqeDw e 10) 31 16 + sqeDw e 11 % 65536 * 65536 + 1)
      let page := fields 512 [(0, leBytes 1 (1 + s.boot.slot % 2)),
        (8 + 8 * (s.boot.slot % 2), revisionOf s.boot.manifest),
        (16 - 8 * (s.boot.slot % 2), revisionOf (((s.boot.slots.getD (s.boot.slot ^^^ 1) {}).image).drop 0x1000))]
      let bs := (page.drop (qw e 6)).take n
      if sqeDw e 10 % 256 ≠ 3 then mgmtCqe s e 0x109
      else if !prpInHbm e bs.length then mgmtCqe s e 0x04
      else mgmtCqe (devWrite s e bs) e 0
    | 0x11 =>
      let n := 4 * (sqeDw e 10 + 1)
      let off := 4 * sqeDw e 11
      if off ≠ 0 ∧ off ≠ s.boot.staged.length then mgmtCqe s e 0x02
      else if 8192 - qw e 3 % 4096 < n ∨ !prpInHbm e n then mgmtCqe s e 0x04
      else mgmtCqe { s with boot := { s.boot with staged := (if off = 0 then [] else s.boot.staged) ++ devRead s e n } } e 0
    | 0x10 => if 3 ≤ bits (sqeDw e 10) 5 3 then mgmtCqe s e 0x02 else fwCommit (bits (sqeDw e 10) 5 3) c e s
    | _ => mgmtCqe s e 0x01

/-- The submission entry of a row, when it is given with the command: its opcode and commit action are the row's; an action
above 2 stays. -/
def mgmtEntry (op : Nat) (action : Option Nat) (d : List Dword) : List Dword :=
  if d = [] then []
  else
    let e := listSet (padQ d 8) 0 (dw (qw d 0 / 256 * 256 + op))
    match action with
    | some a => if 3 ≤ bits (sqeDw e 10) 5 3 then e
                else listSet e 5 (dw (qw e 5 - 8 * qb e 5 5 3 + 8 * a))
    | none => e

/-- MGMT_ADMIN's operands with the entry's opcode and Commit Action, which the row gives. -/
def mgmtIn (op : Nat) (action : Option Nat) (c : CmdIn) : CmdIn := { c with data := mgmtEntry op action c.data }

/-- A MGMT_ADMIN row. -/
def mgmtRow (op : Nat) (action : Option Nat) (c : CmdIn) : State → State :=
  pageCommand blkNVME 0x0B mgmtAdmin (mgmtIn op action c)

def execMgmtIdentify (c : CmdIn) (s : State) : Host.Outcome State Fault Refusal := ok (mgmtRow 0x06 none c s)
def execMgmtGetLogPage (c : CmdIn) (s : State) : Host.Outcome State Fault Refusal := ok (mgmtRow 0x02 none c s)
def execFirmwareImageDownload (c : CmdIn) (s : State) : Host.Outcome State Fault Refusal := ok (mgmtRow 0x11 none c s)
def execFirmwareCommitWrite (c : CmdIn) (s : State) : Host.Outcome State Fault Refusal := ok (mgmtRow 0x10 (some 0) c s)
def execFirmwareCommitWriteActivate (c : CmdIn) (s : State) : Host.Outcome State Fault Refusal := ok (mgmtRow 0x10 (some 1) c s)
def execFirmwareCommitActivate (c : CmdIn) (s : State) : Host.Outcome State Fault Refusal := ok (mgmtRow 0x10 (some 2) c s)

end Sys2Proof.Machine
end

