-- ==== Sys2Proof/Machine/Queues.lean ====
section
/-! DEFINITION. Descriptor and payload reads of ring queues, resumes, and the commands of the QMGR page (R109, R114, R116,
R117, R121, R122, R126, R133). -/

namespace Sys2Proof.Machine

/-! ## ETH_SEND (R109, R117, R177) -/

/-- The transport checksum of a frame is computed (L4CSUM): TCP or UDP directly behind its IP header. -/
def fillL4 (bs : List Byte) (l3 : Nat) : List Byte :=
  let v := be bs l3 1 / 16
  let off := if v = 4 then l3 + be bs l3 1 % 16 * 4 else l3 + 40
  let proto := if v = 4 then be bs (l3 + 9) 1 else be bs (l3 + 6) 1
  let seg := if v = 4 then be bs (l3 + 2) 2 - (off - l3) else be bs (l3 + 4) 2
  let at_ := if proto = 6 then off + 16 else off + 6
  if (v ≠ 4 ∧ v ≠ 6) ∨ (proto ≠ 6 ∧ proto ≠ 17) ∨ bs.length < off + seg ∨ seg < 8 then bs
  else
    let bs := overlay bs at_ [0, 0]
    let addrs := if v = 4 then cut bs (l3 + 12) 8 else cut bs (l3 + 8) 32
    let c := checksum (addrs ++ beBytes 2 proto ++ beBytes 4 seg ++ cut bs off seg)
    overlay bs at_ (beBytes 2 (if proto = 17 ∧ c = 0 then 0xFFFF else c))

/-- The offloads of an ETH_SEND (R109), done before the frame is walked (log 26). -/
def offload (e : List Dword) (bs : List Byte) : List Byte :=
  let spec := entSpec e
  let bs := if bit spec 3 then insertAt bs 12 (beBytes 2 0x8100 ++ beBytes 2 (qb e 3 15 0)) else bs
  let l3 := etherAt bs + 2
  let v := be bs l3 1 / 16
  let ip := (be bs (etherAt bs) 2 == 0x0800 && v == 4) || (be bs (etherAt bs) 2 == 0x86DD && v == 6)
  let bs := if bit spec 0 && ip && v == 4 then fixV4Sum bs l3 else bs
  if bit spec 1 && ip then fillL4 bs l3 else bs

/-- The payload of an ETH_SEND is there: the packet enters its pipeline. -/
def ethSend (s : State) (k : Nat) (it : WorkItem) (payload : List Byte) : State :=
  match Tbl.get? s.queues k with
  | none => s
  | some q =>
    let s := updItem s k it.idx (fun i => { i with sent := true })
    ingressVport s (queuePort k) (q.bind % 1024) (offload (it.entries.headD []) payload) false (some (k, it.idx))

/-- New ETH_SEND work items: INLINE ones go at once, the others' payload is read (R114). -/
def startEth (s : State) (k : Nat) (items : List WorkItem) : State :=
  items.foldl (fun (s : State) (i : WorkItem) =>
    if entInline (i.entries.headD []) then ethSend s k i i.payload
    else i.entries.foldl (fun (s : State) (e : List Dword) =>
      s.readPayload (queuePort k) (queueSel k) (qw e 1) (entLen e)) s) s

/-! ## Descriptor reads (R114) -/

/-- New receive entries of a QP in ERROR are flushed; otherwise packets that waited for them go on (R227, R238). -/
def startRecvs (s : State) (k : Nat) (items : List WorkItem) : State :=
  let bad := match (Tbl.get? s.queues k).bind (fun r => Tbl.get? s.qps r.bind) with | some q => q.state == 4 | none => false
  if bad then items.foldl (fun (s : State) (i : WorkItem) => setFate s k i.idx 0x1F 0) s else replayStalled s k

/-- Slots arrive for a ring queue: the work items they make start. A failed read is made again (log 33); a ring in device
memory is read there. -/
def ringSlots (k : Nat) (slots : Option (List (List Dword))) (s : State) : State :=
  match Tbl.get? s.queues k with
  | none => s
  | some q =>
    if !q.reading then s
    else
      match slots with
      | none => pull (setQueue s k { q with reading := false }) k
      | some es =>
        let es := if q.devmem then
            (List.range 32).map (fun i => s.memGetQ (q.base + 32 * ((q.u.toNat + i) % 2 ^ q.log2)) 4)
          else es
        match takeSlots s k es with
        | (s, items) =>
          match q.kind with
          | 0 => startEth s k items
          | 1 => placeWaiting k q.rxWait.length s
          | 2 => startSends s k items
          | 3 => startRecvs s k items
          | _ => s

/-- R362: the completion of a squashed read comes late: discarded and counted. -/
def lateRead (s : State) (k : Nat) : State :=
  match Tbl.getD s.lateReads k 0 with
  | 0 => s
  | 1 => { s with lateReads := Tbl.del s.lateReads k }.bumpErr blkTENANT 0 0
  | n => { s with lateReads := Tbl.put s.lateReads k (n - 1) }.bumpErr blkTENANT 0 0

/-- R114: a descriptor read returns. -/
def descriptorRead (q : QRef) (slots : Option (List (List Dword))) (s : State) : State :=
  match q with
  | .dma ch => dmaSlots ch.val slots s
  | .fn _ _ _ =>
    if ((Tbl.get? s.queues (qkey q)).map (fun x => x.reading)).getD false then ringSlots (qkey q) slots s
    else lateRead s (qkey q)
  | .prov _ _ => ringSlots (qkey q) slots s

def execDescriptorReadComplete (q : QRef) (slots : Option (List (List Dword))) (s : State) : Host.Outcome State Fault Refusal :=
  ok (descriptorRead q slots s)

/-! ## Payload reads (R116, R117, R137, R247) -/

/-- What a read brought: its bytes, or none for a failed or poisoned one. -/
def ReadEnd.bytes? : ReadEnd → Option (List Byte)
  | .data bs => some bs
  | .failed => none
  | .poisoned => none

/-- The oldest ETH_SEND of a queue whose payload is read. -/
def ethPayload (s : State) (k : Nat) (q : Queue) (data : Option (List Byte)) : State :=
  match q.items.find? (fun i => i.fate.isNone && !i.sent) with
  | none => s
  | some i =>
    match data with
    | some bs => ethSend s k i bs
    | none => setFate s k i.idx 0x02 0

/-- R117: payload arrives for a queue: an ETH_SEND's, a send work request's, or the data of a READ that the QP serves. -/
def payloadRead (q : QRef) (r : ReadEnd) (s : State) : State :=
  match q with
  | .dma ch => dmaData ch.val r s
  | .fn p sel _ =>
    if ((Tbl.get? s.queues (qkey q)).map (fun x => ownReads x + qpReads s x)).getD 0 = 0 then lateRead s (qkey q)
    else
    let s := if r = .poisoned then s.aer p.val sel.toNat 3 else s
    match Tbl.get? s.queues (qkey q) with
    | none => s
    | some x =>
      match x.kind with
      | 0 => ethPayload s (qkey q) x (ReadEnd.bytes? r)
      | 2 =>
        match sendPayload s (qkey q) (ReadEnd.bytes? r) with
        | (s, true) => s
        | (s, false) => (readPayload s x.bind (ReadEnd.bytes? r)).1
      | 3 => (readPayload s x.bind (ReadEnd.bytes? r)).1
      | _ => s
  | .prov _ _ => s

def execPayloadReadComplete (q : QRef) (payload : ReadEnd) (s : State) : Host.Outcome State Fault Refusal :=
  ok (payloadRead q payload s)

/-- A Completion Timeout at a port. -/
def timedOut (s : State) (port sel : Nat) : State := (s.bumpErr blkHPORT port 1).aer port sel 4

/-- R99: a read of host memory times out: reported through AER; the unit that asked treats it as a failed read. -/
def readTimeout (q : QRef) (s : State) : State :=
  let k := qkey q
  match q with
  | .dma ch =>
    let d := dmaOf s ch.val
    if d.reading then dmaSlots ch.val none (timedOut s d.space d.fn)
    else if d.stage = 1 ∧ dSrcSpace d.desc < 128 then dmaData ch.val .failed (timedOut s (dSrcSpace d.desc) (dSrcFn d.desc))
    else if d.stage = 3 then dmaFlushed ch.val false (timedOut s (d.flushing.headD 0) (dDstFn d.desc))
    else s
  | .fn p sel _ =>
    let s := timedOut s p.val sel.toNat
    match Tbl.get? s.queues k with
    | some x => if x.reading then ringSlots k none s else payloadRead q .failed s
    | none => s
  | .prov _ _ => s

def execCompletionTimeout (q : QRef) (s : State) : Host.Outcome State Fault Refusal := ok (readTimeout q s)

/-! ## Resumes (R121) -/

/-- A valid resume at index n. -/
def resumeQueue (s : State) (k : Nat) (n : BitVec 16) : State :=
  match Tbl.get? s.queues k with
  | none => s
  | some q =>
    let s := touchQueue (setQueue s k { q.restart n q.d true with state := 1 }) k
    let s := queueEvent s k 0x05 n.toNat 0
    pull (demand s q.handle).1 k

/-- Why a resume is refused: 1 NOT_ERROR, 2 BAD_INDEX, 3 NO_QUEUE; 0 when it is valid. -/
def resumeBad (s : State) (k : Nat) (n : BitVec 16) : Nat :=
  match Tbl.get? s.queues k with
  | none => 3
  | some q => if q.state ≠ 2 then 1 else if (q.d - q.c).toNat < (n - q.c).toNat then 2 else 0

/-- R121: a tenant writes QC_RESUME. -/
def qcResume (port sel : Nat) (value : Word) (s : State) : State :=
  let f := funcOf s port sel
  let k := fkey port sel * 4096 + f.qcSel.toNat % 4096
  let n := BitVec.ofNat 16 value.toNat
  let r := resumeBad s k n
  let s := setFunc s port sel { f with qcResult := w32 r }
  if r = 0 then resumeQueue s k n else s.bumpErr blkQMGR port 3

def execQcResume (port : Fin 128) (sel : BitVec 12) (value : Word) (s : State) : Host.Outcome State Fault Refusal :=
  ok (barWrite port.val sel.toNat (qcResume port.val sel.toNat value) s)

/-! ## Commands (R122, R126, R133) -/

/-- The queue that ARG0 names: a function's, or a provider ring for selector 0xFFF. -/
def argQueue (c : CmdCtx) : Nat :=
  let sel := bits c.a0 27 16
  if sel = 0xFFF then 2 ^ 32 + c.inst * 4096 + c.a0 % 4096 else fkey c.inst sel * 4096 + c.a0 % 4096

def cmdQCreate (c : CmdCtx) (s : State) : CmdRes :=
  ckArgs c s 0x0FFF0FFF 0xF07 <|
    let sel := bits c.a0 27 16
    let kind := c.a1 % 8
    let log2 := bits c.a1 11 8
    let k := argQueue c
    let prov := sel == 0xFFF
    let base := qw c.d 0
    let bind := qb c.d 1 23 0
    let pin := qb c.d 1 33 32
    let er := ekey c.inst sel (qb c.d 1 43 40)
    if qwRsvd c.d [2 ^ 64 - 1, 0x10F0300FFFFFF] then .fail s 0x03
    else if kind = 4 ∨ 5 < kind ∨ log2 < 6 ∨ (prov != (kind == 5)) = true ∨ (bit (qw c.d 1) 48 != (kind == 5)) = true ∨
        pin = 3 ∨ (kind ≤ 1 ∧ 1024 ≤ bind) ∨ (kind = 5 ∧ bind ≠ 0) ∨ (!prov ∧ 3840 ≤ c.a0 % 4096) ∨
        (!prov ∧ (Tbl.get? s.rings er).isNone) then .fail s 0x02
    else if (Tbl.get? s.queues k).isSome then .fail s 0x40
    else if !prov ∧ !(pf0Sel sel && funcNamed s c.inst sel) then .fail s 0x42
    else if base % min (32 * 2 ^ log2) 4096 ≠ 0 then .fail s 0x45
    else
      let x := if prov then 4096 else funcOwner s c.inst sel
      match createCtx s 1 1 x pin c.inst with
      | (s, none) => .fail s 0x08
      | (s, some h) =>
        let s := setQueue s k { kind := kind, log2 := log2, base := base, bind := bind, ering := qb c.d 1 43 40,
                                devmem := kind == 5, handle := h, owner := x }
        .data (touchQueue s k) [dw h]

/-- The queue a command names: NO_QUEUE when there is none. -/
def onQueue (c : CmdCtx) (s : State) (f : Nat → Queue → CmdRes) : CmdRes :=
  match Tbl.get? s.queues (argQueue c) with
  | none => .fail s 0x41
  | some q => f (argQueue c) q

def cmdQDestroy (c : CmdCtx) (s : State) : CmdRes :=
  ckArgs c s 0x0FFF0FFF anyArg <| onQueue c s (fun k q =>
    if q.state ≠ 2 ∧ q.state ≠ 3 then .fail s 0x43
    else
      let s := dropWaiting s k 0x09
      .done (destroyCtx { s with queues := Tbl.del s.queues k } q.handle))

def cmdQStop (c : CmdCtx) (s : State) : CmdRes :=
  ckArgs c s 0x0FFF0FFF anyArg <| onQueue c s (fun k q =>
    if q.state ≠ 1 then .fail s 0x43
    else
      let s := checkStopped (setQueue s k { q with stopping := true }) k
      match (Tbl.get? s.queues k).map (fun q => q.state) with
      | some 3 => .done s
      | _ => .later s)

def cmdQStart (c : CmdCtx) (s : State) : CmdRes :=
  ckArgs c s 0x0FFF0FFF anyArg <| onQueue c s (fun k q =>
    if q.state ≠ 3 then .fail s 0x43
    else .done (pull (settleQueue (touchQueue (setQueue s k { q with state := 1 }) k) k) k))

def cmdQResume (c : CmdCtx) (s : State) : CmdRes :=
  ckArgs c s 0x0FFF0FFF 0xFFFF <|
    let k := argQueue c
    let n := BitVec.ofNat 16 c.a1
    match resumeBad s k n with
    | 0 => .done (resumeQueue s k n)
    | 1 => .fail (s.bumpErr blkQMGR c.inst 3) 0x43
    | 2 => .fail (s.bumpErr blkQMGR c.inst 3) 0x44
    | _ => .fail (s.bumpErr blkQMGR c.inst 3) 0x41

def cmdQQuery (c : CmdCtx) (s : State) : CmdRes :=
  ckArgs c s 0x0FFF0FFF anyArg <| onQueue c s (fun _ q =>
    .data s [dw (q.handle + q.c.toNat * 2 ^ 32 + q.d.toNat * 2 ^ 48), dw (q.state + q.cause * 2 ^ 8 + q.fidx.toNat * 2 ^ 16)])

def cmdErCreate (c : CmdCtx) (s : State) : CmdRes :=
  ckArgs c s 0x0FFF000F 0x07FF001F <|
    let sel := bits c.a0 27 16
    let log2 := c.a1 % 32
    let k := ekey c.inst sel (c.a0 % 16)
    let base := qw c.d 0
    if log2 < 6 ∨ 16 < log2 then .fail s 0x02
    else if (Tbl.get? s.rings k).isSome then .fail s 0x40
    else if !(pf0Sel sel && funcNamed s c.inst sel) then .fail s 0x42
    else if base % min (16 * 2 ^ log2) 4096 ≠ 0 then .fail s 0x45
    else .done { s with rings := Tbl.put s.rings k { base := base, log2 := log2, vector := bits c.a1 26 16 } }

def cmdErDestroy (c : CmdCtx) (s : State) : CmdRes :=
  ckArgs c s 0x0FFF000F anyArg <|
    let sel := bits c.a0 27 16
    let r := c.a0 % 16
    let k := ekey c.inst sel r
    if (Tbl.get? s.rings k).isNone then .fail s 0x41
    else if s.queues.any (fun q => !isProv q.1 && queuePort q.1 == c.inst && queueSel q.1 == sel && q.2.ering == r) then .fail s 0x46
    else .done { s with rings := Tbl.del s.rings k }

def execQCreate (c : CmdIn) (s : State) : Host.Outcome State Fault Refusal := ok (pageCommand blkQMGR 0x01 cmdQCreate c s)
def execQDestroy (c : CmdIn) (s : State) : Host.Outcome State Fault Refusal := ok (pageCommand blkQMGR 0x02 cmdQDestroy c s)
def execQStop (c : CmdIn) (s : State) : Host.Outcome State Fault Refusal := ok (pageCommand blkQMGR 0x03 cmdQStop c s)
def execQStart (c : CmdIn) (s : State) : Host.Outcome State Fault Refusal := ok (pageCommand blkQMGR 0x04 cmdQStart c s)
def execQResume (c : CmdIn) (s : State) : Host.Outcome State Fault Refusal := ok (pageCommand blkQMGR 0x05 cmdQResume c s)
def execQQuery (c : CmdIn) (s : State) : Host.Outcome State Fault Refusal := ok (pageCommand blkQMGR 0x06 cmdQQuery c s)
def execErCreate (c : CmdIn) (s : State) : Host.Outcome State Fault Refusal := ok (pageCommand blkQMGR 0x07 cmdErCreate c s)
def execErDestroy (c : CmdIn) (s : State) : Host.Outcome State Fault Refusal := ok (pageCommand blkQMGR 0x08 cmdErDestroy c s)

end Sys2Proof.Machine
end

