-- ==== Sys2Proof/Machine/Trust.lean ====
section
/-! DEFINITION. Daxlia: fuses, tampering, the import key, debug unlock, measurements, SPDM over DOE, JTAG (R402, R417 to R420,
R422). -/

namespace Sys2Proof.Machine

/-- The device runs: powered, not held in reset. -/
def powered (s : State) : Bool := s.pwr.pwrgood && !s.pwr.held

/-- The keys of Daxlia are zeroized: import key, the key slots' storage key, attestation key (R420). Every key slot then fails
its integrity check when it is fetched (log 37). -/
def zeroize (s : State) : State :=
  { s with dax := { s.dax with importKey := none, storage := false, attested := false, chunks := [], priv := 0 },
           slots := Tbl.mapV s.slots (fun _ k => { k with corrupt := true }), cached := [] }

/-! ## Fuses and tampering (R402, R416, R420, R424) -/

def tamperStat (s : State) (n : Nat) : State := s.wr DAXLIA.TAMPER_STAT 0 (s.rd DAXLIA.TAMPER_STAT ||| 2 ^ n)

/-- The fuse array is read again and compared with the shadow. -/
def fuseRecheck (same : Bool) (s : State) : State :=
  if !powered s || same then s else raiseFault (tamperStat s 3) 0x004

/-- The mesh (0), voltage (1) or clock (2) detector. -/
def tamper (cause : Nat) (s : State) : State :=
  if !powered s then s else raiseFault (tamperStat (zeroize s) cause) (0x001 + cause)

def execFuseRecheck (same : Bool) (s : State) : Host.Outcome State Fault Refusal := ok (fuseRecheck same s)
def execTamperDetect (cause : Fin 3) (s : State) : Host.Outcome State Fault Refusal := ok (tamper cause.val s)

/-! ## The import key (R309, R419) -/

def cmdImportPub (c : CmdCtx) (s : State) : CmdRes :=
  ckArgs c s 0x1 anyArg <| .data s (bytesQw (cut (Config.importPub s.dax.priv) (64 * c.a0) (if c.a0 = 0 then 64 else 33)) 8)

/-- The provider's public key from chunks 0 and 1. -/
def providerPub (s : State) : List Byte :=
  (qwBytes (padQ (Tbl.getD s.dax.chunks 0 []) 8) ++ qwBytes (padQ (Tbl.getD s.dax.chunks 1 []) 8)).take 97

def cmdImportKey (c : CmdCtx) (s : State) : CmdRes :=
  ckArgs c s 0x3 anyArg <|
    if c.a0 = 3 then .fail s 0x02
    else if s.dax.imported then .fail s 0x41
    else if c.a0 < 2 then .done { s with dax := { s.dax with chunks := Tbl.put s.dax.chunks c.a0 c.d } }
    else
      match Config.aesUnwrap (Config.importWrapKey s.dax.priv (providerPub s)) ((qwBytes c.d).take 40) with
      | some key => .done { s with dax := { s.dax with importKey := some (BitVec.ofNat 256 (leNat key)), imported := true, chunks := [] } }
      | none => .fail (s.bumpErr blkDAXLIA 0 1) 0x40

def execImportPub (c : CmdIn) (s : State) : Host.Outcome State Fault Refusal := ok (pageCommand blkDAXLIA 0x01 cmdImportPub c s)
def execImportKey (c : CmdIn) (s : State) : Host.Outcome State Fault Refusal := ok (pageCommand blkDAXLIA 0x02 cmdImportKey c s)

/-! ## Debug unlock (R420) -/

def cmdJtagChallenge (_ : CmdCtx) (s : State) : CmdRes :=
  let (v, s) := s.fresh 256
  .data { s with dax := { s.dax with nonce := some v, sigPart := [] } } (bytesQw (leBytes 32 v.toNat) 8)

/-- What the signature covers: nonce, serial, level. -/
def unlockMsg (nonce : BitVec 256) (level : Nat) : List Byte :=
  leBytes 32 nonce.toNat ++ leBytes 8 Config.serial.toNat ++ leBytes 1 level

/-- A successful unlock. -/
def unlocked_ (s : State) : State :=
  let s := zeroize s
  freshMeasure { s with dax := { s.dax with debug := true } } 6

def cmdJtagUnlock (c : CmdCtx) (s : State) : CmdRes :=
  ckArgs c s 0xF 0x1 <|
    match s.dax.nonce with
    | none => .fail (s.bumpErr blkDAXLIA 0 0) 0x43
    | some v =>
      if c.a1 = 0 then .done { s with dax := { s.dax with sigPart := c.d } }
      else
        let sig := (qwBytes (padQ s.dax.sigPart 8 ++ c.d)).take 96
        let s := { s with dax := { s.dax with nonce := none, sigPart := [] } }
        if Config.signatureGood Config.debugKey (unlockMsg v c.a0) sig then .done (unlocked_ s)
        else .fail (s.bumpErr blkDAXLIA 0 0) 0x42

def execJtagChallenge (c : CmdIn) (s : State) : Host.Outcome State Fault Refusal := ok (pageCommand blkDAXLIA 0x03 cmdJtagChallenge c s)
def execJtagUnlock (c : CmdIn) (s : State) : Host.Outcome State Fault Refusal := ok (pageCommand blkDAXLIA 0x04 cmdJtagUnlock c s)

/-! ## Measurements (R417, R422) -/

def digest384 (v : BitVec 384) : List Byte := leBytes 48 v.toNat

def cmdMeasureRead (c : CmdCtx) (s : State) : CmdRes :=
  if c.a0 = 0 ∨ 7 < c.a0 then .fail s 0x02
  else .data s (bytesQw (digest384 (Tbl.getD s.boot.measures c.a0 0)) 8)

def execMeasureRead (c : CmdIn) (s : State) : Host.Outcome State Fault Refusal := ok (pageCommand blkDAXLIA 0x05 cmdMeasureRead c s)

/-! ## SPDM over DOE (R418; codes and layouts by DSP0274, log 38) -/

/-- A port carries DOE: its PF0 is presented, its link up, stage 1 has made the keys. -/
def doeUp (s : State) (p : Nat) : Bool :=
  let h := hportOf s p
  h.quar == 1 && h.l0 && !h.inReset && !(funcOf s p 0).inReset && 1 ≤ s.boot.stage

/-- How far a port's negotiation is: 1 version, 2 capabilities, 3 algorithms. -/
def spdmAt (s : State) (p : Nat) : Nat := Tbl.getD s.dax.spdm p 0

def spdmError (s : State) (p code : Nat) : State := s.emit (.spdm p 0x7F [BitVec.ofNat 8 code, 0])

/-- A request in its turn: from a stage on, leaving another; out of turn it is unexpected. -/
def spdmReq (p need leave : Nat) (answer : State → State) (s : State) : State :=
  if !doeUp s p then s
  else if spdmAt s p < need then spdmError s p 0x04
  else answer { s with dax := { s.dax with spdm := Tbl.put s.dax.spdm p leave } }

def getVersion (p : Nat) (s : State) : State :=
  spdmReq p 0 1 (fun s => s.emit (.spdm p 0x04 [0, 1, 0x00, 0x12])) s

/-- CERT_CAP, CHAL_CAP, signed measurements. -/
def getCapabilities (p : Nat) (s : State) : State :=
  spdmReq p 1 2 (fun s => s.emit (.spdm p 0x61 (leBytes 4 0x16))) s

/-- ECDSA P-384 with SHA-384, or nothing in common. -/
def negotiate (p : Nat) (p384 : Bool) (s : State) : State :=
  spdmReq p 2 (if p384 then 3 else 2) (fun s =>
    if p384 then s.emit (.spdm p 0x63 (leBytes 4 0x80 ++ leBytes 4 0x02)) else spdmError s p 0x01) s

def certDigest : List Byte := digest384 (Config.sha384 Config.certChain)

def getDigests (p : Nat) (s : State) : State :=
  spdmReq p 3 (spdmAt s p) (fun s => s.emit (.spdm p 0x01 certDigest)) s

/-- Certificate slot 0 only. -/
def getCertificate (p slot offset len : Nat) (s : State) : State :=
  spdmReq p 3 (spdmAt s p) (fun s =>
    if slot ≠ 0 ∨ Config.certChain.length ≤ offset then spdmError s p 0x01
    else
      let part := cut Config.certChain offset len
      s.emit (.spdm p 0x02 (leBytes 2 part.length ++ leBytes 2 (Config.certChain.length - offset - part.length) ++ part))) s

/-- A signature under the attestation key over what was exchanged: 96 bytes free of any rule here. -/
def withSignature (s : State) (k : List Byte → State → State) : State :=
  let (v, s) := s.fresh 768
  k (leBytes 96 v.toNat) s

def spdmChallenge (p slot : Nat) (nonce : List Byte) (s : State) : State :=
  spdmReq p 3 (spdmAt s p) (fun s =>
    if slot ≠ 0 ∨ nonce.length ≠ 32 then spdmError s p 0x01
    else if !s.dax.attested then spdmError s p 0x05
    else
      let (v, s) := s.fresh 256
      withSignature s (fun sig s => s.emit (.spdm p 0x03 (certDigest ++ leBytes 32 v.toNat ++ sig)))) s

/-- A measurement block in DMTF format: index, specification, size, value type, value size, digest. -/
def measureBlock (s : State) (i : Nat) : List Byte :=
  [BitVec.ofNat 8 i, 1] ++ leBytes 2 51 ++ [BitVec.ofNat 8 ([0, 1, 1, 1, 3, 4, 2].getD (i - 1) 1)] ++ leBytes 2 48 ++
    digest384 (Tbl.getD s.boot.measures i 0)

/-- Index 0 asks how many there are, 0xFF for all; a nonce asks for a signature. -/
def spdmMeasurements (p index : Nat) (nonce : List Byte) (s : State) : State :=
  spdmReq p 3 (spdmAt s p) (fun s =>
    if 7 < index ∧ index ≠ 0xFF then spdmError s p 0x01
    else
      let body := if index = 0 then [7] else if index = 0xFF then (List.range 7).flatMap (fun i => measureBlock s (i + 1))
                  else measureBlock s index
      if nonce = [] then s.emit (.spdm p 0x60 body)
      else if !s.dax.attested then spdmError s p 0x05
      else withSignature s (fun sig s => s.emit (.spdm p 0x60 (body ++ sig)))) s

def execGetVersion (port : Fin 128) (s : State) : Host.Outcome State Fault Refusal := ok (getVersion port.val s)
def execGetCapabilities (port : Fin 128) (s : State) : Host.Outcome State Fault Refusal := ok (getCapabilities port.val s)
def execNegotiateAlgorithms (port : Fin 128) (p384 : Bool) (s : State) : Host.Outcome State Fault Refusal :=
  ok (negotiate port.val p384 s)
def execGetDigests (port : Fin 128) (s : State) : Host.Outcome State Fault Refusal := ok (getDigests port.val s)
def execGetCertificate (port : Fin 128) (slot : BitVec 8) (offset len : BitVec 16) (s : State) : Host.Outcome State Fault Refusal :=
  ok (getCertificate port.val slot.toNat offset.toNat len.toNat s)
def execChallenge (port : Fin 128) (slot : BitVec 8) (nonce : List Byte) (s : State) : Host.Outcome State Fault Refusal :=
  ok (spdmChallenge port.val slot.toNat nonce s)
def execGetMeasurements (port : Fin 128) (index : BitVec 8) (nonce : List Byte) (s : State) : Host.Outcome State Fault Refusal :=
  ok (spdmMeasurements port.val index.toNat nonce s)

/-! ## JTAG (R420): the boundary-scan instructions, always available; they act on pins and scan cells alone -/

/-- TDO answers an instruction: 1 BYPASS, 2 IDCODE, 3 SAMPLE/PRELOAD, 4 EXTEST, 5 EXTEST_PULSE, 6 EXTEST_TRAIN. -/
def jtagInstr (code : Nat) (s : State) : State := s.emit (.jtag code)

def execBypass (s : State) : Host.Outcome State Fault Refusal := ok (jtagInstr 1 s)
def execIdcode (s : State) : Host.Outcome State Fault Refusal := ok (jtagInstr 2 s)
def execSamplePreload (s : State) : Host.Outcome State Fault Refusal := ok (jtagInstr 3 s)
def execExtest (s : State) : Host.Outcome State Fault Refusal := ok (jtagInstr 4 s)
def execExtestPulse (s : State) : Host.Outcome State Fault Refusal := ok (jtagInstr 5 s)
def execExtestTrain (s : State) : Host.Outcome State Fault Refusal := ok (jtagInstr 6 s)

end Sys2Proof.Machine
end

