-- ==== Sys2Proof/Machine/Recovery.lean ====
section
/-! DEFINITION. The fault rows: raising, unit recovery, the escalator, the log and the severity entries, FAULT_N, injection,
supply and thermal events (R423 to R444, R464, R466, R471, R472). -/

namespace Sys2Proof.Machine

/-! ## What a unit reset does to a unit's work, and what its return does (R74, R123, R142, R248, R279, R303, R337, R354) -/

/-- Completions not yet visible of a unit are discarded with its work (R10). -/
def squashUnit (s : State) (p : Nat) : State :=
  let i := State.pkInst p
  match State.pkBlk p with
  | 0x30 => squashWaiting s (fun k => k < 2 ^ 32 && queuePort k == i) (fun _ => false) (fun _ => false) (fun _ => false)
  | 0x32 => squashWaiting s (fun _ => false) (fun _ => false) (fun _ => false) (fun n => n % 32 == i)
  | 0x34 => squashWaiting s (fun _ => false) (fun _ => false) (fun _ => true) (fun _ => false)
  | _ => s

/-- The work of a page that its reset discards, beyond what the beginning of the reset has discarded. -/
def unitEffects (s : State) (p : Nat) : State :=
  let i := State.pkInst p
  let s := squashUnit s p
  match State.pkBlk p with
  | 0x10 => octetDown s i
  | 0x15 => settleWin s i
  | 0x34 => ((s.ctls.filter (fun c => c.2.state == 1 || c.2.state == 2)).map Prod.fst).foldl refetch s
  | 0x40 => engineReset s i
  | 0x42 => keysReset s
  | 0x52 => redeliverAll s (clusterHarts i)
  | 0x60 => memCtlReset s false i
  | 0x61 => memCtlReset s true i
  | _ => s

/-- The units whose recovery a fault has started or that it has taken down, since a state. -/
def newlyReset (s0 s : State) : List Nat :=
  (s.flt.units.filter (fun u => u.2.state == 1 && (unitOf s0 u.1).starts != u.2.starts ||
    (u.2.state == 3 && (unitOf s0 u.1).state != 3))).map Prod.fst

/-- A fault row: what it raises, then what the resets it began discard. -/
def withResets (f : State → State) (s0 : State) : State :=
  let s := f s0
  (newlyReset s0 s).foldl unitEffects s

/-- Harts of a tile that were held in reset at release start when the tile returns (R321). -/
def heldHarts (s : State) (t : Nat) : State :=
  if s.stateOf blkTILE t ≠ 1 ∨ s.boot.stage ≠ 5 then s
  else (tileHarts t).foldl (fun (s : State) (h : Nat) =>
    if (hartOf s h).running then s else startHart s h (stEntry s.boot.manifest 3) 0) s

/-- A unit takes work again. -/
def unitServes (s : State) (p : Nat) : State :=
  let i := State.pkInst p
  match State.pkBlk p with
  | 0x30 => ((s.queues.filter (fun q => (q.1 < 2 ^ 32 && queuePort q.1 == i || isProv q.1 && q.1 / 4096 % 128 == i) &&
      q.2.state == 1 && q.2.d != q.2.c)).map Prod.fst).foldl (fun (s : State) (k : Nat) => pull s k) s
  | 0x31 => dmaPull s i
  | 0x32 => ((s.qps.filter (fun q => q.1 % 32 == i && q.2.state != 4)).map Prod.fst).foldl resumeQp s
  | 0x33 => serveWaiting s
  | 0x40 => runEngine s i
  | 0x42 => runEngines s
  | 0x50 => tileRecovered (heldHarts s i) i
  | 0x51 => dispatchWaiting s
  | _ => s

/-! ## Recovery (R430) -/

/-- The OPEN record of a page. -/
def openRec (s : State) (p : Nat) : Option FRec := s.flt.recs.find? (fun r => r.state == 1 && r.page == some p)

/-- FAULTED and DEGRADED go. -/
def clearFaulted (s : State) (p : Nat) : State := { s with faulted := setDel s.faulted p }
def clearDegraded (s : State) (p : Nat) : State := { s with degraded := setDel s.degraded p }

/-- The OPEN record of a page becomes CLOSED. -/
def closeRec (s : State) (p : Nat) : State := mapRecs s (fun r => r.state == 1 && r.page == some p) (fun r => { r with state := 2 })

/-- The unit is back in service. -/
def inService (s : State) (p : Nat) : State :=
  let u := unitOf s p
  let s := clearFaulted (setUnit s p { u with state := 0, quiet := none, waitQ := false, direct := false }) p
  unitServes s p

/-- Quiet entries in use, of 64. -/
def quietUsed (s : State) : Nat := (s.flt.units.filter (fun u => u.2.quiet.isSome)).length

/-- A unit enters QUIET, or waits for an entry. -/
def toQuiet (s : State) (p : Nat) : State :=
  let u := unitOf s p
  if quietUsed s < 64 then
    setUnit s p { u with state := 2, waitQ := false, quiet := some (s.ns + (sevOf s u.head).quiet * 1000000) }
  else if u.waitQ then s
  else (setUnit s p { u with waitQ := true }).bumpErr blkFAULT 0 1

/-- A unit that waits for a quiet entry takes a freed one. -/
def wakeQuiet (s : State) : State :=
  match s.flt.units.find? (fun u => u.2.state == 1 && u.2.waitQ) with
  | some u => toQuiet s u.1
  | none => s

def resetComplete (p : Nat) (s : State) : State :=
  let u := unitOf s p
  if u.state ≠ 1 ∨ u.waitQ then s
  else
    let s := clearDegraded (unitEffects s p) p
    let s := if State.pkBlk p = blkOCTET ∧ s.stateOf blkOCTET (State.pkInst p) = 1 then
        startCal s (State.pkInst p) (s.rd OCTET.PERS_ACTIVE (State.pkInst p)) else s
    if u.direct then inService s p else toQuiet s p

/-- R430: a fault merged during the quiet period heads a new recovery, of class 3. -/
def nextRecovery (s : State) (p fsn : Nat) (cause : Word) (info : BitVec 16) : State :=
  let s := setUnit (closeRec s p) p { unitOf s p with state := 0, quiet := none }
  let n := s.flt.nextSeq
  let s := addRec s { fsn := fsn, cls := 3, inj := false, state := 1, trace := s.traceable, seq := n, first := s.ns, last := s.ns,
                      cause := cause, info := info, page := some p }
  classAction s (some p) fsn 3 (fun r => r.seq == n)

def quietExpires (p : Nat) (s : State) : State :=
  match (unitOf s p).quiet with
  | none => s
  | some d =>
    let s := s.reach d
    let s := match (openRec s p).bind (fun r => r.after) with
      | some (f, c, i) => nextRecovery s p f c i
      | none => inService (closeRec s p) p
    wakeQuiet s

/-- What a fault's source counts on its own page: L2 errors of a cluster (R343). -/
def sourceCounts (s : State) (fsn : Nat) : State :=
  match fsnPage fsn with
  | some (0x52, i, 1) => (s.bumpErr blkCLUSTER i 0).istat blkCLUSTER i 0
  | some (0x52, i, 2) => s.bumpStat CLUSTER.L2_CORR i
  | _ => s

def execFaultRaise (fsn : BitVec 12) (cause : Word) (info : BitVec 16) (s : State) : Host.Outcome State Fault Refusal :=
  ok (withResets (fun s => raiseFault (sourceCounts s fsn.toNat) fsn.toNat cause info) s)

/-- A page of the reference, when it is populated. -/
def onPage (pg : PageRef) (k : Nat → State → State) (s : State) : State :=
  if pageCount pg.blk.toNat ≤ pg.inst.toNat then s else k (State.pk pg.blk.toNat pg.inst.toNat) s

def execUnitResetComplete (pg : PageRef) (s : State) : Host.Outcome State Fault Refusal := ok (onPage pg resetComplete s)
def execQuietExpiry (pg : PageRef) (s : State) : Host.Outcome State Fault Refusal := ok (withResets (onPage pg quietExpires) s)

/-- R60: a running command passes its deadline: 0x09, nothing of what it waited for stands, and source 0 of its page. -/
def limitExpires (p : Nat) (s : State) : State :=
  match Tbl.get? s.running p with
  | none => s
  | some r =>
    let s := s.reach (r.start + s.rd HUB.CMD_LIMIT * 1000)
    let blk := State.pkBlk p
    let s := if r.wait && blk == blkQMGR && r.op == 3 then
        { s with queues := Tbl.mapV s.queues (fun k q => if k < 2 ^ 32 && queuePort k == State.pkInst p then { q with stopping := false } else q) }
      else if r.wait && blk == blkTWIN && r.op == 2 then { s with twin := { s.twin with handing := [] } }
      else s
    raisePage (endCommand s p 0x09 none) blk (State.pkInst p) 0

def execCmdLimitExpiry (pg : PageRef) (s : State) : Host.Outcome State Fault Refusal := ok (withResets (onPage pg limitExpires) s)

/-! ## The escalator (R435) -/

/-- ESC_STAT: RECENT and the cause. -/
def escWrite (s : State) (cause : Nat) : State :=
  { s.wr FAULT.ESC_STAT 0 (1 + 256 * cause) with flt := { s.flt with escAt := s.ns } }

/-- A record that the collector makes by itself, its class 4 or 5 done. -/
def ownRec (s : State) (fsn cls st : Nat) : State :=
  addRec (s.bumpStat FAULT.FAULTS 0) { fsn := fsn, cls := cls, inj := false, state := st, trace := s.traceable, seq := 0,
                                       first := s.ns, last := s.ns, cause := 0, info := 0, page := none }

/-- The escalator fires: 1 lockstep disagreement, 2 watchdog expiry. -/
def escalate (cause : Nat) (s : State) : State :=
  let recent := bit (s.rd FAULT.ESC_STAT) 0
  if s.flt.haltSealed then escWrite s cause
  else
    let code := if recent then 0xFD else 0xFE
    let s := driveFault s true
    let s := sendTakeover (if recent then s else s.emit (.pin 4 0 code)) code
    if recent then haltWith (ownRec s 0x006 5 1) 0xFD true
    else
      let s := deviceReset (escWrite s cause)
      let s := if powered s then bootStart (s.emit (.pin 4 0 0)) else s
      ownRec s (0x008 + cause) 4 2

def recentEnds (s : State) : State :=
  let v := s.rd FAULT.ESC_STAT
  if bit v 0 then (s.reach (s.flt.escAt + 1000000000)).wr FAULT.ESC_STAT 0 (v - 1) else s

def execCollectorDisagreement (s : State) : Host.Outcome State Fault Refusal := ok (escalate 1 s)
def execCollectorWatchdogExpiry (s : State) : Host.Outcome State Fault Refusal := ok (escalate 2 s)
def execRecentExpiry (s : State) : Host.Outcome State Fault Refusal := ok (recentEnds s)

/-! ## Commands of the FAULT page (R426, R442, R472) -/

def cmdSevWrite (c : CmdCtx) (s : State) : CmdRes :=
  ckArgs c s 0xFFF anyArg <|
    let q := qw c.d 0
    if qwRsvd c.d [0x39FFFFFFF7] then .fail s 0x03
    else if !fsnValid c.a0 ∨ 5 < bits q 2 0 ∨ bits q 15 8 = 0 ∨ bits q 31 16 = 0 ∨ 60000 < bits q 31 16 then .fail s 0x02
    else if s.locked blkFAULT 0 then .fail s 0x05
    else if bits q 2 0 < (sevOf s c.a0).min then .fail s 0x40
    else .done { s with flt := { s.flt with sev := Tbl.put s.flt.sev c.a0 (dw q) } }

/-- The qword of an entry. A window that its field cannot hold reads as a value that the manual does not give (log 10). -/
def sevQword (s : State) (v : Sev) : Dword × State :=
  let (f, s') := s.fresh 8
  (dw (v.cls + v.giveN * 16 + (if v.giveWin < 256 then v.giveWin else f.toNat) * 256 + v.quiet * 65536 + b2n v.log * 2 ^ 32 + v.min * 2 ^ 35),
   if v.giveWin < 256 then s else s')

def cmdSevRead (c : CmdCtx) (s : State) : CmdRes :=
  ckArgs c s 0xFFF anyArg <|
    if !fsnValid c.a0 then .fail s 0x02
    else let r := sevQword s (sevOf s c.a0); .data r.2 [r.1]

/-- A record as it lies in the log (R428). -/
def FRec.qws (r : FRec) : List Dword :=
  [dw (r.fsn + r.cls * 2 ^ 12 + b2n r.inj * 2 ^ 15 + r.merges * 2 ^ 16 + r.state * 2 ^ 24 + b2n r.trace * 2 ^ 28 + r.seq % 2 ^ 32 * 2 ^ 32),
   dw r.first, dw r.last, dw (r.cause.toNat + r.info.toNat * 2 ^ 32 + r.recov % 65536 * 2 ^ 48)]

/-- The record at an index of the log; 0 where there is none. -/
def recAt (s : State) (i : Nat) : List Dword :=
  match s.flt.recs.find? (fun r => r.at_ == some (i % 512)) with
  | some r => r.qws
  | none => List.replicate 4 0

def cmdFaultLogRead (c : CmdCtx) (s : State) : CmdRes := .data s (recAt s c.a0 ++ recAt s (c.a0 + 1))

/-- The page that UNIT_QUERY and UNIT_RESTORE name. -/
def namedUnit (c : CmdCtx) : Option Nat :=
  let blk := c.a0 % 256
  let inst := bits c.a0 16 8
  if pageCount blk ≤ inst then none else some (State.pk blk inst)

def cmdUnitQuery (c : CmdCtx) (s : State) : CmdRes :=
  ckArgs c s 0x1FFFF anyArg <|
    match namedUnit c with
    | none => .fail s 0x02
    | some p =>
      let u := unitOf s p
      .data s [dw (u.state + 256 * min 255 (recoveries s u (sevOf s u.head).giveWin))]

/-- OPEN class 2 records of hub sources. -/
def hubRec (r : FRec) : Bool := r.state == 1 && r.cls == 2 && r.page.isNone

def cmdUnitRestore (c : CmdCtx) (s : State) : CmdRes :=
  ckArgs c s 0x1FFFF anyArg <|
    match namedUnit c with
    | none => .fail s 0x02
    | some p =>
      let u := unitOf s p
      if u.state = 3 then
        .done (unitEffects (beginUnitReset (setUnit s p { u with state := 1, direct := true, waitQ := false, quiet := none, starts := [] }) p) p)
      else if p = State.pk blkHUB 0 ∧ s.flt.recs.any hubRec then
        .done (clearDegraded (mapRecs s (fun r => hubRec r || (r.state == 1 && r.cls == 2 && r.page == some p)) (fun r => { r with state := 2 })) p)
      else if u.state = 0 ∧ ((openRec s p).map (fun r => r.cls == 2)).getD false then .done (clearDegraded (closeRec s p) p)
      else .fail s 0x41

def execSevWrite (c : CmdIn) (s : State) : Host.Outcome State Fault Refusal := ok (pageCommand blkFAULT 0x01 cmdSevWrite c s)
def execSevRead (c : CmdIn) (s : State) : Host.Outcome State Fault Refusal := ok (pageCommand blkFAULT 0x02 cmdSevRead c s)
def execFaultLogRead (c : CmdIn) (s : State) : Host.Outcome State Fault Refusal := ok (pageCommand blkFAULT 0x03 cmdFaultLogRead c s)
def execUnitQuery (c : CmdIn) (s : State) : Host.Outcome State Fault Refusal := ok (pageCommand blkFAULT 0x04 cmdUnitQuery c s)
def execUnitRestore (c : CmdIn) (s : State) : Host.Outcome State Fault Refusal := ok (pageCommand blkFAULT 0x05 cmdUnitRestore c s)

/-! ## FAULT_N (R434) and the log's consumer (R442) -/

/-- PIN_CTRL comes into force; only MODE 1 holds the pin. -/
def takeMode (s : State) : State :=
  let m := s.rd FAULT.PIN_CTRL % 4
  { s with flt := { s.flt with mode := BitVec.ofNat 2 m, pinHeld := s.flt.pinHeld && m == 1 } }

def pinCtrl (value : Word) (s : State) : State :=
  let s := s.wr FAULT.PIN_CTRL 0 (value.toNat % 4)
  if s.flt.pulseEnd.isSome then s else takeMode s

def pinClr (value : Word) (s : State) : State :=
  if bit value.toNat 0 then { s with flt := { s.flt with pinHeld := false } } else s

def pulseEnds (s : State) : State :=
  match s.flt.pulseEnd with
  | none => s
  | some t =>
    let s := s.reach t
    takeMode { s with flt := { s.flt with pulseEnd := none } }

def logCons (value : Word) (s : State) : State :=
  let cons := s.rd FAULT.LOG_CONS
  let prod := s.rd FAULT.LOG_PROD
  if (prod + 2 ^ 32 - cons) % 2 ^ 32 < (value.toNat + 2 ^ 32 - cons) % 2 ^ 32 then s.bumpErr blkFAULT 0 2
  else s.wr FAULT.LOG_CONS 0 value.toNat

def execPinCtrlWrite (who : Requester) (value : Word) (s : State) : Host.Outcome State Fault Refusal :=
  ok (pageWrite who blkFAULT 0 (pinCtrl value) s)
def execPinClrWrite (who : Requester) (value : Word) (s : State) : Host.Outcome State Fault Refusal :=
  ok (pageWrite who blkFAULT 0 (pinClr value) s)
def execFaultNPulseEnd (s : State) : Host.Outcome State Fault Refusal := ok (pulseEnds s)
def execLogConsWrite (who : Requester) (value : Word) (s : State) : Host.Outcome State Fault Refusal :=
  ok (pageWrite who blkFAULT 0 (logCons value) s)

/-! ## Injection (R436) -/

/-- Factory test mode: the TEST_MODE strap high, the test fuse unblown. -/
def testMode (s : State) : Bool := bit s.pwr.straps.toNat 3 && !s.boot.testFuse

def injCtrl (value : Word) (s : State) : State :=
  let fsn := value.toNat % 4096
  if !testMode s then s.bumpErr blkFAULT 0 3
  else if !bit value.toNat 31 then s.wr FAULT.INJ_CTRL 0 fsn
  else if !fsnValid fsn then s.bumpErr blkFAULT 0 3
  else
    let w := s.rd FAULT.INJ_INFO
    raiseFault (s.wr FAULT.INJ_CTRL 0 fsn) fsn (w32 (w / 65536)) (BitVec.ofNat 16 w) true

def execInjCtrlArm (who : Requester) (value : Word) (s : State) : Host.Outcome State Fault Refusal :=
  ok (withResets (pageWrite who blkFAULT 0 (injCtrl value)) s)

/-! ## Supply (R437, R438, R443, R449) -/

/-- A monitor channel reads its rail. -/
def railRead (s : State) (ch mv : Nat) : State :=
  { s with pwr := { s.pwr with railMv := Tbl.put s.pwr.railMv ch mv,
                               railMin := Tbl.put s.pwr.railMin ch (min mv (Tbl.getD s.pwr.railMin ch 0xFFFF)) } }

def railBelow (ch mv : Nat) (s0 : State) : State :=
  let s := railRead s0 ch mv
  if !s.pwr.pwrgood ∨ !railLow s ch then s
  else if s.pwr.held then { s with pwr := { s.pwr with clearAt := none } }
  else
    let s := if railLow s0 ch then s else s.bumpErr blkPWR 0 0
    if s.stateOf blkPWR 0 = 2 then { s with pwr := { s.pwr with holdEnd := none } }
    else
      let s := ((s.setState blkPWR 0 2).istat blkPWR 0 0).bumpStat PWR.BO_COUNT 0
      raiseFault { s with pwr := { s.pwr with holdSince := s.ns, holdEnd := none } } 0x00B

def railAbove (ch mv : Nat) (s : State) : State :=
  let s := railRead s ch mv
  if !s.pwr.pwrgood ∨ railsLow s then s
  else if s.pwr.held then { s with pwr := { s.pwr with clearAt := some (s.pwr.clearAt.getD s.ns) } }
  else if s.stateOf blkPWR 0 = 2 then { s with pwr := { s.pwr with holdEnd := some (s.pwr.holdEnd.getD (s.ns + 1000000)) } }
  else s

def holdEnds (s : State) : State :=
  match s.pwr.holdEnd with
  | none => s
  | some t =>
    let s := s.reach t
    let s := (s.setState blkPWR 0 1).wr PWR.BO_LAST 0 ((s.ns - s.pwr.holdSince) / 1000)
    dispatchWaiting ({ s with pwr := { s.pwr with holdEnd := none } }.istat blkPWR 0 1)

/-- A rail at its reset level: FSN 0x007, at once or once the collector runs. -/
def railReset (ch mv : Nat) (s : State) : State :=
  let s := railRead s ch mv
  if !s.pwr.pwrgood then s
  else if s.pwr.held then { s with pwr := { s.pwr with railPend := true, clearAt := none } }
  else raiseFault s 0x007

def execRailBelowWarning (ch : Fin 32) (mv : BitVec 16) (s : State) : Host.Outcome State Fault Refusal :=
  ok (withResets (railBelow ch.val mv.toNat) s)
def execRailAboveWarning (ch : Fin 32) (mv : BitVec 16) (s : State) : Host.Outcome State Fault Refusal :=
  ok (railAbove ch.val mv.toNat s)
def execHoldEndExpiry (s : State) : Host.Outcome State Fault Refusal := ok (holdEnds s)
def execRailResetLevel (ch : Fin 32) (mv : BitVec 16) (s : State) : Host.Outcome State Fault Refusal :=
  ok (railReset ch.val mv.toNat s)

/-! ## Temperature (R439, R440, R444, R464) -/

/-- A sensor reading as its register shows it. -/
def tempWord (s : State) (n : Nat) : Option (BitVec 16) → Nat
  | some t => t.toNat
  | none => 2 ^ 31 + s.rd THERM.TEMP 0 n % 65536

/-- The valid readings that count for H, with their sensors. -/
def heatReadings (temps : List (Option (BitVec 16))) : List (Nat × Int) :=
  ((temps.take 64).zipIdx).filterMap (fun x => if 52 ≤ x.2 ∧ x.2 < 56 then none else x.1.map (fun t => (x.2, t.toInt)))

/-- The hottest of them, the first of equals. -/
def hottestOf (rs : List (Nat × Int)) : Option (Nat × Int) :=
  rs.foldl (fun (a : Option (Nat × Int)) (r : Nat × Int) => match a with
    | some b => if b.2 < r.2 then some r else some b
    | none => some r) none

/-- The throttle level for H and THROT_TEMP, from the present one. -/
def throttle (h : Int) (t level : Nat) : Nat :=
  if 16 * (t : Int) < h then (min 4 ((h - 16 * t) / 16 + 1)).toNat
  else if h ≤ 16 * ((t : Int) - 3) then 0
  else level

def thermalSample (temps : List (Option (BitVec 16))) (s : State) : State :=
  let bad := ((temps.take 64).filter Option.isNone).length
  let s := ((temps.take 64).zipIdx).foldl (fun (s : State) (x : Option (BitVec 16) × Nat) => s.wr THERM.TEMP 0 (tempWord s x.2 x.1) x.2) s
  let s := if bad = 0 then s else raiseFault ((s.bumpErr blkTHERM 0 0 bad).istat blkTHERM 0 1) 0x00D
  let s := if s.pwr.level = 0 then s else s.bumpStat THERM.THROT_US 0 ((s.ns - s.pwr.throtAt) / 1000)
  let s := { s with pwr := { s.pwr with throtAt := s.ns } }
  match hottestOf (heatReadings temps) with
  | none => s
  | some (n, h) =>
    let t := s.rd THERM.THROT_TEMP
    let old := s.pwr.level
    let l := throttle h t old
    let s := { s with pwr := { s.pwr with level := l } }.wr THERM.THROT_STAT 0 (l + 256 * n)
    let s := s.raiseMax THERM.MAX_TEMP 0 h.toNat
    let s := if l = old then s else s.istat blkTHERM 0 0
    let s := if old = 0 ∧ l ≠ 0 then raiseFault s 0x00C else s
    if l = 4 ∧ 16 * ((t : Int) + 10) ≤ h then raiseFault s 0x00D else s

/-- A comparator has tripped: latched until a power cycle. -/
def thermalTrip (sensor : Nat) (s : State) : State :=
  raiseFault ({ s with pwr := { s.pwr with thermTrip := true } }.emit (.pin 5 sensor 1)) 0x008

def execThermalSample (temps : List (Option (BitVec 16))) (s : State) : Host.Outcome State Fault Refusal :=
  ok (withResets (thermalSample temps) s)
def execThermalTrip (sensor : Fin 64) (s : State) : Host.Outcome State Fault Refusal := ok (thermalTrip sensor.val s)

/-! ## MGMT (R457, R465, R466) -/

/-- The SPD hub answers 64 bytes, or does not. -/
def cmdSpdRead (c : CmdCtx) (s : State) : CmdRes :=
  ckArgs c s 0xF 0x3FF <| if c.env.length < 8 then .fail (s.bumpErr blkMGMT 0 0) 0x40 else .data s (padQ c.env 8)

def gpioInput (levels : Nat) (s : State) : State :=
  if s.rd MGMT.GPIO_IN = levels then s else (s.wr MGMT.GPIO_IN 0 levels).istat blkMGMT 0 0

def execSpdRead (c : CmdIn) (s : State) : Host.Outcome State Fault Refusal := ok (pageCommand blkMGMT 0x01 cmdSpdRead c s)
def execGpioInputChange (levels : BitVec 8) (s : State) : Host.Outcome State Fault Refusal := ok (gpioInput levels.toNat s)

end Sys2Proof.Machine
end

