-- ==== Sys2Proof/Machine/View.lean ====
section
/-! DEFINITION. What a register reads: the stored value, or the state that a read-only register shows (R47 to R53 and the
register tables of each chapter). -/

namespace Sys2Proof.Machine

/-! ## Rows -/

/-- The first word of the register at an offset. -/
def loOff (r : RegRow) (off : Nat) : Nat := if r.n = 1 then r.off else r.off + (off - r.off) / r.stride * r.stride

/-- The offset is the HI word of a 64-bit register. -/
def isHi (r : RegRow) (off : Nat) : Bool := r.pair && off != loOff r off

/-- Word `k` of a row of registers that show a set of numbers, one bit each. -/
def bitWord (l : List Nat) (k : Nat) : Nat := l.foldl (fun (a n : Nat) => if n / 32 = k then a ||| 2 ^ (n % 32) else a) 0

/-- Registers that another row of the same block type does not have: instance 0 alone (R217, R218, R252, R356, R400), DDRC
alone (R356), the link registers of TWIN 0 (R400), the gaps between lookup programs (R186). They read 0 and ignore writes (R48). -/
def absentReg (s : State) (blk inst off : Nat) : Bool :=
  match blk with
  | 0x22 => 0x200 ≤ off && off < 0x280 && off % 16 == 12
  | 0x23 => inst != 0 && 0x114 ≤ off && off < 0x120
  | 0x24 => inst != 0 && (off == 0x110 || off == 0x118 || off == 0x11C || off == 0x120)
  | 0x32 => inst != 0 && 0x150 ≤ off && off < 0x15C
  | 0x13 => if inst = 0 then 0x100 ≤ off && off < 0x130 && persOf s (octetOfTwin 0) != 4 else 0x200 ≤ off
  | 0x60 => (inst != 0 && (off == 0x180 || off == 0x184 || 0x200 ≤ off)) || off == 0x134 || off == 0x138
  | 0x61 => off == 0x180 || off == 0x184 || 0x200 ≤ off
  | _ => false

/-! ## The header (R51 to R57) -/

/-- PG_CTRL: SOFT_RESET reads 1 until the reset is done (R52). -/
def pgCtrl (s : State) (blk inst : Nat) : Nat :=
  s.hd blk inst 0x08 + 2 * b2n (s.resetting.contains (State.pk blk inst))

/-- A page is able to take work: enabled, active, in no reset, not FAULTED (R53). -/
def pageReady (s : State) (blk inst : Nat) : Bool :=
  accepts s blk inst && pageActive s blk inst && !s.resetting.contains (State.pk blk inst)

/-- PG_STAT (R53). -/
def pgStat (s : State) (blk inst : Nat) : Nat :=
  let p := State.pk blk inst
  (if pageActive s blk inst then s.stateOf blk inst % 256 else 0) * 256 + b2n (s.locked blk inst) * 32 +
    b2n (bit (s.hd blk inst 0x08) 2) * 16 + b2n (s.degraded.contains p) * 8 + b2n (s.faulted.contains p) * 4 +
    b2n (Tbl.get? s.running p).isSome * 2 + b2n (pageReady s blk inst)

/-- A register of the header. -/
def headerReg (s : State) (blk inst off : Nat) : Nat :=
  match off with
  | 0x008 => pgCtrl s blk inst
  | 0x00C => pgStat s blk inst
  | 0x018 => 0
  | 0x01C => fsrcWord blk inst
  | 0x024 => s.hd blk inst 0x24 + 2147483648 * b2n (Tbl.get? s.running (State.pk blk inst)).isSome
  | _ => if 0x30 ≤ off && off < 0x40 then 0 else s.hd blk inst off

/-! ## Selected counters (R86, R166, R314) -/

/-- The counter that a selector shows: its table and its key there. -/
def selected (s : State) (blk inst off : Nat) : Option (Tbl Dword × Nat) :=
  let at_ := fun (v : Nat) => (inst * 8 + v % 8) * 16 + bits v 11 8
  match blk, off with
  | 0x12, 0x118 => some (s.emacStat, at_ (s.rd EMAC.STAT_SEL inst))
  | 0x41, 0x144 => some (s.macStat, at_ (s.rd MACSEC.STAT_SEL inst))
  | 0x21, 0x124 =>
    let v := s.rd PARSE.MAL_SEL inst
    some (s.malCnt, (inst * 2048 + v % 1024 + 1024 * b2n (bit v 12)) * 16 + bits v 19 16)
  | _, _ => none

/-! ## Registers that show state, chapter by chapter -/

/-- The instances of a block type that raise their interrupt (R63, R64). -/
def raising (regs : Tbl Word) (t : Nat) : List Nat :=
  (regs.filter (fun p => p.1 / 2097152 == t && p.1 % 4096 == 0x14 && ((Tbl.getD regs (p.1 - 4) 0) &&& p.2) != 0)).map
    (fun p => p.1 / 4096 % 512)

/-- HUB (R64). -/
def hubReg (s : State) (off : Nat) : Option Nat :=
  if 0x100 ≤ off && off < 0x120 then some (bitWord (pendingTypes s.regs) ((off - 0x100) / 4))
  else if 0x140 ≤ off && off < 0x180 then some (bitWord (raising s.regs (s.rd HUB.INT_SEL % 256)) ((off - 0x140) / 4))
  else none

/-- NOW_HI and NOW_XHI as NOW_LO latches them (R39). -/
def nowHi (s : State) : Nat := s.ns / 1000000000 % 4294967296
def nowXhi (s : State) : Nat := s.ns / 1000000000 / 4294967296 % 65536 * 65536 + s.now % 65536

/-- RTIME (R39, R40): NOW_HI and NOW_XHI hold nothing until NOW_LO has been read. -/
def rtimeReg (s : State) (off : Nat) : Option Nat :=
  match off with
  | 0x100 => some (s.ns % 1000000000)
  | 0x104 => some 0
  | 0x108 => some 0
  | 0x10C => some (b2n s.traceable * 2147483648 + b2n s.clk.armed * 1073741824 + b2n s.clk.stepPending.isSome * 536870912 +
      ((s.clk.source.map codeOfSrc).getD 0) * 16 + dstateCode s.clk.dstate)
  | 0x140 => some (unsigned 32 s.clk.freqAdj)
  | 0x148 => some s.ns
  | 0x160 => some (unsigned 64 s.clk.lastSealed)
  | _ => none

/-- FAULT (R436, R442): the injection registers respond in test mode only. -/
def faultReg (s : State) (off : Nat) : Option Nat :=
  match off with
  | 0x10C => some (b2n (pinAsserted s) + 2 * b2n s.flt.pulseEnd.isSome + 4 * b2n s.flt.halt)
  | 0x118 => some (s.flt.recs.filter (fun r => r.state == 1)).length
  | 0x180 => if testMode s then none else some 0
  | 0x184 => if testMode s then none else some 0
  | _ => none

/-- The running image slot's header: of the flash it was loaded from (R421). -/
def runSlot (s : State) : Option FSlot :=
  (runningSlot s.boot).bind (fun k => s.boot.slots[(s.boot.source - 1) * 2 + k]?)

/-- SLOTSTAT of one flash slot (R405, R421). -/
def slotStat (f : FSlot) : Nat :=
  let valid := f.state != 0xFF
  let named := f.state == 0x0F || f.state == 0x07 || f.state == 0x03
  (if valid then (if named then f.state else 0) else 0xFF) + f.attempts % 256 * 256 + b2n valid * 65536

/-- BOOT (R421). -/
def bootReg (s : State) (off : Nat) : Option Nat :=
  let b := s.boot
  match off with
  | 0x100 => some (b.source % 8 + b.slot % 2 * 8 + b2n b.trial * 16 + min b.stage 3 * 32 + b.firstFail % 256 * 256)
  | 0x104 => some (((runSlot s).map (fun f => f.seq)).getD 0)
  | 0x108 => some (((runSlot s).map (fun f => f.svn)).getD 0)
  | 0x10C => some (minSvn b)
  | 0x110 => some b.fuseSvn
  | 0x114 => some (slotStat (b.slots.getD 0 {}))
  | 0x118 => some (slotStat (b.slots.getD 1 {}))
  | 0x11C => some (slotStat (b.slots.getD 2 {}))
  | 0x120 => some (slotStat (b.slots.getD 3 {}))
  | 0x128 => some b.log.length
  | 0x12C => some (b2n b.pushOpen + 2 * b2n (decide (3 ≤ b.stage)) + b.push.length * 256)
  | 0x130 => some (leNat (revisionOf b.manifest))
  | _ => none

/-- DAXLIA (R422). -/
def daxliaReg (s : State) (off : Nat) : Option Nat :=
  match off with
  | 0x100 => some (b2n (s.dax.drbgOk && 1 ≤ s.boot.stage) + 2 * b2n s.dax.debug + 4 * b2n s.dax.importKey.isSome + 8 * b2n (powered s))
  | 0x108 => some Config.serial.toNat
  | 0x110 => some (bits (mq s.boot.manifest 0) 41 40)
  | _ => none

/-- CAL (R44). -/
def calReg (s : State) (inst off : Nat) : Option Nat :=
  match off with
  | 0x100 => some (s.slice inst).chip.length
  | 0x11C => some (s.slice inst).spill.length
  | _ => none

/-- OCTET (R85, R80): LANE_STAT is what the lanes receive, which the manual leaves to the other end (log 1). -/
def octetReg (s : State) (inst off : Nat) : Option Nat :=
  let quar := fun (half : Nat) => if 8 ≤ inst % 16 then 0 else (hportOf s (portOfOctet inst half)).quar
  match off with
  | 0x108 => some (if s.stateOf blkOCTET inst = 0 then 0 else (Config.freeValue 16 s.free).toNat)
  | 0x118 => some (quar 0 + 4 * quar 1)
  | _ => none

/-- NumVFs as the host's SR-IOV capability of a PF holds it (R91, R104). -/
def numVfs (s : State) (inst sel : Nat) : Nat := (Tbl.getD (funcOf s inst sel).cfg 0x1A0 0).toNat % 65536

/-- HPORT (R104). -/
def hportReg (s : State) (inst off : Nat) : Option Nat :=
  let h := hportOf s inst
  let flr := fun (sel : Nat) => (funcOf s inst sel).inReset && !(funcOf s inst sel).subsumed
  match off with
  | 0x10C => some h.next.base0
  | 0x110 => some h.next.base1
  | 0x114 => some (h.shown.n0 + h.shown.n1 * 65536)
  | 0x118 => some (numVfs s inst 0 % 2048 + numVfs s inst 1 % 2048 * 65536)
  | 0x11C => some (h.shown.pf0 + h.shown.pf1 * 65536)
  | 0x120 => some (h.shown.vf0 + h.shown.vf1 * 65536)
  | 0x124 => some (131072 - msixHeld s)
  | 0x128 => some (if h.l0 then h.gen % 16 + h.width % 32 * 16 + b2n h.flit * 512 else 0)
  | 0x12C => some (b2n (s.pwr.perst.contains (octetOfPort inst)) + 2 * b2n (h.inReset && !perstLow s inst) + 4 * b2n (flr 0) +
      8 * b2n (flr 1) + 16 * b2n (flr 2) + 32 * b2n (s.funcs.any (fun f => f.1 / 4096 == inst && 1024 ≤ f.1 % 4096 && f.2.inReset && !f.2.subsumed)))
  | _ => none

/-- TWIN (R400): the link of each page, the pair in page 0. -/
def twinReg (s : State) (inst off : Nat) : Option Nat :=
  let k := linkOf s inst
  match off with
  | 0x100 => some (k.stat + 256 * b2n k.heard)
  | 0x104 => some (k.txSeq.toNat + 65536 * k.rxSeq.toNat)
  | 0x108 => some k.replay.length
  | 0x214 => some s.twin.unacked.length
  | 0x238 => some s.twin.mseqTx
  | 0x240 => some s.twin.mackRx
  | _ => none

/-- WINDOW (R105): the live epochs stand newest first. -/
def windowReg (s : State) (inst off : Nat) : Option Nat :=
  let w := winOf s inst
  match off with
  | 0x100 => some (((w.epochs.head?.map Prod.fst).getD 0) % 65536)
  | 0x104 => some (b2n w.busy * 2147483648 + w.epochs.length)
  | 0x108 => some (((w.epochs.getLast?.map Prod.fst).getD 0) % 65536)
  | _ => none

/-- Entries of a table that a page counts in OCC (R216): units for HTBL, rows of the page for TCAM. -/
def tableOcc (s : State) (blk inst : Nat) : Nat :=
  let at_ := fun (code lo n : Nat) => s.tables.filter (fun e => e.2.valid && tkey code lo ≤ e.1 && e.1 < tkey code lo + n)
  match blk with
  | 0x23 => ((at_ 4 (exactPos inst 0) 65536).map (fun e => if e.2.wide then 3 else 1)).sum + (at_ 4 (exactPos inst 65536) 8).length
  | 0x24 => (at_ 5 (8192 * inst) 8192).length
  | 0x26 => (at_ 7 0 (tkey 1 0)).length
  | _ => (at_ 8 0 (tkey 1 0)).length

/-- QMGR (R133): the queues of a port. -/
def queuesOn (s : State) (inst : Nat) : List (Nat × Queue) := s.queues.filter (fun q => q.1 < 2 ^ 32 && queuePort q.1 == inst || isProv q.1 && q.1 / 4096 % 128 == inst)

/-- DMA (R146). -/
def dmaReg (s : State) (inst off : Nat) : Option Nat :=
  let d := dmaOf s inst
  match off with
  | 0x100 => some d.base
  | 0x108 => some (d.log2 + d.space * 256 + d.fn * 65536)
  | 0x110 => some (d.c.toNat + d.d.toNat * 65536)
  | 0x118 => some (d.fidx.toNat + d.cause * 65536)
  | 0x11C => some d.doneIdx.toNat
  | _ => none

/-- LEVAIN (R272). -/
def levainReg (s : State) (off : Nat) : Option Nat :=
  match off with
  | 0x11C => some (ctxCount s (fun c => c.state == 3))
  | 0x120 => some (ctxCount s (fun c => !c.hb))
  | 0x124 => some (ctxCount s (fun c => c.hb))
  | 0x128 => some (pendUsed s)
  | 0x12C => some (pinTotal s)
  | 0x134 => some (parkUsed s (s.rd LEVAIN.PARK_SEL % 32))
  | _ => none

/-- CLUSTER (R343): running and waiting harts. -/
def clusterReg (s : State) (inst off : Nat) : Option Nat :=
  let word := fun (p : Hart → Bool) => bitWord (((clusterHarts inst).filter (fun h => p (hartOf s h))).map (· % 16)) 0
  match off with
  | 0x100 => some (word (fun h => h.running))
  | 0x104 => some (word (fun h => h.wait.isSome))
  | _ => none

/-- SLICE (R377). -/
def sliceReg (s : State) (off : Nat) : Option Nat :=
  match off with
  | 0x12C => some s.met.staged.length
  | 0x138 => some s.met.chainId.toNat
  | _ => none

/-- PWR (R445). -/
def pwrReg (s : State) (off : Nat) : Option Nat :=
  let ch := s.rd PWR.RAIL_SEL % 32
  match off with
  | 0x100 => some (bitWord ((List.range 32).filter (railLow s)) 0)
  | 0x108 => some (Tbl.getD s.pwr.railMv ch 0)
  | 0x10C => some (Tbl.getD s.pwr.railMin ch 0xFFFF)
  | _ => none

/-- MGMT (R465): HPRSNT_N is low where a cable is present, PERST_N high where it is released. -/
def mgmtReg (s : State) (off : Nat) : Option Nat :=
  if off = 0x100 then some s.pwr.straps.toNat
  else if 0x120 ≤ off && off < 0x130 then
    some (bitWord ((List.range 128).filter (fun o => !s.pwr.hprsnt.contains o)) ((off - 0x120) / 4))
  else if 0x130 ≤ off && off < 0x140 then some (bitWord s.pwr.perst ((off - 0x130) / 4))
  else if off = 0x140 then some (b2n s.twin.liveIn + 2 * b2n s.twin.liveStopped + 4 * b2n s.twin.liveOut)
  else none

/-- The state that a register shows by itself; none where the stored value is what it reads. -/
def shown (s : State) (blk inst off : Nat) : Option Nat :=
  match blk, off with
  | 0x01, _ => hubReg s off
  | 0x02, _ => rtimeReg s off
  | 0x03, _ => faultReg s off
  | 0x04, _ => bootReg s off
  | 0x05, _ => daxliaReg s off
  | 0x06, _ => calReg s inst off
  | 0x10, _ => octetReg s inst off
  | 0x11, _ => hportReg s inst off
  | 0x13, _ => twinReg s inst off
  | 0x15, _ => windowReg s inst off
  | 0x23, 0x10C => some (tableOcc s blk inst)
  | 0x23, 0x110 => some ((s.tables.filter (fun e => e.2.valid && tkey 4 (exactPos inst 65536) ≤ e.1 && e.1 < tkey 4 (exactPos (inst + 1) 0))).length)
  | 0x24, 0x10C => some (tableOcc s blk inst)
  | 0x25, 0x108 => some s.frags.length
  | 0x25, 0x10C => some (fragParked s)
  | 0x26, 0x10C => some (tableOcc s blk inst)
  | 0x26, 0x120 => some s.flushing.length
  | 0x27, 0x10C => some (tableOcc s blk inst)
  | 0x30, 0x104 => some (queuesOn s inst).length
  | 0x30, 0x108 => some ((queuesOn s inst).filter (fun q => q.2.state == 2)).length
  | 0x31, _ => dmaReg s inst off
  | 0x32, 0x140 => some (s.qps.filter (fun q => q.1 % 32 == inst)).length
  | 0x32, 0x144 => some (s.qps.filter (fun q => q.1 % 32 == inst && q.2.state == 4)).length
  | 0x33, _ => levainReg s off
  | 0x34, 0x100 => some s.ctls.length
  | 0x34, 0x104 => some s.nss.length
  | 0x35, 0x100 => some (locksUsed s)
  | 0x40, 0x100 => some (engineOf s inst).queue.length
  | 0x40, 0x104 => some (engineOf s inst).susp.length
  | 0x42, 0x108 => some s.cached.length
  | 0x51, 0x100 => some (262144 - itemsUsed s)
  | 0x52, _ => clusterReg s inst off
  | 0x60, 0x110 => some (Config.freeValue 9 s.free).toNat
  | 0x61, 0x110 => some (Config.freeValue 9 s.free).toNat
  | 0x62, 0x108 => some (bitWord ((s.regions.filter (fun r => bit (qw r.2 2) 0)).map Prod.fst) 0 ||| 3)
  | 0x70, 0x100 => some (s.tenants.filter (fun t => t.2.state != 0)).length
  | 0x70, 0x104 => some (drainsRunning s)
  | 0x71, 0x100 => some (bankOf (minuteNow s))
  | 0x71, 0x104 => some (Tbl.getD s.met.comb inst []).length
  | 0x72, _ => sliceReg s off
  | 0x80, _ => pwrReg s off
  | 0x82, _ => mgmtReg s off
  | _, _ => none

/-- A register whose value the manual leaves open (log 1): each read takes a fresh one. -/
def freeReg (blk off : Nat) : Bool := (blk == 0x10 && off == 0x108) || ((blk == 0x60 || blk == 0x61) && off == 0x110)

/-! ## A register's value -/

/-- The value of the register that begins at an offset, 64 bits of it when it is a pair, not frozen. -/
def liveReg (s : State) (blk inst off : Nat) (pair : Bool) : Nat :=
  match selected s blk inst off with
  | some (t, k) => (Tbl.getD t k 0).toNat
  | none =>
    match shown s blk inst off with
    | some v => v
    | none => if pair then s.rd64 (blk, off) inst else s.rd (blk, off) inst

/-- Where a snapshot holds a counter: a page register by its offset, a selected counter beyond them. -/
def snapKey (s : State) (blk inst off : Nat) : Nat :=
  match selected s blk inst off with
  | some (_, k) => 65536 + 2 * k
  | none => off

/-- The value of a register, statistics counters as FREEZE shows them (R52). -/
def regValue (s : State) (blk inst : Nat) (r : RegRow) (off : Nat) : Nat :=
  if r.stat && bit (s.hd blk inst 0x08) 2 then
    let t := Tbl.getD s.snaps (State.pk blk inst) []
    let k := snapKey s blk inst off
    (Tbl.getD t k 0).toNat + 4294967296 * (Tbl.getD t (k + 1) 0).toNat
  else liveReg s blk inst off r.pair

/-- A snapshot of a page's statistics counters (R52): every counter of its rows, and the selected ones it holds. -/
def snapshot (s : State) (blk inst : Nat) : Tbl Word :=
  let rows := (rowsOf blk).filter (fun r => r.stat && (selected s blk inst r.off).isNone)
  let put := fun (t : Tbl Word) (k v : Nat) => Tbl.put (Tbl.put t k (w32 v)) (k + 1) (w32 (v / 4294967296))
  let t := rows.foldl (fun (t : Tbl Word) (r : RegRow) => put t r.off (liveReg s blk inst r.off true)) []
  let per : Tbl Dword := match blk with
    | 0x12 => s.emacStat.filter (fun (p : Nat × Dword) => p.1 / 128 == inst)
    | 0x41 => s.macStat.filter (fun (p : Nat × Dword) => p.1 / 128 == inst)
    | 0x21 => s.malCnt.filter (fun (p : Nat × Dword) => p.1 / 32768 == inst)
    | _ => []
  per.foldl (fun (t : Tbl Word) (p : Nat × Dword) => put t (65536 + 2 * p.1) p.2.toNat) t

/-! ## A function's BAR0 (R68, R132, R265, R274, R104) -/

/-- The queue of a function, by number. -/
def fnQueue (s : State) (port sel q : Nat) : Option Queue := Tbl.get? s.queues ((port * 4096 + sel) * 4096 + q)

/-- An access beyond what the function has: it reads 0 and counts (R68). -/
def beyond (s : State) (port : Nat) : State := s.bumpErr blkQMGR port 29

/-- PF0 or a VF of it: the ring functions (R132). -/
def ringFn (sel : Nat) : Bool := sel == 0 || (0x400 ≤ sel && sel < 0x800)

/-- VF_INFO and queue control of a ring function (R132). -/
def queueControl (s : State) (port sel off : Nat) : Nat :=
  let f := funcOf s port sel
  let q := fnQueue s port sel (f.qcSel.toNat % 4096)
  let mine := s.queues.filter (fun q => q.1 / 4096 == port * 4096 + sel)
  let rings := s.rings.filter (fun r => r.1 / 16 == fkey port sel)
  match off with
  | 0x0000 => (mine.foldl (fun (m : Nat) (q : Nat × Queue) => max m (q.1 % 4096 + 1)) 0) % 4096 + rings.length * 65536
  | 0x0004 => if sel = 0 then 2147483648 else ((hportOf s port).shown.base0 + (sel - 0x400)) % 4096
  | 0x0100 => f.qcSel.toNat
  | 0x0104 => (q.map (fun q => q.fidx.toNat + q.cause * 65536 + q.state % 8 * 16777216 + q.kind % 8 * 268435456)).getD 0
  | 0x0108 => (q.map (fun q => q.c.toNat + q.d.toNat * 65536)).getD 0
  | 0x0110 => f.qcResult.toNat
  | _ => 0

/-- A register of an event ring (R132). -/
def ringReg (r : EvRing) (k : Nat) : Nat :=
  match k with
  | 0x0 => r.cons.toNat
  | 0x4 => b2n r.overrun + 2 * b2n r.armed + r.log2 * 65536
  | 0xC => r.ep.toNat
  | _ => 0

/-- PF0's own registers (R104, R265): INTX_CAUSE and the host-backing region. -/
def pf0Reg (s : State) (port off : Nat) : Nat :=
  let f := funcOf s port 0
  let h := hportOf s port
  match off with
  | 0x0F00 => f.hbBaseLo.toNat
  | 0x0F04 => f.hbBaseHi.toNat
  | 0x0F08 => f.hbPages.toNat
  | 0x0F0C => b2n f.hbValid
  | 0x0F10 => b2n (f.hbValid && !h.hbDrain) + 2 * b2n h.hbDrain + h.hbSlots.length * 256
  | 0x0FF0 => f.intxCause.toNat
  | _ => 0

/-- A read of a ring function's BAR0, with the count of what lies beyond it. -/
def ringFnRead (s : State) (port sel off : Nat) : Nat × State :=
  if 0x1000 ≤ off then
    let q := (off - 0x1000) / 16
    (0, if off % 16 = 0 && (fnQueue s port sel q).isSome then s else beyond s port)
  else if 0x0200 ≤ off && off < 0x0300 then
    match Tbl.get? s.rings (ekey port sel ((off - 0x200) / 16)) with
    | some r => (ringReg r (off % 16), s)
    | none => (0, beyond s port)
  else if sel = 0 && 0x0F00 ≤ off then (pf0Reg s port off, s)
  else (queueControl s port sel off, s)

/-- A register of an NVMe controller (R274). -/
def ctlReg (c : NvCtl) (sel off : Nat) : Nat :=
  let cap := c.mqes % 65536 + 65536 + 131072 + 0x14 * 16777216 + 2 ^ 37
  match off with
  | 0x00 => cap % 4294967296
  | 0x04 => cap / 4294967296
  | 0x08 => 0x00020000
  | 0x0C => if sel = 1 then c.intms.toNat else 0
  | 0x10 => if sel = 1 then c.intms.toNat else 0
  | 0x14 => c.cc.toNat
  | 0x1C => cstsOf c
  | 0x24 => c.aqa.toNat
  | 0x28 => c.asq % 4294967296
  | 0x2C => c.asq / 4294967296
  | 0x30 => c.acq % 4294967296
  | 0x34 => c.acq / 4294967296
  | _ => 0

end Sys2Proof.Machine
end

