-- ==== Sys2Proof/Machine/Reads.lean ====
section
/-! DEFINITION. Reading a register: who may, what a read returns and what it changes (R8, R48 to R50, R66, R68, R456). -/

namespace Sys2Proof.Machine

/-- The address of a page register (R47). -/
def pageAddr (blk inst off : Nat) : Nat := blk * 2097152 + inst * 4096 + off

/-- The key of a requester's latch or stage of a word (R50). -/
def latchKey (blk inst off : Nat) (who : Requester) : Nat := pageAddr blk inst off * 2048 + whoIx who

/-- A word is latched for a requester. -/
def setLatch (s : State) (blk inst off : Nat) (who : Requester) (v : Nat) : State :=
  { s with latches := Tbl.put s.latches (latchKey blk inst off who) (w32 v) }

/-- An RC register is cleared; an increment in the same cycle leaves 1 in a counter (R8, R55). -/
def clearRc (s : State) (blk inst off : Nat) (counter event : Bool) : State :=
  if blk = blkPWR ∧ off = 0x10C then { s with pwr := { s.pwr with railMin := Tbl.del s.pwr.railMin (s.rd PWR.RAIL_SEL % 32) } }
  else if counter && event then s.hdw blk inst off 1
  else s.wrA (pageAddr blk inst off) (resetOf Config.codeE (pageAddr blk inst off))

/-- The read of a HI word: the latch of an earlier LO read, which it uses up, or the present high word (R50). -/
def readHi (who : Requester) (blk inst off : Nat) (r : RegRow) (s : State) : Nat × State :=
  match Tbl.get? s.latches (latchKey blk inst off who) with
  | some v => (v.toNat, { s with latches := Tbl.del s.latches (latchKey blk inst off who) })
  | none => (regValue s blk inst r (loOff r off) / 4294967296, s)

/-- What a read of a register row changes: the latch of a HI word, an RC value, the refusal of an injection register
outside test mode (R436). -/
def readEffect (who : Requester) (event : Bool) (blk inst off : Nat) (r : RegRow) (v : Nat) (s : State) : State :=
  if r.acc = .rc then clearRc s blk inst off (blk == blkHUB) event
  else if r.pair then setLatch s blk inst (off + 4) who (v / 4294967296)
  else if blk = blkRTIME ∧ off = 0x100 then setLatch (setLatch s blk inst 0x104 who (nowHi s)) blk inst 0x108 who (nowXhi s)
  else if blk = blkFAULT ∧ 0x180 ≤ off ∧ !testMode s then s.bumpErr blkFAULT 0 3
  else if freeReg blk off then { s with free := s.free + 1 }
  else s

/-- The read of a register row. NOW_HI and NOW_XHI keep what NOW_LO latched (R39). -/
def readRow (who : Requester) (event : Bool) (blk inst off : Nat) (r : RegRow) (s : State) : Nat × State :=
  if r.acc = .wo then (0, s)
  else if isHi r off then readHi who blk inst off r s
  else if blk = blkRTIME ∧ (off = 0x104 ∨ off = 0x108) then (((Tbl.get? s.latches (latchKey blk inst off who)).getD 0).toNat, s)
  else
    let v := regValue s blk inst r off
    (v % 4294967296, readEffect who event blk inst off r v s)

/-- The read of a register of a populated page by a requester that may (R8, R48, R50). -/
def readReg (who : Requester) (event : Bool) (blk inst off : Nat) (s : State) : Nat × State :=
  if off < 0x80 then (headerReg s blk inst off, s)
  else if off < 0x100 then (s.hd blk inst off, clearRc s blk inst off true event)
  else if absentReg s blk inst off then (0, s)
  else
    match rowOf? blk off with
    | some r => readRow who event blk inst off r s
    | none => (0, s)

/-- A read that R49 rejects: Unsupported Request on the Control Function path, a load access fault of a hart, 0 on the
management interface. -/
def badRead (who : Requester) (s : State) : Option Nat × State :=
  let ur := fun (which : Nat) => match controlPort s which with
    | some p => s.bumpErr blkHPORT p 0
    | none => s
  match who with
  | .ctrlA => (none, ur 1)
  | .ctrlB => (none, ur 2)
  | .hart _ => (none, s)
  | .mgmt => (some 0, s)

/-- A read on the register bus (R48 to R50, R66, R94): its value, none where R49 rejects it. -/
def busRead (who : Requester) (addr : Nat) (event : Bool) (s : State) : Option Nat × State :=
  let blk := addr / 2097152
  let inst := addr / 4096 % 512
  let off := addr % 4096
  if (cfInReset s who).isSome then (some 0, s)
  else if pageCount blk ≤ inst then
    if off % 4 = 0 then (some 0, bumpUnpop s) else badRead who (bumpUnpop s)
  else if off % 4 ≠ 0 then badRead who (s.bumpErr blk inst 29)
  else if !mayRead s who blk then (some 0, s.bumpErr blk inst 28)
  else
    let r := readReg who event blk inst off s
    (some r.1, r.2)

/-- A read of a function's BAR0 (R68, R91, R94, R96, R132, R265, R273, R274). -/
def fnRead (port sel off : Nat) (s : State) : State :=
  let f := funcOf s port sel
  if (s.stateOf blkHPORT port ≠ 4 && !f.inReset) || !funcPresent s port sel || f.d3 then unsupported s port sel true
  else if f.inReset || f.draining then s.emit (.barData port sel (some 0))
  else if off % 4 ≠ 0 then ((s.bumpErr blkQMGR port 29).bumpErr blkHPORT port 0).emit (.barData port sel none)
  else if ringFn sel then
    let r := ringFnRead s port sel off
    r.2.emit (.barData port sel (some (w32 r.1)))
  else if sel = 2 then s.emit (.barData port sel (some 0))
  else
    let v := match ctlOf s port sel with
      | some (_, c) => ctlReg c sel off
      | none => if off = 0x1C then 2 else 0
    s.emit (.barData port sel (some (w32 v)))

/-- A register read of either kind, its data sent to the requester. -/
def targetRead (who : Requester) (tgt : Target) (event : Bool) (s : State) : State :=
  match tgt with
  | .page addr =>
    let r := busRead who addr.toNat event s
    r.2.emit (.regData who (r.1.map w32))
  | .fn port sel off => fnRead port.val sel.toNat off.toNat s

def execRcRead (who : Requester) (tgt : Target) (event : Bool) (s : State) : Host.Outcome State Fault Refusal :=
  ok (targetRead who tgt event s)

def execReg64LoRead (who : Requester) (tgt : Target) (s : State) : Host.Outcome State Fault Refusal :=
  ok (targetRead who tgt false s)

/-- R456: a read through the management interface; one that meets a running access is NACKed. -/
def execMgmtPrivateRead (addr : Word) (busy : Bool) (s : State) : Host.Outcome State Fault Refusal :=
  ok (if busy then ((s.bumpErr blkMGMT 0 2).istat blkMGMT 0 1).emit (.pin 8 0 1)
      else targetRead .mgmt (.page (addr.setWidth 29)) false s)

end Sys2Proof.Machine
end

