-- ==== Sys2Proof/Machine/SoftReset.lean ====
section
/-! DEFINITION. SOFT_RESET of a page (R52, R61, R468): in-flight work, register fields, and the state the page holds
beyond them. -/

namespace Sys2Proof.Machine

/-- The entries of a table whose key meets a condition go. -/
def dropKeys {α : Type} (t : List (Nat × α)) (p : Nat → Bool) : List (Nat × α) := t.filter (fun e => !p e.1)

/-! ## Held state that goes while the registers still stand -/

/-- The queues of a host port, its provider rings and its event rings return to NONE (R52, R122). -/
def resetQueues (s : State) (i : Nat) : State :=
  let s := (queuesOn s i).foldl (fun (s : State) (q : Nat × Queue) => freeHandle { s with queues := Tbl.del s.queues q.1 } q.2.handle) s
  { s with rings := dropKeys s.rings (fun k => k / 65536 == i) }

/-- The QPs of an engine go with their contexts. -/
def resetQps (s : State) (i : Nat) : State :=
  (s.qps.filter (fun q => q.1 % 32 == i)).foldl (fun (s : State) (q : Nat × Qp) =>
    [0, 1, 2, 3].foldl (fun (s : State) (n : Nat) => freeHandle s (q.2.handle + n)) { s with qps := Tbl.del s.qps q.1 }) s

/-- Controllers, namespaces, backing queues and commands of the NVMe front end. -/
def resetNvme (s : State) : State :=
  let s := nvDiscard s (fun _ => true)
  let s := s.ctls.foldl (fun (s : State) (c : Nat × NvCtl) => freeNvQueues s c.2) s
  { s with ctls := [], nss := [], bkqs := [] }

/-- Host ports of an octet after its SOFT_RESET: what removal quarantined is purged, the ports are absent. -/
def purgePorts (s : State) (ports : List Nat) : State :=
  ports.foldl (fun (s : State) (p : Nat) =>
    let s := purge (cancelExpiry s p) p
    setHport s p { hportOf s p with quar := 0 }) s

/-- What a page's held state comes to before its registers return (R52): links and ports go down, objects release what
they hold elsewhere. -/
def softBefore (s : State) (blk i : Nat) : State :=
  match blk with
  | 0x10 => octetOff (purgePorts s (hostPorts s i)) i
  | 0x11 => endDrains (portReset (hostLink s i false) i) i
  | 0x12 => (ethPorts s i).foldl (fun (s : State) (k : Nat) => if persOf s i = 3 then portDown s i k false else s) s
  | 0x13 =>
    let s := linkDown s i
    if i = 0 then leavePair s else s
  | 0x14 => (List.range 4).foldl (fun (s : State) (k : Nat) => if persOf s i = 2 then portDown s i k false else s) s
  | 0x30 => resetQueues s i
  | 0x32 => resetQps s i
  | 0x34 => resetNvme s
  | 0x35 => (s.ctls.map Prod.fst).foldl refetch (nvDiscard s (fun _ => true))
  | 0x50 => redeliverAll s (tileHarts i)
  | 0x51 =>
    let items := s.heldBy.flatMap (fun (h : Held) => h.item :: h.puts)
    items.foldl freeItemCells (discardItems s (fun _ => true))
  | _ => s

/-! ## Held state that returns to what a device reset leaves -/

/-- The state that one page alone holds returns to its reset state (R52). What one command writes into every page of a
type together is kept: action records, templates, hash profiles, tenant keys, path groups, direct tables. RTIME goes as
on the loss of all sources (R468). -/
def softHeld (s : State) (blk i : Nat) : State :=
  match blk with
  | 0x02 => loseAll s
  | 0x03 => { s with flt := { s.flt with sev := [], mode := 0, pinHeld := false } }
  | 0x04 => { s with boot := { s.boot with log := [], push := [], staged := [] } }
  | 0x05 => { s with dax := { s.dax with chunks := [], nonce := none, sigPart := [], spdm := [] } }
  | 0x06 => { s with cal := Tbl.del s.cal i }
  | 0x11 =>
    let s := freshStart (setHport s i { hportOf s i with next := {} }) i
    let s := setHport s i { hportOf s i with inReset := false }
    s.setState blkHPORT i (if portUsed s i then idlePort s i else 0)
  | 0x12 => { s with emacStat := dropKeys s.emacStat (fun k => k / 128 == i) }
  | 0x13 =>
    let s := { s with twin := { s.twin with links := Tbl.del s.twin.links i } }
    if i ≠ 0 then s
    else { s with twin := { ({} : Twin) with links := s.twin.links, liveLast := s.twin.liveLast, liveStopped := s.twin.liveStopped,
                                             liveIn := s.twin.liveIn, liveOut := s.twin.liveOut } }
  | 0x15 => { s with windows := Tbl.del s.windows i }
  | 0x21 => { s with nodes := dropKeys s.nodes (fun k => k / 4096 == i), banks := s.banks.filter (fun b => b / 8 != i),
                     portProf := dropKeys s.portProf (fun k => k / 2048 == i), malCnt := dropKeys s.malCnt (fun k => k / 32768 == i) }
  | 0x22 => { s with keyProf := dropKeys s.keyProf (fun k => k / 64 == i), ranges := dropKeys s.ranges (fun k => k / 256 == i),
                     paces := dropKeys s.paces (fun k => k / 256 == i) }
  | 0x23 => { s with tables := dropKeys s.tables (fun k => tkey 4 (exactPos i 0) ≤ k && k < tkey 4 (exactPos (i + 1) 0)) }
  | 0x24 => { s with tables := dropKeys s.tables (fun k => tkey 5 (8192 * i) ≤ k && k < tkey 5 (8192 * (i + 1))) }
  | 0x25 => { s with frags := [] }
  | 0x26 => { s with flushing := [], scanning := false, scanPos := 0, tableRetry := Tbl.del s.tableRetry 0 }
  | 0x27 => { s with learnQ := [], nrOvr := false, removeQ := [], tableRetry := Tbl.del s.tableRetry 1,
                     tables := dropKeys s.tables (fun k => tkey 8 0 ≤ k && k < tkey 9 0) }
  | 0x28 => { s with stbls := dropKeys s.stbls (fun k => k / 524288 == i), vports := dropKeys s.vports (fun k => k / 131072 == i) }
  | 0x31 => { s with dma := Tbl.del s.dma i }
  | 0x33 => { s with ctxs := [], quotas := [], hand := 0, chargeRetry := none,
                     hports := Tbl.mapV s.hports (fun _ h => { h with hbDrain := false, hbSlots := [] }) }
  | 0x41 => { s with sas := dropKeys s.sas (fun k => k / 256 == i), macStat := dropKeys s.macStat (fun k => k / 128 == i) }
  | 0x50 => { s with harts := dropKeys s.harts (fun h => tileOf h == i), tests := setDel s.tests i, drainAt := Tbl.del s.drainAt i,
                     canaries := dropKeys s.canaries (fun k => k / 4 == i), canNext := Tbl.del s.canNext i, canMiss := Tbl.del s.canMiss i }
  | 0x51 => { s with workqs := [], heldBy := [], weights := [], deficits := [] }
  | 0x52 => { s with harts := dropKeys s.harts (fun h => clusterOf h == i) }
  | 0x60 => { s with memctl := Tbl.del s.memctl (memKey false i), panic := if i = 0 then [] else s.panic }
  | 0x61 => { s with memctl := Tbl.del s.memctl (memKey true i) }
  | 0x62 => { s with regions := [] }
  | 0x70 => { s with tenants := [], drains := [],
                     funcs := Tbl.mapV s.funcs (fun _ f => { f with owner := 4096, draining := false }) }
  | 0x71 => { s with met := { s.met with comb := Tbl.del s.met.comb i, pol := dropKeys s.met.pol (fun k => k / 2048 == i),
                                         refillRetry := Tbl.del s.met.refillRetry i } }
  | 0x72 => { s with met := { ({} : Meters) with comb := s.met.comb, pol := s.met.pol, refillRetry := s.met.refillRetry } }
  | 0x80 => { s with pwr := { s.pwr with holdEnd := none, railMin := [] } }
  | 0x81 => { s with pwr := { s.pwr with level := 0 } }
  | _ => s

/-! ## The register fields -/

/-- What SOFT_RESET leaves of a stored register of the page: LOCK and ENABLE, the error counters, RWL fields already
locked; on FAULT what only a power cycle clears, on RTIME MINUTE_OFFSET while the sequencer is armed (R52, R442, R468). -/
def softKeeps (s : State) (blk : Nat) (lock : Bool) (a : Nat) (v : Word) : Option Word :=
  let off := a % 4096
  if off = 0x08 then some (v &&& 0x80000001)
  else if 0x80 ≤ off ∧ off < 0x100 then some v
  else if lock && (match rowOf? blk off with | some r => r.acc == .rwl | none => false) then some v
  else if blk = blkFAULT ∧ keptReg a then some v
  else if blk = blkRTIME ∧ off = 0x11C ∧ s.clk.armed then some v
  else none

/-- The stored registers of every page after one page's SOFT_RESET. -/
def softRegs (s : State) (blk i : Nat) : Tbl Word :=
  let lock := s.locked blk i
  s.regs.filterMap (fun p =>
    if p.1 / 4096 = State.pk blk i then
      (softKeeps s blk lock p.1 p.2).bind (fun v => if v = resetOf Config.codeE p.1 then none else some (p.1, v))
    else some p)

/-- The page's fields return; latches, stages and its snapshot go with them. -/
def softFields (s : State) (blk i : Nat) : State :=
  let p := State.pk blk i
  let mine := fun (k : Nat) => k / 2048 / 4096 == p
  { s with regs := softRegs s blk i, latches := dropKeys s.latches mine, stages := dropKeys s.stages mine,
           snaps := Tbl.del s.snaps p, pgState := if blk = blkOCTET ∨ blk = blkHPORT then s.pgState else Tbl.del s.pgState p }

/-- A class 2 record of the page is closed by its reset, and DEGRADED goes (R427). -/
def softDegraded (s : State) (p : Nat) : State :=
  if State.pkBlk p = blkHUB then s
  else clearDegraded (mapRecs s (fun r => r.state == 1 && r.page == some p && r.cls == 2) (fun r => { r with state := 2 })) p

/-- SOFT_RESET of a page (R52): in-flight work is discarded, the held state and the fields return, then a running
command ends with 0x07 (R61). SOFT_RESET reads 1 until the reset is done. -/
def softReset (s : State) (blk i : Nat) : State :=
  let p := State.pk blk i
  let run := Tbl.get? s.running p
  let s := { s with running := Tbl.del s.running p }
  let s := unitEffects (discardInFlight s p) p
  let s := softBefore s blk i
  let s := softDegraded s p
  let s := softHeld (softFields s blk i) blk i
  let s := { s with resetting := setAdd s.resetting p }
  match run with
  | some r => endCommand { s with running := Tbl.put s.running p r } p 0x07 none
  | none => s

/-- The soft reset of a page is done (R52). -/
def softDone (p : Nat) (s : State) : State := { s with resetting := setDel s.resetting p }

def execSoftResetComplete (pg : PageRef) (s : State) : Host.Outcome State Fault Refusal := ok (onPage pg softDone s)

end Sys2Proof.Machine
end

