-- ==== Sys2Proof/Machine/PageCmds.lean ====
section
/-! DEFINITION. The opcodes of every page (the PG_CMD tables of the chapters), a plain write of PG_CMD, and the end of a
command that was left running (R56 to R61, R470). -/

namespace Sys2Proof.Machine

/-- The opcodes of the hub, lane and host blocks. -/
def hubEffect (blk op : Nat) : Option (CmdCtx → State → CmdRes) :=
  match blk, op with
  | 0x02, 0x01 => some cmdLaneCal
  | 0x02, 0x02 => some cmdArmSeals
  | 0x03, 0x01 => some cmdSevWrite
  | 0x03, 0x02 => some cmdSevRead
  | 0x03, 0x03 => some cmdFaultLogRead
  | 0x03, 0x04 => some cmdUnitQuery
  | 0x03, 0x05 => some cmdUnitRestore
  | 0x04, 0x01 => some cmdSlotGood
  | 0x04, 0x02 => some cmdBootLogRead
  | 0x04, 0x03 => some cmdRecovWrite
  | 0x04, 0x04 => some cmdRecovDone
  | 0x04, 0x05 => some cmdFuseSvn
  | 0x05, 0x01 => some cmdImportPub
  | 0x05, 0x02 => some cmdImportKey
  | 0x05, 0x03 => some cmdJtagChallenge
  | 0x05, 0x04 => some cmdJtagUnlock
  | 0x05, 0x05 => some cmdMeasureRead
  | 0x06, 0x01 => some cmdSchedule
  | 0x06, 0x02 => some cmdCancel
  | 0x06, 0x03 => some cmdQuery
  | 0x10, 0x01 => some cmdUp
  | 0x10, 0x02 => some cmdDown
  | 0x10, 0x03 => some cmdRecal
  | 0x10, 0x04 => some (cmdReattach true)
  | 0x10, 0x05 => some (cmdReattach false)
  | 0x11, 0x01 => some cmdVfAlloc
  | 0x11, 0x02 => some cmdMsixAlloc
  | 0x11, 0x03 => some cmdFuncReset
  | 0x13, 0x01 => some cmdLeave
  | 0x13, 0x02 => some cmdHandback
  | 0x13, 0x03 => some cmdTakeover
  | 0x15, 0x01 => some cmdWinWrite
  | 0x15, 0x02 => some cmdWinRead
  | 0x15, 0x03 => some cmdWindowCommit
  | 0x82, 0x01 => some cmdSpdRead
  | _, _ => none

/-- The opcodes of the pipeline and table blocks. -/
def pipeEffect (blk op : Nat) : Option (CmdCtx → State → CmdRes) :=
  match blk, op with
  | 0x21, 0x01 => some cmdNodeWrite
  | 0x21, 0x02 => some cmdNodeRead
  | 0x21, 0x03 => some cmdProfCommit
  | 0x21, 0x04 => some cmdPortProf
  | 0x21, 0x05 => some cmdPortQuery
  | 0x22, 0x01 => some cmdKeyprofWrite
  | 0x22, 0x02 => some cmdRangeWrite
  | 0x22, 0x03 => some cmdArecWrite
  | 0x22, 0x04 => some cmdTmplWrite
  | 0x22, 0x11 => some cmdKeyprofRead
  | 0x22, 0x12 => some cmdRangeRead
  | 0x22, 0x13 => some cmdArecRead
  | 0x22, 0x14 => some cmdTmplRead
  | 0x25, 0x01 => some cmdFragFlush
  | 0x28, 0x01 => some cmdHprofWrite
  | 0x28, 0x02 => some cmdTkeyWrite
  | 0x28, 0x03 => some cmdPgrpWrite
  | 0x28, 0x04 => some cmdStblWrite
  | 0x28, 0x05 => some cmdVportWrite
  | 0x28, 0x11 => some cmdHprofRead
  | 0x28, 0x12 => some cmdTkeyRead
  | 0x28, 0x13 => some cmdPgrpRead
  | 0x28, 0x14 => some cmdStblRead
  | 0x28, 0x15 => some cmdVportRead
  | _, _ =>
    if (blk = 0x23 ∨ blk = 0x24 ∨ blk = 0x26 ∨ blk = 0x27) ∧ 1 ≤ op ∧ op ≤ 8 then some (tableCommand op) else none

/-- The opcodes of the queue, storage, cipher, core, memory and tenant blocks. -/
def queueEffect (blk op : Nat) : Option (CmdCtx → State → CmdRes) :=
  match blk, op with
  | 0x30, 0x01 => some cmdQCreate
  | 0x30, 0x02 => some cmdQDestroy
  | 0x30, 0x03 => some cmdQStop
  | 0x30, 0x04 => some cmdQStart
  | 0x30, 0x05 => some cmdQResume
  | 0x30, 0x06 => some cmdQQuery
  | 0x30, 0x07 => some cmdErCreate
  | 0x30, 0x08 => some cmdErDestroy
  | 0x31, 0x01 => some cmdDmaSetup
  | 0x31, 0x02 => some cmdDmaStart
  | 0x31, 0x03 => some cmdDmaStop
  | 0x31, 0x04 => some cmdDmaResume
  | 0x31, 0x05 => some cmdDmaRelease
  | 0x32, 0x01 => some cmdQpCreate
  | 0x32, 0x02 => some cmdQpModify
  | 0x32, 0x03 => some cmdQpQuery
  | 0x32, 0x04 => some cmdQpDestroy
  | 0x32, 0x05 => some cmdMkeyWrite
  | 0x32, 0x06 => some cmdMkeyInvalidate
  | 0x32, 0x07 => some cmdMkeyRead
  | 0x33, 0x01 => some cmdTquotaWrite
  | 0x33, 0x02 => some cmdTquotaRead
  | 0x33, 0x03 => some cmdCtxQuery
  | 0x33, 0x04 => some cmdEvict
  | 0x33, 0x05 => some cmdSetClass
  | 0x34, 0x01 => some cmdCtrlCreate
  | 0x34, 0x02 => some cmdCtrlDestroy
  | 0x34, 0x03 => some cmdCtrlQuery
  | 0x34, 0x04 => some cmdNsCreate
  | 0x34, 0x05 => some cmdNsDestroy
  | 0x34, 0x06 => some cmdNsAttach
  | 0x34, 0x07 => some cmdNsDetach
  | 0x34, 0x08 => some cmdNsRebind
  | 0x34, 0x09 => some cmdBkqWrite
  | 0x34, 0x0A => some cmdBkDown
  | 0x34, 0x0B => some mgmtAdmin
  | 0x35, 0x01 => some cmdRlQuery
  | 0x40, 0x01 => some cmdJob
  | 0x41, 0x01 => some cmdSaWrite
  | 0x41, 0x02 => some cmdSaRead
  | 0x41, 0x03 => some cmdSaDisable
  | 0x42, 0x01 => some cmdKeyStage
  | 0x42, 0x02 => some cmdSlotWrite
  | 0x42, 0x03 => some cmdSlotRead
  | 0x42, 0x04 => some cmdSlotInvalidate
  | 0x50, 0x01 => some cmdSelftest
  | 0x50, 0x02 => some cmdCanaryWrite
  | 0x51, 0x01 => some cmdQcfgWrite
  | 0x51, 0x02 => some cmdQcfgRead
  | 0x51, 0x03 => some cmdTweightWrite
  | 0x51, 0x04 => some cmdProoferFlush
  | 0x52, 0x01 => some cmdHartReset
  | 0x62, 0x01 => some cmdRegionWrite
  | 0x62, 0x02 => some cmdRegionRead
  | 0x70, 0x01 => some cmdTenantOpen
  | 0x70, 0x02 => some cmdTenantClose
  | 0x70, 0x03 => some cmdTenantQuery
  | 0x70, 0x04 => some cmdFuncAssign
  | 0x70, 0x05 => some cmdFuncQuery
  | 0x71, 0x01 => some cmdMtrRead
  | 0x71, 0x02 => some cmdPolRead
  | _, _ => none

/-- The opcodes of HBMC and DDRC (R356). -/
def memEffect (op : Nat) : Option (CmdCtx → State → CmdRes) :=
  match op with
  | 0x01 => some cmdTrainStart
  | 0x02 => some cmdDlyWrite
  | 0x03 => some cmdDlyRead
  | 0x04 => some cmdTrainPattern
  | 0x05 => some cmdGoActive
  | 0x06 => some cmdSwap
  | _ => none

/-- What an opcode does on a block; none is BAD_OPCODE (R59). -/
def pageEffect (blk op : Nat) : Option (CmdCtx → State → CmdRes) :=
  if blk = 0x60 ∨ blk = 0x61 then memEffect op
  else if blk < 0x20 ∨ blk = 0x82 then hubEffect blk op
  else if blk < 0x30 then pipeEffect blk op
  else queueEffect blk op

/-- An undefined opcode that has started ends (R470 steps 2 and 3). -/
def endUnknown (s : State) (p : Nat) : State :=
  match Tbl.get? s.running p with
  | some r => endCommand s p (if r.rsvd then 0x03 else 0x01) none
  | none => s

/-- A write of PG_CMD with nothing else (R56, R58, R66). -/
def writePgCmd (who : Requester) (blk inst v : Nat) (s : State) : State :=
  let op := v % 256
  let c : CmdIn := { who := who, inst := BitVec.ofNat 9 inst, hi := BitVec.ofNat 24 (v / 256), arg0 := none, arg1 := none,
                     data := [], env := [], defer := false }
  match pageEffect blk op with
  | some eff => pageCommand blk op eff c s
  | none =>
    let p := State.pk blk inst
    let t := pageCommand blk op (fun _ s => .fail s 0x01) { c with defer := true } s
    if (Tbl.get? s.running p).isSome then t else endUnknown t p

/-- A command that was left running ends (R56): it is judged and has its effect, unless it waits for an event of its
own. -/
def commandEnds (p : Nat) (s : State) : State :=
  match Tbl.get? s.running p with
  | none => s
  | some r =>
    if r.wait then s
    else
      match pageEffect (State.pkBlk p) r.op.toNat with
      | some eff => finish (State.pkBlk p) (State.pkInst p) eff s
      | none => endUnknown s p

def execCommandEnd (pg : PageRef) (s : State) : Host.Outcome State Fault Refusal := ok (withResets (onPage pg commandEnds) s)

end Sys2Proof.Machine
end

