-- ==== Sys2Proof/Machine/Bus.lean ====
section
/-! DEFINITION. Writing a register: who may, the ranges and conditions of each page, what a write does beyond the stored value
(R8, R48 to R58, R63 to R66, R68, R456 and the register tables of each chapter). -/

namespace Sys2Proof.Machine

/-! ## PG_CTRL (R52) -/

/-- A bit of PG_CTRL set or cleared. -/
def ctrlBit (s : State) (blk inst k : Nat) (on : Bool) : State :=
  let v := s.hd blk inst 0x08
  s.hdw blk inst 0x08 (if on then v ||| 2 ^ k else v - (v &&& 2 ^ k))

/-- ENABLE is read-only in six block types (R52). -/
def enableFixed (blk : Nat) : Bool :=
  blk == blkHUB || blk == blkRTIME || blk == blkFAULT || blk == blkDAXLIA || blk == blkPWR || blk == blkTHERM

/-- A block that is enabled takes the work that waits for it. -/
def startsWork (s : State) (blk inst : Nat) : State :=
  if blk = blkHPORT then (if s.stateOf blkHPORT inst = 1 then s.setState blkHPORT inst (idlePort s inst) else s)
  else if blk = blkTILE then dispatchWaiting s
  else unitServes s (State.pk blk inst)

def setLock (blk inst : Nat) (s : State) : State := ctrlBit s blk inst 31 true

/-- FREEZE: each write of 1 takes a snapshot, a write of 0 shows the live counters again. -/
def setFreeze (blk inst : Nat) (on : Bool) (s : State) : State :=
  let p := State.pk blk inst
  let snaps := if on then Tbl.put s.snaps p (snapshot s blk inst) else Tbl.del s.snaps p
  ctrlBit { s with snaps := snaps } blk inst 2 on

def setEnable (blk inst : Nat) (on : Bool) (s : State) : State :=
  if enableFixed blk then s
  else
    let was := s.enabled blk inst
    let s := ctrlBit s blk inst 0 on
    if on && !was then startsWork s blk inst else s

/-- A write of PG_CTRL: LOCK and SOFT_RESET only set. -/
def ctrlWrite (blk inst v : Nat) (s : State) : State :=
  let s := if bit v 31 then setLock blk inst s else s
  let s := setEnable blk inst (bit v 0) (setFreeze blk inst (bit v 2) s)
  if bit v 1 then softReset s blk inst else s

/-! ## The header (R51, R54, R56, R58) -/

/-- Bits written 1 clear; bits of an event in the same cycle stand (R8, R54). -/
def clearOnes (old v event : Nat) : Nat := (old - (old &&& v)) ||| event

def itest (blk inst v : Nat) (s : State) : State := s.hdw blk inst 0x10 (s.hd blk inst 0x10 ||| v)

def headerWrite (blk inst off v event : Nat) (s : State) : State :=
  if off = 0x08 then ctrlWrite blk inst v s
  else if off = 0x10 then s.hdw blk inst 0x10 (clearOnes (s.hd blk inst 0x10) v event)
  else if off = 0x14 then s.hdw blk inst 0x14 v
  else if off = 0x18 then itest blk inst v s
  else if off = 0x28 ∨ off = 0x2C ∨ (0x40 ≤ off ∧ off < 0x80) then
    if (Tbl.get? s.running (State.pk blk inst)).isSome then s.bumpErr blk inst 31 else s.hdw blk inst off v
  else s

/-! ## Conditions of single registers -/

/-- A VALID row of the TCAM lies between two partition edges (R217). -/
def rowsBetween (s : State) (a b : Nat) : Bool :=
  s.tables.any (fun e => e.2.valid && tkey 5 (8192 * min a b) ≤ e.1 && e.1 < tkey 5 (8192 * max a b))

/-- FEC codes an Ethernet mode admits (R82); 0 is the default of the rate. -/
def fecAllowed (mode code : Nat) : Bool :=
  code == 0 || (if mode = 6 then code == 2 || code == 3 || code == 4
    else if mode = 7 then code == 3 || code == 4 else code == 1)

/-- Every port that an octet's mode gives has a FEC code its mode admits, every other a defined one. -/
def fecOk (mode v : Nat) : Bool :=
  let code := fun (k : Nat) => bits v (4 * k + 3) (4 * k)
  let lo := bits mode 3 0
  let hi := bits mode 7 4
  (List.range 8).all (fun k => decide (code k ≤ 4)) &&
    (halfPorts lo).all (fun k => fecAllowed lo (code k)) && (halfPorts hi).all (fun k => fecAllowed hi (code (k + 4)))

/-- The modes of an octet's halves are modes of R82. -/
def modeOk (v : Nat) : Bool :=
  let lo := bits v 3 0
  let hi := bits v 7 4
  decide (lo ≤ 7) && decide (hi ≤ 7) && hi != 1 && (lo != 1 || hi == 0)

/-- Another host port carries the Control Function of the same control port (R104). -/
def cfTaken (s : State) (inst cf : Nat) : Bool :=
  cf != 0 && (List.range 128).any (fun p => p != inst && bits (s.rd HPORT.FUNC_CTRL p) 5 4 == cf)

/-- The counter of a write that a page's own rules refuse: `v` holds 64 bits for a pair (each page's table). -/
def refusedLow (s : State) (blk inst off v : Nat) : Option Nat :=
  let need := fun (ok : Bool) (err : Nat) => if ok then (none : Option Nat) else some err
  match blk with
  | 0x02 => if off = 0x13C then need (-500000000 ≤ signed 32 v && signed 32 v ≤ 499999999) 2 else none
  | 0x10 => if off = 0x124 then need (decide (s.stateOf blkOCTET inst ≤ 1)) 4 else none
  | 0x11 =>
    if off = 0x100 then need (bits v 5 4 != 3 && !cfTaken s inst (bits v 5 4)) 7
    else if off = 0x108 then need (v % 64 == 0 || (0x1E ≤ v % 64 && v % 64 ≤ 0x24)) 7
    else none
  | 0x12 =>
    let idle := decide (s.stateOf blkOCTET inst ≤ 1)
    if off = 0x100 then need (idle && modeOk v) 0
    else if off = 0x104 then need (idle && fecOk (s.rd EMAC.MODE inst) v) 0
    else if off = 0x108 then need idle 0
    else none
  | 0x13 =>
    if 0x400 ≤ off ∧ off < 0x600 then need (pairState s == 1) 3
    else if off = 0x218 ∨ off = 0x224 then need (v % 4096 == 0) 3
    else none
  | 0x21 => if 0x100 ≤ off ∧ off < 0x120 then need (bits v 9 8 != 3) 2 else none
  | 0x22 => if 0x200 ≤ off ∧ off < 0x280 then need (v % 16 ≤ 8 && bits v 19 16 ≤ 8) 4 else none
  | 0x24 => if off = 0x110 then need (v ≤ 32 && !rowsBetween s (s.rd TCAM.LPM_BLOCKS) v) 3 else none
  | 0x26 => if off = 0x118 then need (v % 32 == 0 || (16 ≤ v % 32 && v % 32 ≤ 24)) 3 else none
  | 0x27 => if off = 0x124 then need (v % 32 == 0 || (10 ≤ v % 32 && v % 32 ≤ 20)) 5 else none
  | _ => none

def refusedHigh (s : State) (blk inst off v : Nat) : Option Nat :=
  let need := fun (ok : Bool) (err : Nat) => if ok then (none : Option Nat) else some err
  match blk with
  | 0x32 =>
    if off = 0x14C then need (v % 256 != 0 && 3 ≤ bits v 15 8) 7
    else if off = 0x158 then need (v % 32 == 0 || (10 ≤ v % 32 && v % 32 ≤ 24)) 7
    else none
  | 0x33 =>
    if off = 0x100 then need (v % 4096 == 0) 7
    else if off = 0x10C then need (decide (v ≤ s.rd LEVAIN.BENCH_HIGH)) 7
    else if off = 0x110 then need (decide (s.rd LEVAIN.BENCH_LOW ≤ v)) 7
    else none
  | 0x41 => if 0x100 ≤ off ∧ off < 0x120 then need (bits v 2 1 != 3 && bits v 6 5 != 3) 0 else none
  | 0x60 =>
    if 0x200 ≤ off ∧ off % 8 = 0 then need (bits v 11 4 != 0) 3
    else if 0x204 ≤ off then need (decide (bits v 25 16 ≤ bits v 9 0)) 3
    else none
  | 0x61 => if off = 0x134 then need (v % 400 == 0) 3 else none
  | 0x72 =>
    if off = 0x100 then need (v % 8388608 == 0) 2
    else if off = 0x108 then need (v % 4194304 == 0) 2
    else if off = 0x114 then need (v % 4096 == 0) 2
    else none
  | 0x81 => if off = 0x200 then need (85 ≤ v && v ≤ (resetOf Config.codeE (pageAddr blk inst 0x200)).toNat) 1 else none
  | 0x82 => if off = 0x108 then need (9600 ≤ v % 1048576 && v % 1048576 ≤ 0xF4240) 1 else none
  | _ => none

def refused (s : State) (blk inst off v : Nat) : Option Nat :=
  if blk < 0x30 then refusedLow s blk inst off v else refusedHigh s blk inst off v

/-! ## Storing -/

/-- The fields a write may change take the written bits; the others stay. -/
def merged (old v mask : Nat) : Nat := (old - (old &&& mask)) ||| (v &&& mask)

/-- A write of a single word: refused by a condition or out of range, or stored. -/
def storeWord (blk inst off : Nat) (r : RegRow) (v : Nat) (s : State) : State :=
  let w := v &&& r.mask
  match refused s blk inst off v with
  | some err => s.bumpErr blk inst err
  | none =>
    if w < r.lo ∨ r.hi < w then (if r.err = 99 then s else s.bumpErr blk inst r.err)
    else
      let a := pageAddr blk inst off
      s.wrA a (w32 (merged (s.rdA a).toNat v r.mask))

/-- A LO word is staged for its requester (R50). -/
def stageLo (who : Requester) (blk inst off v : Nat) (s : State) : State :=
  { s with stages := Tbl.put s.stages (latchKey blk inst off who) (w32 v) }

/-- A HI word commits all 64 bits with the staged LO, or with the present low word (R50). -/
def commitHi (who : Requester) (blk inst off v : Nat) (s : State) : State :=
  let a := pageAddr blk inst (off - 4)
  let k := latchKey blk inst (off - 4) who
  let lo := ((Tbl.get? s.stages k).getD (s.rdA a)).toNat
  let s := { s with stages := Tbl.del s.stages k }
  match refused s blk inst (off - 4) (lo + v * 4294967296) with
  | some err => s.bumpErr blk inst err
  | none => (s.wrA a (w32 lo)).wrA (a + 4) (w32 v)

/-! ## Writes that do more than store -/

/-- INT_REARM (R63): one more message if the type is still pending. -/
def rearm (v : Nat) (s : State) : State := if (pendingTypes s.regs).contains (v % 256) then sendRoute s (v % 256) else s

/-- A ROUTE write (R65): its VECTOR is checked against the Control Function's MSI-X table, but for TARGET 0x2. -/
def routeStore (t v : Nat) (s : State) : State :=
  if bits v 29 28 ≠ 2 ∧ s.boot.cfMsix ≤ v % 2048 then s.bumpErr blkHUB 0 0
  else s.wr HUB.ROUTE 0 (v &&& 0xB00007FF) t

/-- Registers whose write has an effect of its own; none where it only stores. -/
def ownEffect (who : Requester) (blk inst off v : Nat) (r : RegRow) : Option (State → State) :=
  let w := w32 v
  match blk, off with
  | 0x01, 0x124 => some (rearm v)
  | 0x02, 0x110 => some (fun s => reselect (storeWord blk inst off r v s))
  | 0x02, 0x118 => some (storeWord blk inst off r (min v 0x186A0))
  | 0x02, 0x11C => some (minuteOffset w)
  | 0x02, 0x120 => some (stageLo who blk inst off v)
  | 0x02, 0x124 => some (ptpCommit who w)
  | 0x03, 0x100 => some (pinCtrl w)
  | 0x03, 0x108 => some (pinClr w)
  | 0x03, 0x114 => some (logCons w)
  | 0x03, 0x180 => some (injCtrl w)
  | 0x03, 0x184 => some (fun s => if testMode s then storeWord blk inst off r v s else s.bumpErr blkFAULT 0 3)
  | 0x13, 0x200 => some (fun s => settlePair (storeWord blk inst off r v s))
  | 0x27, 0x12C => some (nrCons w)
  | 0x30, 0x130 => some (fun s => ringBell s (2 ^ 32 + inst * 4096 + bits v 27 16) (w32 (v % 65536)))
  | 0x31, 0x10C => some (dmaBell inst w)
  | 0x33, 0x10C => some (fun s => keepFree (storeWord blk inst off r v s))
  | 0x72, 0x124 => some (ringCons w)
  | 0x01, _ => if 0x400 ≤ off && off < 0x800 then some (routeStore ((off - 0x400) / 4) v) else none
  | _, _ => none

/-- A write to a register row of a page that admits it (R8, R50, R55). -/
def rowWrite (who : Requester) (blk inst off v event : Nat) (r : RegRow) (s : State) : State :=
  let a := pageAddr blk inst off
  match r.acc with
  | .ro => s
  | .rc => s
  | .w1c => s.wrA a (w32 (clearOnes (s.rdA a).toNat v event))
  | _ =>
    if r.acc = .rwl && s.locked blk inst then s.bumpErr blk inst 30
    else
      match ownEffect who blk inst off v r with
      | some f => f s
      | none =>
        if !r.pair then storeWord blk inst off r v s
        else if isHi r off then commitHi who blk inst off v s
        else stageLo who blk inst off v s

/-- A write to a register of a populated page by a requester that may. -/
def writeReg (who : Requester) (blk inst off v event : Nat) (s : State) : State :=
  if off < 0x100 then headerWrite blk inst off v event s
  else if absentReg s blk inst off then s
  else
    match rowOf? blk off with
    | some r => rowWrite who blk inst off v event r s
    | none => s

/-- A write on the register bus (R48, R49, R56, R66, R94); `whole`: 4 bytes with all byte enables. -/
def busWrite (who : Requester) (addr : Nat) (whole : Bool) (v event : Nat) : State → State := throughCf who 1 fun s =>
  let blk := addr / 2097152
  let inst := addr / 4096 % 512
  let off := addr % 4096
  if pageCount blk ≤ inst then bumpUnpop s
  else if off % 4 ≠ 0 ∨ !whole then s.bumpErr blk inst 29
  else if off = 0x20 then writePgCmd who blk inst v s
  else if !mayWrite s who blk then s.bumpErr blk inst 28
  else writeReg who blk inst off v event s

/-! ## A function's BAR0 (R68, R132, R265, R274) -/

/-- ER_STAT: OVERRUN clears where 1 is written (R129). -/
def erStat (port sel ring v event : Nat) (s : State) : State :=
  let k := ekey port sel ring
  match Tbl.get? s.rings k with
  | none => beyond s port
  | some r => { s with rings := Tbl.put s.rings k { r with overrun := (r.overrun && !bit v 0) || bit event 0 } }

/-- HB_BASE and HB_PAGES stand while the region is registered (R265). -/
def hbWrite (port off v : Nat) (s : State) : State :=
  let f := funcOf s port 0
  if off = 0xF0C then (if bit v 0 then hbOn port s else hbOff port s)
  else if off = 0xF10 then s
  else if f.hbValid then s.bumpErr blkLEVAIN 0 7
  else if off = 0xF00 then setFunc s port 0 { f with hbBaseLo := w32 v }
  else if off = 0xF04 then setFunc s port 0 { f with hbBaseHi := w32 v }
  else if off = 0xF08 then setFunc s port 0 { f with hbPages := w32 v }
  else s

/-- A write to PF0 or a VF of it. -/
def ringFnWrite (port sel off v event : Nat) (s : State) : State :=
  let f := funcOf s port sel
  if 0x1000 ≤ off then
    if off % 16 = 0 then ringBell s (fkey port sel * 4096 + (off - 0x1000) / 16) (w32 v) else beyond s port
  else if 0x0200 ≤ off && off < 0x0300 then
    let r := (off - 0x200) / 16
    if off % 16 = 0 then erCons port sel r (w32 v) s
    else if off % 16 = 4 then erStat port sel r v event s
    else if off % 16 = 8 then erArm port sel r (w32 v) s
    else if (Tbl.get? s.rings (ekey port sel r)).isNone then beyond s port
    else s
  else if off = 0x100 then setFunc s port sel { f with qcSel := w32 (v % 4096) }
  else if off = 0x10C then qcResume port sel (w32 v) s
  else if sel = 0 && 0xF00 ≤ off && off < 0xF14 then hbWrite port off v s
  else if sel = 0 && off = 0xFF0 then
    setFunc s port sel { f with intxCause := w32 (clearOnes f.intxCause.toNat v event) }
  else s

/-- A write to an NVMe controller's registers (R274): none where the function has no controller (R273). -/
def ctlWrite (port sel off v : Nat) (s : State) : State :=
  match ctlOf s port sel with
  | none => s
  | some (i, c) =>
    if 0x1000 ≤ off then
      let y := (off - 0x1000) / 8
      if 64 < y then s
      else if off % 8 = 0 then sqDoorbell port sel y (v % 65536) s
      else cqDoorbell port sel y (v % 65536) s
    else
      match off with
      | 0x0C => if sel = 1 then setCtl s i { c with intms := c.intms ||| w32 v } else s
      | 0x10 => if sel = 1 then setCtl s i { c with intms := c.intms &&& ~~~(w32 v) } else s
      | 0x14 => ccWrite s port sel v
      | 0x24 => setCtl s i { c with aqa := w32 (v &&& 0x0FFF0FFF) }
      | 0x28 => setCtl s i { c with asq := c.asq / 4294967296 * 4294967296 + v / 4096 * 4096 }
      | 0x2C => setCtl s i { c with asq := c.asq % 4294967296 + v * 4294967296 }
      | 0x30 => setCtl s i { c with acq := c.acq / 4294967296 * 4294967296 + v / 4096 * 4096 }
      | 0x34 => setCtl s i { c with acq := c.acq % 4294967296 + v * 4294967296 }
      | _ => s

/-- A write to a function's BAR0. -/
def fnWrite (port sel off : Nat) (whole : Bool) (v event : Nat) : State → State := barWrite port sel fun s =>
  if off % 4 ≠ 0 ∨ !whole then beyond s port
  else if ringFn sel then ringFnWrite port sel off v event s
  else if sel = 2 then s
  else ctlWrite port sel off v s

/-! ## The rows -/

/-- A register write of either kind. -/
def targetWrite (who : Requester) (tgt : Target) (whole : Bool) (v event : Nat) : State → State :=
  withResets (match tgt with
    | .page addr => busWrite who addr.toNat whole v event
    | .fn port sel off => fnWrite port.val sel.toNat off.toNat whole v event)

def execRegisterWrite (who : Requester) (tgt : Target) (whole : Bool) (value : Word) (s : State) :
    Host.Outcome State Fault Refusal := ok (targetWrite who tgt whole value.toNat 0 s)

def execW1cWrite (who : Requester) (tgt : Target) (value event : Word) (s : State) : Host.Outcome State Fault Refusal :=
  ok (targetWrite who tgt true value.toNat event.toNat s)

def execReg64HiWrite (who : Requester) (tgt : Target) (value : Word) (s : State) : Host.Outcome State Fault Refusal :=
  ok (targetWrite who tgt true value.toNat 0 s)

def execPgItestWrite (who : Requester) (pg : PageRef) (value : Word) (s : State) : Host.Outcome State Fault Refusal :=
  ok (pageWrite who pg.blk.toNat pg.inst.toNat (itest pg.blk.toNat pg.inst.toNat value.toNat) s)

def execPgCtrlLock (who : Requester) (pg : PageRef) (s : State) : Host.Outcome State Fault Refusal :=
  ok (pageWrite who pg.blk.toNat pg.inst.toNat (setLock pg.blk.toNat pg.inst.toNat) s)

def execPgCtrlFreeze (who : Requester) (pg : PageRef) (on : Bool) (s : State) : Host.Outcome State Fault Refusal :=
  ok (pageWrite who pg.blk.toNat pg.inst.toNat (setFreeze pg.blk.toNat pg.inst.toNat on) s)

def execPgCtrlSoftReset (who : Requester) (pg : PageRef) (s : State) : Host.Outcome State Fault Refusal :=
  ok (pageWrite who pg.blk.toNat pg.inst.toNat (fun s => softReset s pg.blk.toNat pg.inst.toNat) s)

def execPgCtrlEnableWrite (who : Requester) (pg : PageRef) (on : Bool) (s : State) : Host.Outcome State Fault Refusal :=
  ok (pageWrite who pg.blk.toNat pg.inst.toNat (setEnable pg.blk.toNat pg.inst.toNat on) s)

def execIntRearmWrite (who : Requester) (value : Word) (s : State) : Host.Outcome State Fault Refusal :=
  ok (pageWrite who blkHUB 0 (rearm value.toNat) s)

def execRouteWrite (who : Requester) (code : BitVec 8) (value : Word) (s : State) : Host.Outcome State Fault Refusal :=
  ok (pageWrite who blkHUB 0 (unlocked blkHUB 0 (routeStore code.toNat value.toNat)) s)

/-- R456: a write through the management interface; bit 31 of the address marks it, and one that meets a running access
is NACKed. -/
def execMgmtPrivateWrite (addr value : Word) (busy : Bool) (s : State) : Host.Outcome State Fault Refusal :=
  ok (if busy then ((s.bumpErr blkMGMT 0 2).istat blkMGMT 0 1).emit (.pin 8 0 1)
      else if !bit addr.toNat 31 then s
      else targetWrite .mgmt (.page (addr.setWidth 29)) true value.toNat 0 s)

end Sys2Proof.Machine
end

