-- ==== Sys2Proof/Machine/Timers.lean ====
section
/-! DEFINITION. What a calendar event does when it fires, the fire of a slice's next event, and the step of Rack Time with the
events it skips (R22, R32, R33, R36, R37, R46). -/

namespace Sys2Proof.Machine

/-- An event fires to its unit; the units' kinds and cookies are the model's (R46, log 39). `slice` is where it was. -/
def fireTo (s : State) (slice : Nat) (e : CalEvent) (stepped late : Bool) : State :=
  if 0xF0 ≤ e.unit then hartTimerFire s e stepped late
  else
    match e.unit, e.kind with
    | 0x10, 1 => quarFire s e.cookie
    | 0x22, 1 => paceFire s slice e.cookie
    | 0x25, 1 => fragParkFire s e.cookie
    | 0x25, 2 => fragLifeFire s e.cookie
    | 0x26, 1 => scanFire s e.deadline stepped
    | 0x27, 1 => sweepFire s e.deadline stepped
    | 0x30, 1 => rxHoldFire s e.cookie
    | 0x32, 1 => retxFire s e.cookie stepped
    | 0x32, 2 => rnrFire s e.cookie
    | 0x33, 1 => parkFire s e.cookie stepped
    | 0x33, 2 => chargeFire s
    | 0x34, 1 => bkTimeoutFire s e.cookie
    | 0x34, 2 => bkHoldFire s e.cookie
    | 0x34, 3 => coalFire s e.cookie
    | 0x51, 1 => hartTimerFire s e stepped late
    | 0x71, 1 => refillFire s (slice - 32) e.deadline stepped
    | _, _ => s

/-- R33: the next event of a slice fires at its deadline, or as soon as the block comes to it. -/
def fireNext (n : Nat) (s : State) : State :=
  match s.calNext n with
  | none => s
  | some e =>
    let s := s.fireEvent n e
    fireTo s n e false (decide (e.deadline + 2 < s.ns))

def execCalEventFire (slice : Fin 64) (s : State) : Host.Outcome State Fault Refusal := ok (fireNext slice.val s)

/-- Insert an event with its slice behind those with the same or an earlier deadline. -/
def insertDue (x : Nat × CalEvent) : List (Nat × CalEvent) → List (Nat × CalEvent)
  | [] => [x]
  | y :: t => if x.2.deadline < y.2.deadline then x :: y :: t else y :: insertDue x t

/-- The pending events whose deadline lies in an interval, in deadline order. -/
def skipped (s : State) (after upTo : Nat) : List (Nat × CalEvent) :=
  (s.cal.flatMap (fun (p : Nat × Slice) => (p.2.chip ++ p.2.spill).map (fun e => (p.1, e)))).foldl
    (fun (l : List (Nat × CalEvent)) x => if after < x.2.deadline ∧ x.2.deadline ≤ upTo then insertDue x l else l) []

/-- A skipped event fires with STEPPED, unless an earlier fire has removed it. -/
def fireSkipped (s : State) (x : Nat × CalEvent) : State :=
  if ((s.slice x.1).chip ++ (s.slice x.1).spill).contains x.2 then
    fireTo ((s.calTake x.1 x.2).countFire x.1 s.ns true) x.1 x.2 true false
  else s

/-- R22, R36: the pending step takes effect, and every event it skips fires at once. -/
def stepTime (s0 : State) : State :=
  if s0.clk.stepPending.isNone then s0
  else
    let before := (reachBref s0 ((s0.bref + 31) / 32 * 32)).ns
    let s := applyStep s0
    (skipped s before s.ns).foldl fireSkipped s

def execStepApply (s : State) : Host.Outcome State Fault Refusal := ok (withResets stepTime s)

end Sys2Proof.Machine
end

