-- ==== Sys2Proof/Machine/Dispatch.lean ====
section
/-! DEFINITION. One arm for each command: a direct call of its meaning, or a rejection by name. -/

namespace Sys2Proof.Machine

/-- The effect of a command on everything but the queue. -/
def exec (i : Instr) (s : State) : Host.Outcome State Fault Refusal :=
  match i with
  | .registerWrite who tgt whole value => Sys2Proof.Machine.execRegisterWrite who tgt whole value s
  | .w1cWrite who tgt value event => Sys2Proof.Machine.execW1cWrite who tgt value event s
  | .rcRead who tgt event => Sys2Proof.Machine.execRcRead who tgt event s
  | .reg64LoRead who tgt => Sys2Proof.Machine.execReg64LoRead who tgt s
  | .reg64HiWrite who tgt value => Sys2Proof.Machine.execReg64HiWrite who tgt value s
  | .pgItestWrite who pg value => Sys2Proof.Machine.execPgItestWrite who pg value s
  | .pgCtrlLock who pg => Sys2Proof.Machine.execPgCtrlLock who pg s
  | .pgCtrlFreeze who pg on => Sys2Proof.Machine.execPgCtrlFreeze who pg on s
  | .pgCtrlSoftReset who pg => Sys2Proof.Machine.execPgCtrlSoftReset who pg s
  | .softResetComplete pg => Sys2Proof.Machine.execSoftResetComplete pg s
  | .pgCtrlEnableWrite who pg on => Sys2Proof.Machine.execPgCtrlEnableWrite who pg on s
  | .commandEnd pg => Sys2Proof.Machine.execCommandEnd pg s
  | .cmdLimitExpiry pg => Sys2Proof.Machine.execCmdLimitExpiry pg s
  | .intRearmWrite who value => Sys2Proof.Machine.execIntRearmWrite who value s
  | .routeWrite who code value => Sys2Proof.Machine.execRouteWrite who code value s
  | .ptpOffsetCommit who hi => Sys2Proof.Machine.execPtpOffsetCommit who hi s
  | .ptpTimeoutExpiry => Sys2Proof.Machine.execPtpTimeoutExpiry s
  | .ppsInEdge dt => Sys2Proof.Machine.execPpsInEdge dt s
  | .ppsInMissing => Sys2Proof.Machine.execPpsInMissing s
  | .trefInOutOfRange out => Sys2Proof.Machine.execTrefInOutOfRange out s
  | .qualTimeExpiry src => Sys2Proof.Machine.execQualTimeExpiry src s
  | .forceHoldoverWrite who on => Sys2Proof.Machine.execForceHoldoverWrite who on s
  | .sourceEnableWrite who en => Sys2Proof.Machine.execSourceEnableWrite who en s
  | .sourceRankWrite who ranks => Sys2Proof.Machine.execSourceRankWrite who ranks s
  | .minuteOffsetWrite who value => Sys2Proof.Machine.execMinuteOffsetWrite who value s
  | .stepApply => Sys2Proof.Machine.execStepApply s
  | .minuteBoundary => Sys2Proof.Machine.execMinuteBoundary s
  | .armSeals c => Sys2Proof.Machine.execArmSeals c s
  | .laneCal c => Sys2Proof.Machine.execLaneCal c s
  | .laneCalComplete ok offset => Sys2Proof.Machine.execLaneCalComplete ok offset s
  | .ppsOutPulse rise => Sys2Proof.Machine.execPpsOutPulse rise s
  | .schedule c => Sys2Proof.Machine.execSchedule c s
  | .cancel c => Sys2Proof.Machine.execCancel c s
  | .query c => Sys2Proof.Machine.execQuery c s
  | .calEventFire slice => Sys2Proof.Machine.execCalEventFire slice s
  | .calLevelCascade slice => Sys2Proof.Machine.execCalLevelCascade slice s
  | .calSpillReturn slice => Sys2Proof.Machine.execCalSpillReturn slice s
  | .up c => Sys2Proof.Machine.execUp c s
  | .down c => Sys2Proof.Machine.execDown c s
  | .recal c => Sys2Proof.Machine.execRecal c s
  | .octetCalComplete octet good offsets => Sys2Proof.Machine.execOctetCalComplete octet good offsets s
  | .portLinkUp octet k gen width => Sys2Proof.Machine.execPortLinkUp octet k gen width s
  | .portLinkDown octet k => Sys2Proof.Machine.execPortLinkDown octet k s
  | .hprsntNChange octet level => Sys2Proof.Machine.execHprsntNChange octet level s
  | .prsntDebounceExpiry octet => Sys2Proof.Machine.execPrsntDebounceExpiry octet s
  | .hostLinkLeaveL0 port => Sys2Proof.Machine.execHostLinkLeaveL0 port s
  | .linkGraceExpiry port => Sys2Proof.Machine.execLinkGraceExpiry port s
  | .hostLinkTrained port gen width flit => Sys2Proof.Machine.execHostLinkTrained port gen width flit s
  | .perstNAssert octet => Sys2Proof.Machine.execPerstNAssert octet s
  | .perstNDeassert octet => Sys2Proof.Machine.execPerstNDeassert octet s
  | .quarantineExpiry port => Sys2Proof.Machine.execQuarantineExpiry port s
  | .quarScheduleRetry port => Sys2Proof.Machine.execQuarScheduleRetry port s
  | .reattachAccept c => Sys2Proof.Machine.execReattachAccept c s
  | .reattachRefuse c => Sys2Proof.Machine.execReattachRefuse c s
  | .ethFrameRx port frame fcsOk ovf dt => Sys2Proof.Machine.execEthFrameRx port frame fcsOk ovf dt s
  | .dportInboundRequest octet k addr len write => Sys2Proof.Machine.execDportInboundRequest octet k addr len write s
  | .configRequest port rid off write => Sys2Proof.Machine.execConfigRequest port rid off write s
  | .powerStateWrite port sel d3 => Sys2Proof.Machine.execPowerStateWrite port sel d3 s
  | .initiateFlr port sel => Sys2Proof.Machine.execInitiateFlr port sel s
  | .hotReset port => Sys2Proof.Machine.execHotReset port s
  | .flrComplete port sel => Sys2Proof.Machine.execFlrComplete port sel s
  | .drainComplete port sel => Sys2Proof.Machine.execDrainComplete port sel s
  | .functionsReady port => Sys2Proof.Machine.execFunctionsReady port s
  | .poisonedWriteRx port sel => Sys2Proof.Machine.execPoisonedWriteRx port sel s
  | .unexpectedCompletionRx port sel => Sys2Proof.Machine.execUnexpectedCompletionRx port sel s
  | .completionTimeout q => Sys2Proof.Machine.execCompletionTimeout q s
  | .vfAlloc c => Sys2Proof.Machine.execVfAlloc c s
  | .msixAlloc c => Sys2Proof.Machine.execMsixAlloc c s
  | .funcReset c => Sys2Proof.Machine.execFuncReset c s
  | .windowTlpRx port addr len write ro => Sys2Proof.Machine.execWindowTlpRx port addr len write ro s
  | .windowTargetCompletion inst tlp reply => Sys2Proof.Machine.execWindowTargetCompletion inst tlp reply s
  | .winWrite c => Sys2Proof.Machine.execWinWrite c s
  | .winRead c => Sys2Proof.Machine.execWinRead c s
  | .windowCommit c => Sys2Proof.Machine.execWindowCommit c s
  | .doorbell port sel q value => Sys2Proof.Machine.execDoorbell port sel q value s
  | .provDb who inst value => Sys2Proof.Machine.execProvDb who inst value s
  | .descriptorReadComplete q slots => Sys2Proof.Machine.execDescriptorReadComplete q slots s
  | .qcResume port sel value => Sys2Proof.Machine.execQcResume port sel value s
  | .erConsWrite port sel ring value => Sys2Proof.Machine.execErConsWrite port sel ring value s
  | .erArmWrite port sel ring value => Sys2Proof.Machine.execErArmWrite port sel ring value s
  | .qCreate c => Sys2Proof.Machine.execQCreate c s
  | .qDestroy c => Sys2Proof.Machine.execQDestroy c s
  | .qStop c => Sys2Proof.Machine.execQStop c s
  | .qStart c => Sys2Proof.Machine.execQStart c s
  | .qResume c => Sys2Proof.Machine.execQResume c s
  | .qQuery c => Sys2Proof.Machine.execQQuery c s
  | .erCreate c => Sys2Proof.Machine.execErCreate c s
  | .erDestroy c => Sys2Proof.Machine.execErDestroy c s
  | .rxHoldExpiry q => Sys2Proof.Machine.execRxHoldExpiry q s
  | .payloadReadComplete q payload => Sys2Proof.Machine.execPayloadReadComplete q payload s
  | .frameSent port => Sys2Proof.Machine.execFrameSent port s
  | .setup c => Sys2Proof.Machine.execSetup c s
  | .start c => Sys2Proof.Machine.execStart c s
  | .stop c => Sys2Proof.Machine.execStop c s
  | .resume c => Sys2Proof.Machine.execResume c s
  | .release c => Sys2Proof.Machine.execRelease c s
  | .dmaDoorbell who ch value => Sys2Proof.Machine.execDmaDoorbell who ch value s
  | .dmaReadDataReturn ch data => Sys2Proof.Machine.execDmaReadDataReturn ch data s
  | .dmaDescriptorComplete ch => Sys2Proof.Machine.execDmaDescriptorComplete ch s
  | .dmaFlushReadReturn ch ok => Sys2Proof.Machine.execDmaFlushReadReturn ch ok s
  | .dmaRateWindow ch => Sys2Proof.Machine.execDmaRateWindow ch s
  | .nodeWrite c => Sys2Proof.Machine.execNodeWrite c s
  | .nodeRead c => Sys2Proof.Machine.execNodeRead c s
  | .profCommit c => Sys2Proof.Machine.execProfCommit c s
  | .profCopyBack pipe prof => Sys2Proof.Machine.execProfCopyBack pipe prof s
  | .portProf c => Sys2Proof.Machine.execPortProf c s
  | .portQuery c => Sys2Proof.Machine.execPortQuery c s
  | .fragParkExpiry entry => Sys2Proof.Machine.execFragParkExpiry entry s
  | .fragLifeExpiry entry => Sys2Proof.Machine.execFragLifeExpiry entry s
  | .fragFlushTenant c => Sys2Proof.Machine.execFragFlushTenant c s
  | .keyprofWrite c => Sys2Proof.Machine.execKeyprofWrite c s
  | .rangeWrite c => Sys2Proof.Machine.execRangeWrite c s
  | .arecWrite c => Sys2Proof.Machine.execArecWrite c s
  | .tmplWrite c => Sys2Proof.Machine.execTmplWrite c s
  | .keyprofRead c => Sys2Proof.Machine.execKeyprofRead c s
  | .rangeRead c => Sys2Proof.Machine.execRangeRead c s
  | .arecRead c => Sys2Proof.Machine.execArecRead c s
  | .tmplRead c => Sys2Proof.Machine.execTmplRead c s
  | .hprofWrite c => Sys2Proof.Machine.execHprofWrite c s
  | .tkeyWrite c => Sys2Proof.Machine.execTkeyWrite c s
  | .pgrpWrite c => Sys2Proof.Machine.execPgrpWrite c s
  | .stblWrite c => Sys2Proof.Machine.execStblWrite c s
  | .vportWrite c => Sys2Proof.Machine.execVportWrite c s
  | .hprofRead c => Sys2Proof.Machine.execHprofRead c s
  | .tkeyRead c => Sys2Proof.Machine.execTkeyRead c s
  | .pgrpRead c => Sys2Proof.Machine.execPgrpRead c s
  | .stblRead c => Sys2Proof.Machine.execStblRead c s
  | .vportRead c => Sys2Proof.Machine.execVportRead c s
  | .paceRelease pipe cls => Sys2Proof.Machine.execPaceRelease pipe cls s
  | .tableRead p c => Sys2Proof.Machine.execTableRead p c s
  | .tableWrite p c => Sys2Proof.Machine.execTableWrite p c s
  | .insert p c => Sys2Proof.Machine.execInsert p c s
  | .delete p c => Sys2Proof.Machine.execDelete p c s
  | .search p c => Sys2Proof.Machine.execSearch p c s
  | .cas p c => Sys2Proof.Machine.execCas p c s
  | .move p c => Sys2Proof.Machine.execMove p c s
  | .tableFlushTenant p c => Sys2Proof.Machine.execTableFlushTenant p c s
  | .tcamScanTick bad => Sys2Proof.Machine.execTcamScanTick bad s
  | .scrubRepair table pos => Sys2Proof.Machine.execScrubRepair table pos s
  | .flowScanStart => Sys2Proof.Machine.execFlowScanStart s
  | .flowScanPassEnd => Sys2Proof.Machine.execFlowScanPassEnd s
  | .flowQueuedRemoval pos => Sys2Proof.Machine.execFlowQueuedRemoval pos s
  | .macSweepStart => Sys2Proof.Machine.execMacSweepStart s
  | .tableSchedRetry sweep => Sys2Proof.Machine.execTableSchedRetry sweep s
  | .learnRequest => Sys2Proof.Machine.execLearnRequest s
  | .nrConsWrite who value => Sys2Proof.Machine.execNrConsWrite who value s
  | .qpCreate c => Sys2Proof.Machine.execQpCreate c s
  | .qpModifyRtr c => Sys2Proof.Machine.execQpModifyRtr c s
  | .qpModifyRts c => Sys2Proof.Machine.execQpModifyRts c s
  | .qpModifyError c => Sys2Proof.Machine.execQpModifyError c s
  | .qpModifyInit c => Sys2Proof.Machine.execQpModifyInit c s
  | .qpQuery c => Sys2Proof.Machine.execQpQuery c s
  | .qpDestroy c => Sys2Proof.Machine.execQpDestroy c s
  | .mkeyWrite c => Sys2Proof.Machine.execMkeyWrite c s
  | .mkeyInvalidate c => Sys2Proof.Machine.execMkeyInvalidate c s
  | .mkeyRead c => Sys2Proof.Machine.execMkeyRead c s
  | .rdmaRequestRx p => Sys2Proof.Machine.execRdmaRequestRx p s
  | .rdmaAckRx qpn psn sr blocks => Sys2Proof.Machine.execRdmaAckRx qpn psn sr blocks s
  | .rdmaNakRx qpn psn code sr => Sys2Proof.Machine.execRdmaNakRx qpn psn code sr s
  | .rnrNakRx qpn psn => Sys2Proof.Machine.execRnrNakRx qpn psn s
  | .readResponseRx qpn psn offset last payload => Sys2Proof.Machine.execReadResponseRx qpn psn offset last payload s
  | .atomicAckRx qpn psn orig => Sys2Proof.Machine.execAtomicAckRx qpn psn orig s
  | .cnpRx qpn => Sys2Proof.Machine.execCnpRx qpn s
  | .retransmitTimerFire qpn => Sys2Proof.Machine.execRetransmitTimerFire qpn s
  | .rnrWaitExpiry qpn => Sys2Proof.Machine.execRnrWaitExpiry qpn s
  | .rdmaTimerRetry qpn => Sys2Proof.Machine.execRdmaTimerRetry qpn s
  | .hostAtomicCompletion qpn psn reply => Sys2Proof.Machine.execHostAtomicCompletion qpn psn reply s
  | .contextDemand h => Sys2Proof.Machine.execContextDemand h s
  | .contextFetchComplete h reply => Sys2Proof.Machine.execContextFetchComplete h reply s
  | .contextWritebackComplete h ok => Sys2Proof.Machine.execContextWritebackComplete h ok s
  | .tquotaWrite c => Sys2Proof.Machine.execTquotaWrite c s
  | .tquotaRead c => Sys2Proof.Machine.execTquotaRead c s
  | .ctxQuery c => Sys2Proof.Machine.execCtxQuery c s
  | .evict c => Sys2Proof.Machine.execEvict c s
  | .setClass c => Sys2Proof.Machine.execSetClass c s
  | .hbRegister port value => Sys2Proof.Machine.execHbRegister port value s
  | .hbDrain port value => Sys2Proof.Machine.execHbDrain port value s
  | .hbDrainComplete port => Sys2Proof.Machine.execHbDrainComplete port s
  | .parkTimeExpiry h => Sys2Proof.Machine.execParkTimeExpiry h s
  | .storeChargeTick => Sys2Proof.Machine.execStoreChargeTick s
  | .levainSchedRetry => Sys2Proof.Machine.execLevainSchedRetry s
  | .ccEnable port sel value => Sys2Proof.Machine.execCcEnable port sel value s
  | .ccDisable port sel value => Sys2Proof.Machine.execCcDisable port sel value s
  | .ccShutdown port sel value => Sys2Proof.Machine.execCcShutdown port sel value s
  | .nvmeSqTailDoorbell port sel y value => Sys2Proof.Machine.execNvmeSqTailDoorbell port sel y value s
  | .nvmeCqHeadDoorbell port sel y value => Sys2Proof.Machine.execNvmeCqHeadDoorbell port sel y value s
  | .nvmeFetchTurn ctl sqes => Sys2Proof.Machine.execNvmeFetchTurn ctl sqes s
  | .nvmeFlush ctl sq sqe => Sys2Proof.Machine.execNvmeFlush ctl sq sqe s
  | .nvmeWrite ctl sq sqe => Sys2Proof.Machine.execNvmeWrite ctl sq sqe s
  | .nvmeRead ctl sq sqe => Sys2Proof.Machine.execNvmeRead ctl sq sqe s
  | .nvmeWriteZeroes ctl sq sqe => Sys2Proof.Machine.execNvmeWriteZeroes ctl sq sqe s
  | .nvmeDatasetManagement ctl sq sqe ranges => Sys2Proof.Machine.execNvmeDatasetManagement ctl sq sqe ranges s
  | .createIoSq ctl sq sqe => Sys2Proof.Machine.execCreateIoSq ctl sq sqe s
  | .createIoCq ctl sq sqe => Sys2Proof.Machine.execCreateIoCq ctl sq sqe s
  | .deleteIoSq ctl sq sqe => Sys2Proof.Machine.execDeleteIoSq ctl sq sqe s
  | .deleteIoCq ctl sq sqe => Sys2Proof.Machine.execDeleteIoCq ctl sq sqe s
  | .getLogPage ctl sq sqe => Sys2Proof.Machine.execGetLogPage ctl sq sqe s
  | .identify ctl sq sqe => Sys2Proof.Machine.execIdentify ctl sq sqe s
  | .abort ctl sq sqe => Sys2Proof.Machine.execAbort ctl sq sqe s
  | .setFeatures ctl sq sqe => Sys2Proof.Machine.execSetFeatures ctl sq sqe s
  | .getFeatures ctl sq sqe => Sys2Proof.Machine.execGetFeatures ctl sq sqe s
  | .asynchronousEventRequest ctl sq sqe => Sys2Proof.Machine.execAsynchronousEventRequest ctl sq sqe s
  | .rangeLockGrant token => Sys2Proof.Machine.execRangeLockGrant token s
  | .backingCompletion token reply status => Sys2Proof.Machine.execBackingCompletion token reply status s
  | .bkTimeoutExpiry token => Sys2Proof.Machine.execBkTimeoutExpiry token s
  | .bkHoldExpiry ns => Sys2Proof.Machine.execBkHoldExpiry ns s
  | .bkSchedRetry hold key => Sys2Proof.Machine.execBkSchedRetry hold key s
  | .coalescingTimeExpiry ctl => Sys2Proof.Machine.execCoalescingTimeExpiry ctl s
  | .ctrlCreate c => Sys2Proof.Machine.execCtrlCreate c s
  | .ctrlDestroy c => Sys2Proof.Machine.execCtrlDestroy c s
  | .ctrlQuery c => Sys2Proof.Machine.execCtrlQuery c s
  | .nsCreate c => Sys2Proof.Machine.execNsCreate c s
  | .nsDestroy c => Sys2Proof.Machine.execNsDestroy c s
  | .nsAttach c => Sys2Proof.Machine.execNsAttach c s
  | .nsDetach c => Sys2Proof.Machine.execNsDetach c s
  | .nsRebind c => Sys2Proof.Machine.execNsRebind c s
  | .bkqWrite c => Sys2Proof.Machine.execBkqWrite c s
  | .bkDown c => Sys2Proof.Machine.execBkDown c s
  | .mgmtIdentify c => Sys2Proof.Machine.execMgmtIdentify c s
  | .mgmtGetLogPage c => Sys2Proof.Machine.execMgmtGetLogPage c s
  | .firmwareImageDownload c => Sys2Proof.Machine.execFirmwareImageDownload c s
  | .firmwareCommitWrite c => Sys2Proof.Machine.execFirmwareCommitWrite c s
  | .firmwareCommitWriteActivate c => Sys2Proof.Machine.execFirmwareCommitWriteActivate c s
  | .firmwareCommitActivate c => Sys2Proof.Machine.execFirmwareCommitActivate c s
  | .rlQuery c => Sys2Proof.Machine.execRlQuery c s
  | .job c => Sys2Proof.Machine.execJob c s
  | .cipherJobComplete e reply => Sys2Proof.Machine.execCipherJobComplete e reply s
  | .slotFetchComplete slot good => Sys2Proof.Machine.execSlotFetchComplete slot good s
  | .drbgHealthFailure => Sys2Proof.Machine.execDrbgHealthFailure s
  | .drbgRecovery => Sys2Proof.Machine.execDrbgRecovery s
  | .keyStage c => Sys2Proof.Machine.execKeyStage c s
  | .slotWrite c => Sys2Proof.Machine.execSlotWrite c s
  | .slotRead c => Sys2Proof.Machine.execSlotRead c s
  | .slotInvalidate c => Sys2Proof.Machine.execSlotInvalidate c s
  | .saWrite c => Sys2Proof.Machine.execSaWrite c s
  | .saRead c => Sys2Proof.Machine.execSaRead c s
  | .saDisable c => Sys2Proof.Machine.execSaDisable c s
  | .wget k => Sys2Proof.Machine.execWget k s
  | .wgetWaitExpiry hart => Sys2Proof.Machine.execWgetWaitExpiry hart s
  | .wput k => Sys2Proof.Machine.execWput k s
  | .wdone k => Sys2Proof.Machine.execWdone k s
  | .clock k => Sys2Proof.Machine.execClock k s
  | .cunlock k => Sys2Proof.Machine.execCunlock k s
  | .crcc k => Sys2Proof.Machine.execCrcc k s
  | .tplz k => Sys2Proof.Machine.execTplz k s
  | .calloc k => Sys2Proof.Machine.execCalloc k s
  | .cfree k => Sys2Proof.Machine.execCfree k s
  | .tset k => Sys2Proof.Machine.execTset k s
  | .tcancel k => Sys2Proof.Machine.execTcancel k s
  | .krtimeRead k => Sys2Proof.Machine.execKrtimeRead k s
  | .lockLimitExpiry h => Sys2Proof.Machine.execLockLimitExpiry h s
  | .qcfgWrite c => Sys2Proof.Machine.execQcfgWrite c s
  | .qcfgRead c => Sys2Proof.Machine.execQcfgRead c s
  | .tweightWrite c => Sys2Proof.Machine.execTweightWrite c s
  | .prooferFlushTenant c => Sys2Proof.Machine.execProoferFlushTenant c s
  | .hartRelease => Sys2Proof.Machine.execHartRelease s
  | .selftest c => Sys2Proof.Machine.execSelftest c s
  | .drainLimitExpiry tile => Sys2Proof.Machine.execDrainLimitExpiry tile s
  | .selftestComplete tile result where_ => Sys2Proof.Machine.execSelftestComplete tile result where_ s
  | .canaryWrite c => Sys2Proof.Machine.execCanaryWrite c s
  | .canaryRun tile => Sys2Proof.Machine.execCanaryRun tile s
  | .hartReset c => Sys2Proof.Machine.execHartReset c s
  | .memoryRequest port addr len write hint level ecc => Sys2Proof.Machine.execMemoryRequest port addr len write hint level ecc s
  | .regionWrite c => Sys2Proof.Machine.execRegionWrite c s
  | .regionRead c => Sys2Proof.Machine.execRegionRead c s
  | .trainStart ddr c => Sys2Proof.Machine.execTrainStart ddr c s
  | .dlyWrite ddr c => Sys2Proof.Machine.execDlyWrite ddr c s
  | .dlyRead ddr c => Sys2Proof.Machine.execDlyRead ddr c s
  | .trainPattern ddr c => Sys2Proof.Machine.execTrainPattern ddr c s
  | .goActive ddr c => Sys2Proof.Machine.execGoActive ddr c s
  | .swap ddr c => Sys2Proof.Machine.execSwap ddr c s
  | .swapRankRefresh ddr inst rank => Sys2Proof.Machine.execSwapRankRefresh ddr inst rank s
  | .patrolScrubDeadline ddr inst addr ecc => Sys2Proof.Machine.execPatrolScrubDeadline ddr inst addr ecc s
  | .tenantOpen c => Sys2Proof.Machine.execTenantOpen c s
  | .tenantClose c => Sys2Proof.Machine.execTenantClose c s
  | .tenantQuery c => Sys2Proof.Machine.execTenantQuery c s
  | .funcAssign c => Sys2Proof.Machine.execFuncAssign c s
  | .funcQuery c => Sys2Proof.Machine.execFuncQuery c s
  | .combiningFlush tile => Sys2Proof.Machine.execCombiningFlush tile s
  | .mtrRead c => Sys2Proof.Machine.execMtrRead c s
  | .polRead c => Sys2Proof.Machine.execPolRead c s
  | .policerRefill tile => Sys2Proof.Machine.execPolicerRefill tile s
  | .policerRefillRetry tile => Sys2Proof.Machine.execPolicerRefillRetry tile s
  | .sealGraceExpiry => Sys2Proof.Machine.execSealGraceExpiry s
  | .sealSigned r t => Sys2Proof.Machine.execSealSigned r t s
  | .signTimeout => Sys2Proof.Machine.execSignTimeout s
  | .ringConsWrite who value => Sys2Proof.Machine.execRingConsWrite who value s
  | .identRx link pairId rank num credits => Sys2Proof.Machine.execIdentRx link pairId rank num credits s
  | .identRetry link => Sys2Proof.Machine.execIdentRetry link s
  | .linkFlitRx f => Sys2Proof.Machine.execLinkFlitRx f s
  | .mirrorRecordRx f => Sys2Proof.Machine.execMirrorRecordRx f s
  | .bulkRecordRx f => Sys2Proof.Machine.execBulkRecordRx f s
  | .mackRx mseq => Sys2Proof.Machine.execMackRx mseq s
  | .bulkDoneRx => Sys2Proof.Machine.execBulkDoneRx s
  | .leaveRx => Sys2Proof.Machine.execLeaveRx s
  | .handbackRx port => Sys2Proof.Machine.execHandbackRx port s
  | .takeoverDoneRx => Sys2Proof.Machine.execTakeoverDoneRx s
  | .timeFlitRx link t1 t2 t3 t4 dt => Sys2Proof.Machine.execTimeFlitRx link t1 t2 t3 t4 dt s
  | .heartbeatRx link q0 q1 q2 dt => Sys2Proof.Machine.execHeartbeatRx link q0 q1 q2 dt s
  | .takeoverFlitRx link code slots => Sys2Proof.Machine.execTakeoverFlitRx link code slots s
  | .heartbeatTx => Sys2Proof.Machine.execHeartbeatTx s
  | .timeExchangeStart => Sys2Proof.Machine.execTimeExchangeStart s
  | .mtrSyncTx => Sys2Proof.Machine.execMtrSyncTx s
  | .hbLossExpiry slots => Sys2Proof.Machine.execHbLossExpiry slots s
  | .liveLossExpiry => Sys2Proof.Machine.execLiveLossExpiry s
  | .twinLiveInEdge dt => Sys2Proof.Machine.execTwinLiveInEdge dt s
  | .twinLiveOutToggle => Sys2Proof.Machine.execTwinLiveOutToggle s
  | .bulkCopyComplete => Sys2Proof.Machine.execBulkCopyComplete s
  | .leave c => Sys2Proof.Machine.execLeave c s
  | .handback c => Sys2Proof.Machine.execHandback c s
  | .handbackDrained port => Sys2Proof.Machine.execHandbackDrained port s
  | .takeover c => Sys2Proof.Machine.execTakeover c s
  | .pwrgoodRise bootSel testMode => Sys2Proof.Machine.execPwrgoodRise bootSel testMode s
  | .pwrgoodHoldRelease => Sys2Proof.Machine.execPwrgoodHoldRelease s
  | .pwrgoodFall => Sys2Proof.Machine.execPwrgoodFall s
  | .powerCycle => Sys2Proof.Machine.execPowerCycle s
  | .fuseRecheck same => Sys2Proof.Machine.execFuseRecheck same s
  | .loaderBlockRx source slotB stage block bytes => Sys2Proof.Machine.execLoaderBlockRx source slotB stage block bytes s
  | .recovWaitExpiry => Sys2Proof.Machine.execRecovWaitExpiry s
  | .twinSourceWaitExpiry => Sys2Proof.Machine.execTwinSourceWaitExpiry s
  | .slotGood c => Sys2Proof.Machine.execSlotGood c s
  | .bootLogRead c => Sys2Proof.Machine.execBootLogRead c s
  | .recovWrite c => Sys2Proof.Machine.execRecovWrite c s
  | .recovDone c => Sys2Proof.Machine.execRecovDone c s
  | .fuseSvn c => Sys2Proof.Machine.execFuseSvn c s
  | .importPub c => Sys2Proof.Machine.execImportPub c s
  | .importKey c => Sys2Proof.Machine.execImportKey c s
  | .jtagChallenge c => Sys2Proof.Machine.execJtagChallenge c s
  | .jtagUnlock c => Sys2Proof.Machine.execJtagUnlock c s
  | .measureRead c => Sys2Proof.Machine.execMeasureRead c s
  | .getVersion port => Sys2Proof.Machine.execGetVersion port s
  | .getCapabilities port => Sys2Proof.Machine.execGetCapabilities port s
  | .negotiateAlgorithms port p384 => Sys2Proof.Machine.execNegotiateAlgorithms port p384 s
  | .getDigests port => Sys2Proof.Machine.execGetDigests port s
  | .getCertificate port slot offset len => Sys2Proof.Machine.execGetCertificate port slot offset len s
  | .challenge port slot nonce => Sys2Proof.Machine.execChallenge port slot nonce s
  | .getMeasurements port index nonce => Sys2Proof.Machine.execGetMeasurements port index nonce s
  | .bypass => Sys2Proof.Machine.execBypass s
  | .idcode => Sys2Proof.Machine.execIdcode s
  | .samplePreload => Sys2Proof.Machine.execSamplePreload s
  | .extest => Sys2Proof.Machine.execExtest s
  | .extestPulse => Sys2Proof.Machine.execExtestPulse s
  | .extestTrain => Sys2Proof.Machine.execExtestTrain s
  | .tamperDetect cause => Sys2Proof.Machine.execTamperDetect cause s
  | .faultRaise fsn cause info => Sys2Proof.Machine.execFaultRaise fsn cause info s
  | .unitResetComplete pg => Sys2Proof.Machine.execUnitResetComplete pg s
  | .quietExpiry pg => Sys2Proof.Machine.execQuietExpiry pg s
  | .collectorDisagreement => Sys2Proof.Machine.execCollectorDisagreement s
  | .collectorWatchdogExpiry => Sys2Proof.Machine.execCollectorWatchdogExpiry s
  | .recentExpiry => Sys2Proof.Machine.execRecentExpiry s
  | .sevWrite c => Sys2Proof.Machine.execSevWrite c s
  | .sevRead c => Sys2Proof.Machine.execSevRead c s
  | .faultLogRead c => Sys2Proof.Machine.execFaultLogRead c s
  | .unitQuery c => Sys2Proof.Machine.execUnitQuery c s
  | .unitRestore c => Sys2Proof.Machine.execUnitRestore c s
  | .pinCtrlWrite who value => Sys2Proof.Machine.execPinCtrlWrite who value s
  | .pinClrWrite who value => Sys2Proof.Machine.execPinClrWrite who value s
  | .faultNPulseEnd => Sys2Proof.Machine.execFaultNPulseEnd s
  | .logConsWrite who value => Sys2Proof.Machine.execLogConsWrite who value s
  | .injCtrlArm who value => Sys2Proof.Machine.execInjCtrlArm who value s
  | .railBelowWarning ch mv => Sys2Proof.Machine.execRailBelowWarning ch mv s
  | .railAboveWarning ch mv => Sys2Proof.Machine.execRailAboveWarning ch mv s
  | .holdEndExpiry => Sys2Proof.Machine.execHoldEndExpiry s
  | .railResetLevel ch mv => Sys2Proof.Machine.execRailResetLevel ch mv s
  | .thermalSample temps => Sys2Proof.Machine.execThermalSample temps s
  | .thermalTrip sensor => Sys2Proof.Machine.execThermalTrip sensor s
  | .mgmtPrivateWrite addr value busy => Sys2Proof.Machine.execMgmtPrivateWrite addr value busy s
  | .mgmtPrivateRead addr busy => Sys2Proof.Machine.execMgmtPrivateRead addr busy s
  | .spdRead c => Sys2Proof.Machine.execSpdRead c s
  | .gpioInputChange levels => Sys2Proof.Machine.execGpioInputChange levels s
  | .malformedTlpRx port ecrc => Sys2Proof.Machine.execMalformedTlpRx port ecrc s

end Sys2Proof.Machine
end

