-- ==== Sys2Proof/Machine/Idle.lean ====
section
/-! DEFINITION. What a step does on an empty queue (log 15). -/

namespace Sys2Proof.Machine

/-- On an empty queue 1 ns of BREF passes and Rack Time advances with it (log 15); Rack Time has no meaning from 2^64
ns on (R14). -/
def idle (s : State) : Host.Outcome State Fault Refusal :=
  if 2 ^ 64 ≤ (s.pass 1).ns then .fault .beyond2554 else ok (s.pass 1)

end Sys2Proof.Machine
end

