-- ==== Sys2Proof/Safety.lean ====
section
/-! DEFINITION. What a safe state and a safe step are, and when a command reaches what it acts on, in the terms the
statements use. -/

namespace Sys2Proof.Machine

/-! ## Rest -/

/-- Interrupts are settled (R63, R97): the pending block types are those that some page's interrupt makes pending, and
each port's INTx wire follows its functions' causes. -/
def Settled (s : State) : Prop :=
  s.typePend = pendingTypes s.regs ∧ ∀ p ∈ s.hports, p.2.intxWire = intxLevel s p.1 p.2.cf

/-- The driven outputs agree with the state (R38, R42, R468, R434): PPS_OUT is high only while it is driven, TREF_OUT is what
PPS_CTRL and the discipline state make it, FAULT_N is what the fault log and PIN_CTRL make it. -/
def OutputsFollow (s : State) : Prop :=
  (s.clk.ppsOut = true → ppsDriven s = true) ∧ s.clk.trefOut = trefDriven s ∧ s.flt.pinShown = pinAsserted s

/-- The block is at rest between two commands. -/
def AtRest (s : State) : Prop := Settled s ∧ OutputsFollow s

/-- The step answers a next state: no fault, no refusal. -/
def Runs (s : State) : Prop := ∃ t, step s = .next t

/-! ## Reaching a page or a function -/

/-- A requester's write reaches a page (R48, R66, R94): the page is populated, ACCESS lets it write, and no Control Function
under reset stands in between. -/
abbrev WriteReaches (s : State) (who : Requester) (blk inst : Nat) : Prop :=
  cfInReset s who = none ∧ inst < pageCount blk ∧ mayWrite s who blk = true

/-- A function answers on its port (R91, R94 to R96): the port is ready, and the function is presented, in D0, and neither in
reset nor draining. -/
abbrev FuncAnswers (s : State) (port sel : Nat) : Prop := funcLive s port sel = true

/-- A host's configuration write finds its function (R89). -/
abbrev ConfigFinds (s : State) (port sel : Nat) : Prop := configMeets s port = 2 ∧ funcPresent s port sel = true

/-- A page takes a command (R52, R53, R56, R66): the write reaches it and no command runs there. -/
abbrev TakesCommand (s : State) (who : Requester) (blk inst : Nat) : Prop :=
  WriteReaches s who blk inst ∧ (Tbl.get? s.running (State.pk blk inst)).isSome = false

/-- A page carries out its commands (R52, R53, R427): enabled, serving its personality, not FAULTED. -/
abbrev Serves (s : State) (blk inst : Nat) : Prop :=
  s.enabled blk inst = true ∧ pageActive s blk inst = true ∧ s.faulted.contains (State.pk blk inst) = false

/-- PG_CMD is written with its reserved bits 0 (R56): bits 31:24 and 15:8. -/
abbrev PlainCommand (c : CmdIn) : Prop := c.hi.toNat % 256 = 0 ∧ c.hi.toNat < 65536

/-- The state in which a command's effect runs (R56): its arguments and data written, PG_CMD written, the command running. -/
def begun (c : CmdIn) (blk inst op : Nat) (s : State) : State := beginCommand c blk inst op (latchArgs c blk inst s)

/-- What the effect of a command sees: the arguments and data as they stand when PG_CMD is written. -/
def begunCtx (c : CmdIn) (blk inst op : Nat) (s : State) : CmdCtx :=
  cmdCtx (latchedCmd c blk inst op (putCmd c blk inst op (latchArgs c blk inst s))) blk inst

/-- A command row runs (R52, R53, R56, R57, R66, R470): on a page that takes and serves it, a command written with PG_CMD's
reserved bits 0 has the effect of its opcode on the arguments and data written, and ends with its result or waits for its
own event. -/
def CommandRuns (i : Instr) (blk op : Nat) (eff : CmdCtx → State → CmdRes) (c : CmdIn) (s : State) : Prop :=
  TakesCommand s c.who blk c.inst.toNat → Serves s blk c.inst.toNat → PlainCommand c → c.defer = false →
    (blk = blkTWIN → c.inst.toNat = 0) →
    exec i s = .next (settle (conclude (eff (begunCtx c blk c.inst.toNat op s) (begun c blk c.inst.toNat op s))
      (State.pk blk c.inst.toNat)))

/-- A command of this opcode waits on the page for an event of its own (R56). -/
abbrev Waits (s : State) (blk inst op : Nat) : Prop := (waitingCmd s blk inst op).isSome = true

/-- A row of the calendar is pending on its slice. -/
abbrev Due (s : State) (blk kind cookie n : Nat) (e : CalEvent) : Prop := s.anyEvent blk kind cookie = some (n, e)

/-- A state but for what a delivery of work items and the interrupt messages change: what has left the block, the registers,
memory, the Proofer's queues and harts, the meters, and the wires and outputs last driven. -/
def State.still (s : State) : State :=
  { s with out := [], mem := [], regs := [], typePend := [], workqs := [], heldBy := [], harts := [], met := {}, deficits := [],
           tenants := [], hports := Tbl.mapV s.hports (fun _ h => { h with intxWire := false }),
           clk := { s.clk with ppsOut := false, trefOut := 0 }, flt := { s.flt with pinShown := false } }

/-- A state but for the page registers and the commands running. -/
def State.sansPages (s : State) : State := { s with regs := [], running := [] }

/-- A state but for the page registers, the commands running and the tables of CLASS and SPREAD (R168 to R182). -/
def State.sansPipeTables (s : State) : State :=
  { s with regs := [], running := [], keyProf := [], ranges := [], arecs := [], tmpls := [], hprofs := [], tkeys := [],
           pgrps := [], stbls := [], vports := [] }

/-- The rows that write PG_CMD (R56): the block and opcode, and the operands as they are written. -/
def pageRow (s : State) (i : Instr) : Option (Nat × Nat × CmdIn) :=
  match i with
  | .armSeals c => some (blkRTIME, 0x02, c)
  | .laneCal c => some (blkRTIME, 0x01, c)
  | .schedule c => some (blkCAL, 0x01, c)
  | .cancel c => some (blkCAL, 0x02, c)
  | .query c => some (blkCAL, 0x03, c)
  | .up c => some (blkOCTET, 0x01, c)
  | .down c => some (blkOCTET, 0x02, c)
  | .recal c => some (blkOCTET, 0x03, c)
  | .reattachAccept c => some (blkOCTET, 0x04, c)
  | .reattachRefuse c => some (blkOCTET, 0x05, c)
  | .vfAlloc c => some (blkHPORT, 0x01, c)
  | .msixAlloc c => some (blkHPORT, 0x02, c)
  | .funcReset c => some (blkHPORT, 0x03, c)
  | .winWrite c => some (blkWINDOW, 0x01, c)
  | .winRead c => some (blkWINDOW, 0x02, c)
  | .windowCommit c => some (blkWINDOW, 0x03, c)
  | .qCreate c => some (blkQMGR, 0x01, c)
  | .qDestroy c => some (blkQMGR, 0x02, c)
  | .qStop c => some (blkQMGR, 0x03, c)
  | .qStart c => some (blkQMGR, 0x04, c)
  | .qResume c => some (blkQMGR, 0x05, c)
  | .qQuery c => some (blkQMGR, 0x06, c)
  | .erCreate c => some (blkQMGR, 0x07, c)
  | .erDestroy c => some (blkQMGR, 0x08, c)
  | .setup c => some (blkDMA, 0x01, c)
  | .start c => some (blkDMA, 0x02, c)
  | .stop c => some (blkDMA, 0x03, c)
  | .resume c => some (blkDMA, 0x04, c)
  | .release c => some (blkDMA, 0x05, c)
  | .nodeWrite c => some (blkPARSE, 0x01, c)
  | .nodeRead c => some (blkPARSE, 0x02, c)
  | .profCommit c => some (blkPARSE, 0x03, c)
  | .portProf c => some (blkPARSE, 0x04, c)
  | .portQuery c => some (blkPARSE, 0x05, c)
  | .fragFlushTenant c => some (blkFRAG, 0x01, c)
  | .keyprofWrite c => some (blkCLASS, 0x01, c)
  | .rangeWrite c => some (blkCLASS, 0x02, c)
  | .arecWrite c => some (blkCLASS, 0x03, c)
  | .tmplWrite c => some (blkCLASS, 0x04, c)
  | .keyprofRead c => some (blkCLASS, 0x11, c)
  | .rangeRead c => some (blkCLASS, 0x12, c)
  | .arecRead c => some (blkCLASS, 0x13, c)
  | .tmplRead c => some (blkCLASS, 0x14, c)
  | .hprofWrite c => some (blkSPREAD, 0x01, c)
  | .tkeyWrite c => some (blkSPREAD, 0x02, c)
  | .pgrpWrite c => some (blkSPREAD, 0x03, c)
  | .stblWrite c => some (blkSPREAD, 0x04, c)
  | .vportWrite c => some (blkSPREAD, 0x05, c)
  | .hprofRead c => some (blkSPREAD, 0x11, c)
  | .tkeyRead c => some (blkSPREAD, 0x12, c)
  | .pgrpRead c => some (blkSPREAD, 0x13, c)
  | .stblRead c => some (blkSPREAD, 0x14, c)
  | .vportRead c => some (blkSPREAD, 0x15, c)
  | .tableRead p c => some ((tableBlk p), 0x01, c)
  | .tableWrite p c => some ((tableBlk p), 0x02, c)
  | .insert p c => some ((tableBlk p), 0x03, c)
  | .delete p c => some ((tableBlk p), 0x04, c)
  | .search p c => some ((tableBlk p), 0x05, c)
  | .cas p c => some ((tableBlk p), 0x06, c)
  | .move p c => some ((tableBlk p), 0x07, c)
  | .tableFlushTenant p c => some ((tableBlk p), 0x08, c)
  | .qpCreate c => some (blkRDMA, 0x01, c)
  | .qpModifyRtr c => some (blkRDMA, 0x02, qpModifyIn 2 c s)
  | .qpModifyRts c => some (blkRDMA, 0x02, qpModifyIn 3 c s)
  | .qpModifyError c => some (blkRDMA, 0x02, qpModifyIn 4 c s)
  | .qpModifyInit c => some (blkRDMA, 0x02, qpModifyIn 1 c s)
  | .qpQuery c => some (blkRDMA, 0x03, c)
  | .qpDestroy c => some (blkRDMA, 0x04, c)
  | .mkeyWrite c => some (blkRDMA, 0x05, c)
  | .mkeyInvalidate c => some (blkRDMA, 0x06, c)
  | .mkeyRead c => some (blkRDMA, 0x07, c)
  | .tquotaWrite c => some (blkLEVAIN, 0x01, c)
  | .tquotaRead c => some (blkLEVAIN, 0x02, c)
  | .ctxQuery c => some (blkLEVAIN, 0x03, c)
  | .evict c => some (blkLEVAIN, 0x04, c)
  | .setClass c => some (blkLEVAIN, 0x05, c)
  | .ctrlCreate c => some (blkNVME, 0x01, c)
  | .ctrlDestroy c => some (blkNVME, 0x02, c)
  | .ctrlQuery c => some (blkNVME, 0x03, c)
  | .nsCreate c => some (blkNVME, 0x04, c)
  | .nsDestroy c => some (blkNVME, 0x05, c)
  | .nsAttach c => some (blkNVME, 0x06, c)
  | .nsDetach c => some (blkNVME, 0x07, c)
  | .nsRebind c => some (blkNVME, 0x08, c)
  | .bkqWrite c => some (blkNVME, 0x09, c)
  | .bkDown c => some (blkNVME, 0x0A, c)
  | .mgmtIdentify c => some (blkNVME, 0x0B, mgmtIn 0x06 none c)
  | .mgmtGetLogPage c => some (blkNVME, 0x0B, mgmtIn 0x02 none c)
  | .firmwareImageDownload c => some (blkNVME, 0x0B, mgmtIn 0x11 none c)
  | .firmwareCommitWrite c => some (blkNVME, 0x0B, mgmtIn 0x10 (some 0) c)
  | .firmwareCommitWriteActivate c => some (blkNVME, 0x0B, mgmtIn 0x10 (some 1) c)
  | .firmwareCommitActivate c => some (blkNVME, 0x0B, mgmtIn 0x10 (some 2) c)
  | .rlQuery c => some (blkRLOCK, 0x01, c)
  | .job c => some (blkCIPHER, 0x01, c)
  | .keyStage c => some (blkKEYS, 0x01, c)
  | .slotWrite c => some (blkKEYS, 0x02, c)
  | .slotRead c => some (blkKEYS, 0x03, c)
  | .slotInvalidate c => some (blkKEYS, 0x04, c)
  | .saWrite c => some (blkMACSEC, 0x01, c)
  | .saRead c => some (blkMACSEC, 0x02, c)
  | .saDisable c => some (blkMACSEC, 0x03, c)
  | .qcfgWrite c => some (blkPROOFER, 0x01, c)
  | .qcfgRead c => some (blkPROOFER, 0x02, c)
  | .tweightWrite c => some (blkPROOFER, 0x03, c)
  | .prooferFlushTenant c => some (blkPROOFER, 0x04, c)
  | .selftest c => some (blkTILE, 0x01, c)
  | .canaryWrite c => some (blkTILE, 0x02, c)
  | .hartReset c => some (blkCLUSTER, 0x01, c)
  | .regionWrite c => some (blkMEMENC, 0x01, c)
  | .regionRead c => some (blkMEMENC, 0x02, c)
  | .trainStart ddr c => some ((ctlBlk ddr), 0x01, c)
  | .dlyWrite ddr c => some ((ctlBlk ddr), 0x02, c)
  | .dlyRead ddr c => some ((ctlBlk ddr), 0x03, c)
  | .trainPattern ddr c => some ((ctlBlk ddr), 0x04, c)
  | .goActive ddr c => some ((ctlBlk ddr), 0x05, c)
  | .swap ddr c => some ((ctlBlk ddr), 0x06, c)
  | .tenantOpen c => some (blkTENANT, 0x01, c)
  | .tenantClose c => some (blkTENANT, 0x02, c)
  | .tenantQuery c => some (blkTENANT, 0x03, c)
  | .funcAssign c => some (blkTENANT, 0x04, c)
  | .funcQuery c => some (blkTENANT, 0x05, c)
  | .mtrRead c => some (blkMETER, 0x01, c)
  | .polRead c => some (blkMETER, 0x02, c)
  | .leave c => some (blkTWIN, 0x01, c)
  | .handback c => some (blkTWIN, 0x02, c)
  | .takeover c => some (blkTWIN, 0x03, c)
  | .slotGood c => some (blkBOOT, 0x01, c)
  | .bootLogRead c => some (blkBOOT, 0x02, c)
  | .recovWrite c => some (blkBOOT, 0x03, c)
  | .recovDone c => some (blkBOOT, 0x04, c)
  | .fuseSvn c => some (blkBOOT, 0x05, c)
  | .importPub c => some (blkDAXLIA, 0x01, c)
  | .importKey c => some (blkDAXLIA, 0x02, c)
  | .jtagChallenge c => some (blkDAXLIA, 0x03, c)
  | .jtagUnlock c => some (blkDAXLIA, 0x04, c)
  | .measureRead c => some (blkDAXLIA, 0x05, c)
  | .sevWrite c => some (blkFAULT, 0x01, c)
  | .sevRead c => some (blkFAULT, 0x02, c)
  | .faultLogRead c => some (blkFAULT, 0x03, c)
  | .unitQuery c => some (blkFAULT, 0x04, c)
  | .unitRestore c => some (blkFAULT, 0x05, c)
  | .spdRead c => some (blkMGMT, 0x01, c)
  | _ => none

end Sys2Proof.Machine
end

