-- ==== Sys2Proof/Certificates/Slice0/Obligations.lean ====
section
/-! DEFINITION. The statements for the provers, from the numbered rules of the manual. -/

open Sys2Proof Sys2Proof.Machine

/-! ## Completion, chapter by chapter -/

/-- Register accesses, PG_CTRL, PG_ITEST, INT_REARM and ROUTE (R8, R47 to R53, R63 to R66, R456): on a page that admits the
requester, each row answers a next state with its own effect, settled. -/
def Obligations.RegisterRowsRun : Prop :=
  (∀ (s : State) (who : Requester) (a : BitVec 29) (v : Word),
    WriteReaches s who (a.toNat / 2097152) (a.toNat / 4096 % 512) → a.toNat % 4 = 0 → a.toNat % 4096 ≠ 0x20 →
    exec (.registerWrite who (.page a) true v) s = .next (settle (withResets
      (writeReg who (a.toNat / 2097152) (a.toNat / 4096 % 512) (a.toNat % 4096) v.toNat 0) s)) ∧
    exec (.reg64HiWrite who (.page a) v) s = .next (settle (withResets
      (writeReg who (a.toNat / 2097152) (a.toNat / 4096 % 512) (a.toNat % 4096) v.toNat 0) s)) ∧
    ∀ e : Word, exec (.w1cWrite who (.page a) v e) s = .next (settle (withResets
      (writeReg who (a.toNat / 2097152) (a.toNat / 4096 % 512) (a.toNat % 4096) v.toNat e.toNat) s))) ∧
  (∀ (s : State) (who : Requester) (port : Fin 128) (sel : BitVec 12) (off : BitVec 16) (v : Word),
    FuncAnswers s port.val sel.toNat → off.toNat % 4 = 0 → ringFn sel.toNat = true →
    exec (.registerWrite who (.fn port sel off) true v) s =
      .next (settle (withResets (ringFnWrite port.val sel.toNat off.toNat v.toNat 0) s))) ∧
  (∀ (s : State) (who : Requester) (port : Fin 128) (sel : BitVec 12) (off : BitVec 16) (v : Word),
    FuncAnswers s port.val sel.toNat → off.toNat % 4 = 0 → ringFn sel.toNat = false → sel.toNat ≠ 2 →
    exec (.registerWrite who (.fn port sel off) true v) s =
      .next (settle (withResets (ctlWrite port.val sel.toNat off.toNat v.toNat) s))) ∧
  (∀ (s : State) (who : Requester) (a : BitVec 29),
    cfInReset s who = none → a.toNat / 4096 % 512 < pageCount (a.toNat / 2097152) → a.toNat % 4 = 0 →
    mayRead s who (a.toNat / 2097152) = true →
    (∀ e : Bool, exec (.rcRead who (.page a) e) s = .next (settle
      (let r := readReg who e (a.toNat / 2097152) (a.toNat / 4096 % 512) (a.toNat % 4096) s
       r.2.emit (.regData who (some (w32 r.1)))))) ∧
    exec (.reg64LoRead who (.page a)) s = .next (settle
      (let r := readReg who false (a.toNat / 2097152) (a.toNat / 4096 % 512) (a.toNat % 4096) s
       r.2.emit (.regData who (some (w32 r.1)))))) ∧
  (∀ (s : State) (who : Requester) (pg : PageRef), WriteReaches s who pg.blk.toNat pg.inst.toNat →
    (∀ v : Word, exec (.pgItestWrite who pg v) s = .next (settle (s.hdw pg.blk.toNat pg.inst.toNat 0x10
      (s.hd pg.blk.toNat pg.inst.toNat 0x10 ||| v.toNat)))) ∧
    exec (.pgCtrlLock who pg) s = .next (settle (s.hdw pg.blk.toNat pg.inst.toNat 0x08
      (s.hd pg.blk.toNat pg.inst.toNat 0x08 ||| 2 ^ 31))) ∧
    exec (.pgCtrlFreeze who pg true) s = .next (settle (ctrlBit
      { s with snaps := Tbl.put s.snaps (State.pk pg.blk.toNat pg.inst.toNat) (snapshot s pg.blk.toNat pg.inst.toNat) }
      pg.blk.toNat pg.inst.toNat 2 true)) ∧
    exec (.pgCtrlFreeze who pg false) s = .next (settle (ctrlBit
      { s with snaps := Tbl.del s.snaps (State.pk pg.blk.toNat pg.inst.toNat) } pg.blk.toNat pg.inst.toNat 2 false)) ∧
    exec (.pgCtrlSoftReset who pg) s = .next (settle (softReset s pg.blk.toNat pg.inst.toNat)) ∧
    (enableFixed pg.blk.toNat = false →
      exec (.pgCtrlEnableWrite who pg false) s = .next (settle (ctrlBit s pg.blk.toNat pg.inst.toNat 0 false)) ∧
      (s.enabled pg.blk.toNat pg.inst.toNat = false → exec (.pgCtrlEnableWrite who pg true) s =
        .next (settle (startsWork (ctrlBit s pg.blk.toNat pg.inst.toNat 0 true) pg.blk.toNat pg.inst.toNat))))) ∧
  (∀ (s : State) (pg : PageRef), pg.inst.toNat < pageCount pg.blk.toNat →
    exec (.softResetComplete pg) s =
      .next (settle { s with resetting := setDel s.resetting (State.pk pg.blk.toNat pg.inst.toNat) })) ∧
  (∀ (s : State) (who : Requester) (v : Word), WriteReaches s who blkHUB 0 →
    ((pendingTypes s.regs).contains (v.toNat % 256) = true →
      exec (.intRearmWrite who v) s = .next (settle (sendRoute s (v.toNat % 256)))) ∧
    ∀ t : BitVec 8, s.locked blkHUB 0 = false → (bits v.toNat 29 28 = 2 ∨ v.toNat % 2048 < s.boot.cfMsix) →
      exec (.routeWrite who t v) s = .next (settle (s.wr HUB.ROUTE 0 (v.toNat &&& 0xB00007FF) t.toNat))) ∧
  (∀ (s : State) (a v : Word), bit a.toNat 31 = true → WriteReaches s .mgmt (a.toNat % 2 ^ 29 / 2097152)
      (a.toNat % 2 ^ 29 / 4096 % 512) → a.toNat % 4 = 0 → a.toNat % 4096 ≠ 0x20 →
    exec (.mgmtPrivateWrite a v false) s = .next (settle (withResets (writeReg .mgmt (a.toNat % 2 ^ 29 / 2097152)
      (a.toNat % 2 ^ 29 / 4096 % 512) (a.toNat % 4096) v.toNat 0) s))) ∧
  (∀ (s : State) (a : Word), cfInReset s .mgmt = none →
    a.toNat % 2 ^ 29 / 4096 % 512 < pageCount (a.toNat % 2 ^ 29 / 2097152) → a.toNat % 4 = 0 →
    mayRead s .mgmt (a.toNat % 2 ^ 29 / 2097152) = true →
    exec (.mgmtPrivateRead a false) s = .next (settle
      (let r := readReg .mgmt false (a.toNat % 2 ^ 29 / 2097152) (a.toNat % 2 ^ 29 / 4096 % 512) (a.toNat % 4096) s
       r.2.emit (.regData .mgmt (some (w32 r.1))))))

/-- A running command's end and its time limit (R56, R60): the effect of its opcode, or RESULT 0x09 with the page's
interrupt. -/
def Obligations.CommandEndRowsRun : Prop :=
  (∀ (s : State) (pg : PageRef) (r : Running) (eff : CmdCtx → State → CmdRes), pg.inst.toNat < pageCount pg.blk.toNat →
    Tbl.get? s.running (State.pk pg.blk.toNat pg.inst.toNat) = some r → r.wait = false →
    pageEffect pg.blk.toNat r.op.toNat = some eff →
    exec (.commandEnd pg) s = .next (settle (withResets (fun s => conclude (judge r pg.blk.toNat pg.inst.toNat eff s)
      (State.pk pg.blk.toNat pg.inst.toNat)) s))) ∧
  (∀ (s : State) (pg : PageRef) (r : Running), pg.inst.toNat < pageCount pg.blk.toNat →
    Tbl.get? s.running (State.pk pg.blk.toNat pg.inst.toNat) = some r → pg.blk.toNat ≠ blkQMGR → pg.blk.toNat ≠ blkTWIN →
    exec (.cmdLimitExpiry pg) s = .next (settle (withResets (fun s =>
      raisePage (endCommand (s.reach (r.start + s.rd HUB.CMD_LIMIT * 1000)) (State.pk pg.blk.toNat pg.inst.toNat) 0x09 none)
        pg.blk.toNat pg.inst.toNat 0) s)))

/-- Rack Time, its sources and outputs, minutes and lane calibration (R16 to R30, R38 to R42, R368, R467 to R469). -/
def Obligations.TimeRowsRun : Prop :=
  (∀ (s : State) (who : Requester), WriteReaches s who blkRTIME 0 →
    (∀ hi : Word, exec (.ptpOffsetCommit who hi) s = .next (settle (measure (reselect (gainSource s .ptp)) .ptp
      (signed 64 (((Tbl.get? s.stages (State.addr RTIME.PTP_OFFSET_LO 0 0 * 2048 + whoIx who)).getD 0).toNat +
        hi.toNat * 4294967296))))) ∧
    (∀ on : Bool, exec (.forceHoldoverWrite who on) s = .next (settle (reselect (s.wr RTIME.SRC_CTRL 0
      (s.rd RTIME.SRC_CTRL % 2 ^ 31 + b2n on * 2 ^ 31))))) ∧
    (∀ en : BitVec 3, exec (.sourceEnableWrite who en) s = .next (settle (reselect (s.wr RTIME.SRC_CTRL 0
      (s.rd RTIME.SRC_CTRL - bits (s.rd RTIME.SRC_CTRL) 10 8 * 256 + en.toNat * 256))))) ∧
    (∀ rk : BitVec 6, exec (.sourceRankWrite who rk) s = .next (settle (reselect (s.wr RTIME.SRC_CTRL 0
      (s.rd RTIME.SRC_CTRL / 64 * 64 + rk.toNat))))) ∧
    (∀ v : Word, v.toNat ≤ 59 → s.clk.armed = false →
      exec (.minuteOffsetWrite who v) s = .next (settle (s.wr RTIME.MINUTE_OFFSET 0 v.toNat)))) ∧
  (∀ s : State, s.clk.ptp.ok = true → exec .ptpTimeoutExpiry s = .next (settle (loseSource
    ((reachBref s (s.clk.ptp.last + s.rd RTIME.PTP_TIMEOUT * 1000000)).bumpErr blkRTIME 0 0) .ptp))) ∧
  (∀ (s : State) (dt : Nat), s.clk.trefOk = true → s.clk.pps.last ≠ 0 → s.bref + dt ≤ s.clk.pps.last + 1200000000 →
    exec (.ppsInEdge dt) s = .next (settle (measure (reselect (gainSource ((s.pass dt).wr RTIME.PPS_PHASE 0
      (unsigned 32 (ppsOffset (s.pass dt) / 65536))) .pps)) .pps (ppsOffset (s.pass dt))))) ∧
  (∀ s : State, s.clk.pps.last ≠ 0 → exec .ppsInMissing s = .next (settle
    (setClk (loseSource (((reachBref s (s.clk.pps.last + 1200000001)).bumpErr blkRTIME 0 1).istat blkRTIME 0 4) .pps)
      (fun c => { c with pps := { c.pps with last := 0 } })))) ∧
  (∀ s : State, exec (.trefInOutOfRange false) s = .next (settle (setClk s (fun c => { c with trefOk := true }))) ∧
    (s.clk.pps.ok = true → exec (.trefInOutOfRange true) s = .next (settle (loseSource
      (((setClk s (fun c => { c with trefOk := false })).istat blkRTIME 0 5).bumpErr blkRTIME 0 1) .pps)))) ∧
  (∀ (s : State) (src cur : Source), s.clk.source = some cur → qualified s src = true →
    (ranking s).idxOf src < (ranking s).idxOf cur →
    bestSource (reachBref s ((qualOf s.clk src).since + s.rd RTIME.QUAL_TIME * 1000000000)) = some src →
    exec (.qualTimeExpiry src) s = .next (settle (selectSource
      ((reachBref s ((qualOf s.clk src).since + s.rd RTIME.QUAL_TIME * 1000000000)).istat blkRTIME 0 3) src))) ∧
  (∀ s : State, s.clk.stepPending.isSome = true → exec .stepApply s = .next (settle (withResets (fun s =>
    (skipped (applyStep s) (reachBref s ((s.bref + 31) / 32 * 32)).ns (applyStep s).ns).foldl fireSkipped (applyStep s)) s))) ∧
  (∀ s : State, (s.clk.armed = true ∧ s.clk.lastSealed < minuteOf s s.ns →
      exec .minuteBoundary s = .next (settle (sealUpTo s false))) ∧
    (s.clk.armed = false → exec .minuteBoundary s = .next (settle (sealUpTo (s.reach
      (((minuteOf s s.ns + 1) * 60 + (s.rd RTIME.MINUTE_OFFSET : Int)).toNat * 1000000000)) false)))) ∧
  (∀ (s : State) (r : Running) (off : Word), waitingCmd s blkRTIME 0 0x01 = some r →
    exec (.laneCalComplete true off) s = .next (settle (endWaiting
      ((s.wr OCTET.LANE_OFFSET (r.arg0.toNat / 8) off.toNat (r.arg0.toNat % 8)).wr OCTET.LANE_CALSTAT (r.arg0.toNat / 8)
        (s.rd OCTET.LANE_CALSTAT (r.arg0.toNat / 8) ||| 2 ^ (r.arg0.toNat % 8))) blkRTIME 0 0x01 0)) ∧
    exec (.laneCalComplete false off) s = .next (settle (endWaiting
      ((s.wr OCTET.LANE_CALSTAT (r.arg0.toNat / 8) (s.rd OCTET.LANE_CALSTAT (r.arg0.toNat / 8) -
        (s.rd OCTET.LANE_CALSTAT (r.arg0.toNat / 8) &&& 2 ^ (r.arg0.toNat % 8)))).istat blkOCTET (r.arg0.toNat / 8) 2)
      blkRTIME 0 0x01 0x47))) ∧
  (∀ (s : State) (n : Nat), n = (((s.ns : Int) - signed 32 (s.rd RTIME.PPS_OUT_OFFSET)) / 1000000000 * 1000000000 +
      signed 32 (s.rd RTIME.PPS_OUT_OFFSET) + 1000000000).toNat → ppsDriven (s.reach n) = true →
    exec (.ppsOutPulse true) s = .next (settle
      ((setClk (s.reach n) (fun c => { c with ppsOut := true })).emit (.pin 1 0 1)))) ∧
  (∀ (s : State) (n : Nat), n = (((s.ns : Int) - signed 32 (s.rd RTIME.PPS_OUT_OFFSET)) / 1000000000 * 1000000000 +
      signed 32 (s.rd RTIME.PPS_OUT_OFFSET) + s.rd RTIME.PPS_OUT_WIDTH).toNat → s.clk.ppsOut = true →
    exec (.ppsOutPulse false) s = .next (settle
      ((setClk (s.reach n) (fun c => { c with ppsOut := false })).emit (.pin 1 0 0))))

/-- The calendar's own rows (R31 to R36): the next event fires, an event cascades to the level below, a spilled event comes
back. -/
def Obligations.CalendarRowsRun : Prop :=
  (∀ (s : State) (i : Fin 64) (e : CalEvent), s.calNext i.val = some e →
    exec (.calEventFire i) s = .next (settle
      (fireTo (s.fireEvent i.val e) i.val e false (decide (e.deadline + 2 < (s.fireEvent i.val e).ns))))) ∧
  (∀ (s : State) (i : Fin 64) (e : CalEvent) (u : State), s.calNext i.val = some e → calLevel s.ns e.deadline ≠ 0 →
    u = s.reach (if calLevel s.ns e.deadline = 4 then (e.deadline / 2 ^ 30 - 1023) * 2 ^ 30
      else if calLevel s.ns e.deadline = 1 then e.deadline / 2 ^ 10 * 2 ^ 10
      else if calLevel s.ns e.deadline = 2 then e.deadline / 2 ^ 20 * 2 ^ 20 else e.deadline / 2 ^ 30 * 2 ^ 30) →
    (u.rd CAL.SPILL_HI i.val ≤ (u.slice i.val).chip.length → exec (.calLevelCascade i) s = .next (settle (u.setSlice i.val
      (calSpill u.ns (u.rd CAL.SPILL_LO i.val) (u.rd CAL.SPILL_SIZE i.val) (u.slice i.val).chip.length (u.slice i.val))))) ∧
    ((u.slice i.val).chip.length < u.rd CAL.SPILL_HI i.val → exec (.calLevelCascade i) s = .next (settle u))) ∧
  (∀ (s : State) (i : Fin 64) (e : CalEvent) (u : State), State.calFirst (s.slice i.val).spill = some e →
    u = s.reach ((e.deadline / 2 ^ 20 - 1) * 2 ^ 20) → (u.slice i.val).chip.length < 65536 →
    exec (.calSpillReturn i) s = .next (settle (u.setSlice i.val
      { chip := (u.slice i.val).chip ++ [e], spill := (u.slice i.val).spill.erase e })))

/-- Octets, lanes, attachment and the Ethernet and device ports (R74 to R84, R94, R96, R174). -/
def Obligations.AttachmentRowsRun : Prop :=
  (∀ (s : State) (o : Fin 128) (good : BitVec 8) (offs : List Word),
    (s.stateOf blkOCTET o.val = 2 → exec (.octetCalComplete o good offs) s = .next (settle
      ((hostPorts (setOct (lanesMeasured s o.val good.toNat offs) o.val 3) o.val).foldl hostTraining
        (setOct (lanesMeasured s o.val good.toNat offs) o.val 3)))) ∧
    (s.stateOf blkOCTET o.val = 1 → Waits s blkOCTET o.val 0x03 → exec (.octetCalComplete o good offs) s =
      .next (settle (endWaiting (lanesMeasured s o.val good.toNat offs) blkOCTET o.val 0x03 0)))) ∧
  (∀ (s : State) (o : Fin 128) (k : Fin 8) (g w : BitVec 4), 3 ≤ s.stateOf blkOCTET o.val →
    (Tbl.getD s.octUp o.val []).contains k.val = false →
    (persOf s o.val = 2 → k.val < dports s o.val → exec (.portLinkUp o k g w) s = .next (settle (octPortUp
      (((s.wr DPORT.DLLA o.val (s.rd DPORT.DLLA o.val ||| 2 ^ k.val)).wr DPORT.LINK o.val
        (min g.toNat (s.rd DPORT.MAX_GEN o.val) + w.toNat * 16) k.val).istat blkDPORT o.val 0) o.val k.val))) ∧
    (persOf s o.val = 3 → (ethPorts s o.val).contains k.val = true → exec (.portLinkUp o k g w) s =
      .next (settle (octPortUp ((s.wr EMAC.LINK_UP o.val (s.rd EMAC.LINK_UP o.val ||| 2 ^ k.val)).istat blkEMAC o.val 0)
        o.val k.val))) ∧
    (persOf s o.val = 4 → k.val = 0 → exec (.portLinkUp o k g w) s =
      .next (settle (linkLocked (octPortUp s o.val 0) (linkOfOctet o.val))))) ∧
  (∀ (s u : State) (o : Fin 128) (k : Fin 8), (Tbl.getD s.octUp o.val []).contains k.val = true → persOf s o.val ≠ 1 →
    u = octPortDown s o.val k.val →
    (persOf u o.val = 2 → exec (.portLinkDown o k) s = .next (settle (backingPortDown
      ((((u.wr DPORT.DLLA o.val (u.rd DPORT.DLLA o.val - (u.rd DPORT.DLLA o.val &&& 2 ^ k.val))).wr DPORT.LINK o.val 0
        k.val).istat blkDPORT o.val 0).bumpErr blkDPORT o.val 0) o.val k.val))) ∧
    (persOf u o.val = 3 → exec (.portLinkDown o k) s = .next (settle (dropTx
      (((u.wr EMAC.LINK_UP o.val (u.rd EMAC.LINK_UP o.val - (u.rd EMAC.LINK_UP o.val &&& 2 ^ k.val))).istat
        blkEMAC o.val 0).bumpErr blkEMAC o.val 1) (8 * o.val + k.val)))) ∧
    (persOf u o.val = 4 → exec (.portLinkDown o k) s = .next (settle (linkDown u (linkOfOctet o.val))))) ∧
  (∀ (s u : State) (o : Fin 128) (p : Nat) (level : Bool),
    u = setHprsnt s o.val level →
    pinPort u o.val = some p → exec (.hprsntNChange o level) s = .next (settle (setHport u p { hportOf u p with
      debounce := if (if level then (hportOf u p).quar == 1 || (hportOf u p).quar == 3
                      else (hportOf u p).quar == 0 || (hportOf u p).quar == 2) && !u.flt.halt
                  then some (u.ns + u.rd OCTET.PRSNT_DEBOUNCE o.val * 1000) else none }))) ∧
  (∀ (s u : State) (o : Fin 128) (p d : Nat), pinPort s o.val = some p → (hportOf s p).debounce = some d →
    u = setHport (s.reach d) p { hportOf (s.reach d) p with debounce := none } →
    (presentPin u p = false → exec (.prsntDebounceExpiry o) s = .next (settle (removal u p))) ∧
    (presentPin u p = true → octetsReady u p = true → exec (.prsntDebounceExpiry o) s = .next (settle (attach u p)))) ∧
  (∀ (s u : State) (p : Fin 128), portUsed s p.val = true → (hportOf s p.val).l0 = true → u = hostLink s p.val false →
    (hportOf u p.val).quar ≠ 1 → (hportOf u p.val).quar ≠ 3 → u.stateOf blkHPORT p.val ≠ 5 →
    exec (.hostLinkLeaveL0 p) s = .next (settle (u.setState blkHPORT p.val (idlePort u p.val)))) ∧
  (∀ (s u v : State) (p : Fin 128), portUsed s p.val = true → (hportOf s p.val).l0 = true → u = hostLink s p.val false →
    ((hportOf u p.val).quar = 1 ∨ (hportOf u p.val).quar = 3) → perstLow u p.val = false →
    v = setHport u p.val { hportOf u p.val with grace := some (u.ns + u.rd OCTET.LINK_GRACE (octetOfPort p.val) * 1000) } →
    v.stateOf blkHPORT p.val ≠ 5 →
    exec (.hostLinkLeaveL0 p) s = .next (settle (v.setState blkHPORT p.val (idlePort v p.val)))) ∧
  (∀ (s : State) (p : Fin 128) (d : Nat), (hportOf s p.val).grace = some d →
    exec (.linkGraceExpiry p) s = .next (settle
      (removal (setHport (s.reach d) p.val { hportOf s p.val with grace := none }) p.val))) ∧
  (∀ (s u : State) (p : Fin 128) (g : BitVec 4) (w : BitVec 5) (flit : Bool), portUsed s p.val = true →
    mayTrain s p.val = true → perstLow s p.val = false →
    u = hostLink (setHport s p.val { hportOf s p.val with gen := g.toNat, width := w.toNat, flit := flit, grace := none })
      p.val true →
    ((hportOf u p.val).quar = 3 → exec (.hostLinkTrained p g w flit) s = .next (settle (u.setState blkHPORT p.val 3))) ∧
    ((hportOf u p.val).quar ≠ 1 → (hportOf u p.val).quar ≠ 3 → pinServed u p.val = false →
      exec (.hostLinkTrained p g w flit) s = .next (settle (attach u p.val))) ∧
    ((hportOf u p.val).quar = 1 → (hportOf s p.val).grace = none → u.stateOf blkHPORT p.val ≠ 4 →
      exec (.hostLinkTrained p g w flit) s = .next (settle (u.setState blkHPORT p.val 3)))) ∧
  (∀ (s u : State) (o : Fin 128) (p : Nat), u = setPerst s o.val false →
    pinPort u o.val = some p →
    ((hportOf u p).quar ≠ 1 → exec (.perstNAssert o) s = .next (settle
      ((hostLink (setHport u p { hportOf u p with grace := none }) p false).setState blkHPORT p
        (idlePort (hostLink (setHport u p { hportOf u p with grace := none }) p false) p)))) ∧
    ((hportOf u p).quar = 1 → exec (.perstNAssert o) s = .next (settle
      ((portReset (hostLink (setHport u p { hportOf u p with grace := none }) p false) p).setState blkHPORT p 5)))) ∧
  (∀ (s u : State) (o : Fin 128) (p : Nat), u = setPerst s o.val true →
    pinPort u o.val = some p → u.stateOf blkHPORT p = 5 → (hportOf u p).l0 = false →
    exec (.perstNDeassert o) s = .next (settle (u.setState blkHPORT p (idlePort u p)))) ∧
  (∀ (s u : State) (p : Fin 128) (n : Nat) (e : CalEvent), Due s blkOCTET 1 p.val n e → u = s.fireEvent n e →
    (hportOf u p.val).quar = 2 → exec (.quarantineExpiry p) s = .next (settle
      (((setHport (purge u p.val) p.val { hportOf (purge u p.val) p.val with quar := 0 }).bumpErr blkOCTET
        (octetOfPort p.val) 2).istat blkOCTET (octetOfPort p.val) 3))) ∧
  (∀ (s : State) (p : Fin 128) (d t : Nat), (hportOf s p.val).quarRetry = some (d, t) →
    exec (.quarScheduleRetry p) s = .next (settle (scheduleExpiry (s.reach t) p.val d))) ∧
  (∀ (s u : State) (p : Fin 1024) (bs : List Byte) (dt : Nat), linkUp (s.pass dt) p.val = true →
    u = emacCount (emacCount (s.pass dt) p.val 0 1) p.val 1 bs.length →
    (bs.length + 4 < 64 → ∀ fcs ovf : Bool, exec (.ethFrameRx p bs fcs ovf dt) s =
      .next (settle (emacCount u p.val 6 1))) ∧
    (60 ≤ bs.length → bs.length ≤ u.rd EMAC.MAX_FRAME (p.val / 8) → ∀ ovf : Bool,
      exec (.ethFrameRx p bs false ovf dt) s = .next (settle (emacCount u p.val 4 1))) ∧
    (60 ≤ bs.length → bs.length ≤ u.rd EMAC.MAX_FRAME (p.val / 8) → isPause bs = false → ∀ (v : State) (f : List Byte),
      macsecRx u p.val bs = (v, some f) → exec (.ethFrameRx p bs true false dt) s = .next (settle
        (ingressEth v p.val f (v.traceable && bit (v.rd OCTET.LANE_CALSTAT (p.val / 8)) (p.val % 8)) none)))) ∧
  (∀ (s : State) (o : Fin 128) (k : Fin 4) (a : Dword) (bs : List Byte) (w : Nat), persOf s o.val = 2 →
    (Tbl.getD s.octUp o.val []).contains k.val = true → w < 4 → (inbound s o.val k.val w).1 ≤ a.toNat →
    a.toNat + bs.length ≤ (inbound s o.val k.val w).2 + 1 → devAny s a.toNat bs.length = 0 →
    ∀ len : Nat, exec (.dportInboundRequest o k a len (some bs)) s = .next (settle (s.memPut a.toNat bs))) ∧
  (∀ (s : State) (o : Fin 128) (k : Fin 4) (a : Dword) (len w : Nat), persOf s o.val = 2 →
    (Tbl.getD s.octUp o.val []).contains k.val = true → w < 4 → (inbound s o.val k.val w).1 ≤ a.toNat →
    a.toNat + len ≤ (inbound s o.val k.val w).2 + 1 → devAny s a.toNat len = 0 →
    exec (.dportInboundRequest o k a len none) s = .next (settle
      (s.emit (.completion (dportNumber o.val k.val) 0 (Memory.readBytes s.mem a.toNat len)))))

/-- Host functions: configuration, resets, readiness and errors (R91 to R99, R363). -/
def Obligations.FunctionRowsRun : Prop :=
  (∀ (s : State) (p : Fin 128) (rid : BitVec 16) (off : BitVec 12) (sel : Nat), configMeets s p.val = 2 →
    selOfRid rid.toNat = some sel → funcPresent s p.val sel = true → (funcOf s p.val sel).inReset = false →
    (∀ v : Word, exec (.configRequest p rid off (some v)) s = .next (settle
      ((cfgPut p.val sel off.toNat v s).emit (.completion p.val 0 [])))) ∧
    exec (.configRequest p rid off none) s = .next (settle
      (s.emit (.completion p.val 0 (leBytes 4 (cfgRead s p.val sel off.toNat).toNat))))) ∧
  (∀ (s : State) (p : Fin 128) (sel : BitVec 12), ConfigFinds s p.val sel.toNat →
    (sel.toNat ≤ 2 → (funcOf s p.val sel.toNat).d3 = false → exec (.powerStateWrite p sel true) s =
      .next (settle (setFunc s p.val sel.toNat { funcOf s p.val sel.toNat with d3 := true }))) ∧
    (sel.toNat ≤ 2 → (funcOf s p.val sel.toNat).d3 = true → (funcOf s p.val sel.toNat).inReset = false →
      exec (.powerStateWrite p sel false) s = .next (settle
        (startFlr (setFunc s p.val sel.toNat { funcOf s p.val sel.toNat with d3 := false }) p.val sel.toNat))) ∧
    (flrRuns s p.val sel.toNat = false → exec (.initiateFlr p sel) s = .next (settle (startFlr s p.val sel.toNat)))) ∧
  (∀ (s : State) (p : Fin 128), (hportOf s p.val).quar = 1 → (hportOf s p.val).l0 = true → s.stateOf blkHPORT p.val ≠ 5 →
    exec (.hotReset p) s = .next (settle ((portReset s p.val).setState blkHPORT p.val 5))) ∧
  (∀ (s u : State) (p : Fin 128) (sel : BitVec 12), (funcOf s p.val sel.toNat).inReset = true →
    (funcOf s p.val sel.toNat).subsumed = false → (hportOf s p.val).inReset = false →
    u = leaveReset s p.val (flrScope s p.val sel.toNat) →
    exec (.flrComplete p sel) s = .next (settle (endFuncReset (((setHport u p.val
      (if sel.toNat = 0 then { hportOf u p.val with nvf0 := 0 } else if sel.toNat = 1 then { hportOf u p.val with nvf1 := 0 }
       else hportOf u p.val)).istat blkHPORT p.val 3).bumpStat HPORT.FLR_COUNT p.val) p.val
      (flrScope s p.val sel.toNat) 0))) ∧
  (∀ (s : State) (p : Fin 128) (sel : BitVec 12),
    s.drains.any (fun d => d.port == p.val && d.sel == sel.toNat && d.running) = true →
    exec (.drainComplete p sel) s = .next (settle (endDrain s p.val sel.toNat))) ∧
  (∀ (s u : State) (p : Fin 128), (hportOf s p.val).quar = 1 → (hportOf s p.val).l0 = true → mayTrain s p.val = true →
    perstLow s p.val = false → (s.stateOf blkHPORT p.val = 3 ∨ s.stateOf blkHPORT p.val = 5 ∧ (hportOf s p.val).inReset = true) →
    u = (if (hportOf s p.val).inReset then present (leaveReset s p.val (funcsOf s p.val)) p.val else s) →
    exec (.functionsReady p) s = .next (settle (endFuncReset (((setHport u p.val
      { hportOf u p.val with inReset := false }).setState blkHPORT p.val 4).istat blkHPORT p.val 2) p.val
      (funcsOf s p.val) 0))) ∧
  (∀ (s : State) (p : Fin 128) (sel : BitVec 12),
    exec (.poisonedWriteRx p sel) s = .next (settle ((s.bumpErr blkHPORT p.val 6).aer p.val sel.toNat 3)) ∧
    exec (.unexpectedCompletionRx p sel) s = .next (settle (s.aer p.val sel.toNat 5)) ∧
    exec (.malformedTlpRx p false) s = .next (settle ((s.bumpErr blkHPORT p.val 2).aer p.val 0 1)) ∧
    exec (.malformedTlpRx p true) s = .next (settle ((s.bumpErr blkHPORT p.val 3).aer p.val 0 1))) ∧
  (∀ (s : State) (ch : Fin 256),
    ((dmaOf s ch.val).reading = true → exec (.completionTimeout (.dma ch)) s = .next (settle
      (dmaSlots ch.val none (timedOut s (dmaOf s ch.val).space (dmaOf s ch.val).fn)))) ∧
    ((dmaOf s ch.val).reading = false → (dmaOf s ch.val).stage = 3 → exec (.completionTimeout (.dma ch)) s =
      .next (settle (dmaFlushed ch.val false (timedOut s ((dmaOf s ch.val).flushing.headD 0) (dDstFn (dmaOf s ch.val).desc)))))) ∧
  (∀ (s : State) (p : Fin 128) (sel q : BitVec 12) (x : Queue),
    Tbl.get? (timedOut s p.val sel.toNat).queues (qkey (.fn p sel q)) = some x →
    (x.reading = true → exec (.completionTimeout (.fn p sel q)) s = .next (settle
      (ringSlots (qkey (.fn p sel q)) none (timedOut s p.val sel.toNat)))) ∧
    (x.reading = false → exec (.completionTimeout (.fn p sel q)) s = .next (settle
      (payloadRead (.fn p sel q) .failed (timedOut s p.val sel.toNat)))))

/-- Windows between hosts (R100 to R105): a forwarded request, its answer. -/
def Obligations.WindowRowsRun : Prop :=
  (∀ (s : State) (p : Fin 128) (a : Dword) (len n : Nat) (e : List Dword) (ro : Bool),
    FuncAnswers s p.val 0 → a.toNat < 2 ^ (hportOf s p.val).bar4 → (hportOf s p.val).bar4 ≠ 0 →
    accepts s blkWINDOW (p.val / 8) = true →
    winAt ((winOf s (p.val / 8)).epochs.headD (0, [])).2 p.val a.toNat = some (n, e) → targetReady s (winTarget e) = true →
    (a.toNat + len ≤ winStart e + winBytes e → bit (qw e 0) 62 = true → exec (.windowTlpRx p a len none ro) s =
      .next (settle (forwardTlp s (p.val / 8) p.val a.toNat len e none ro))) ∧
    (∀ bs : List Byte, a.toNat + bs.length ≤ winStart e + winBytes e → bit (qw e 0) 61 = true →
      exec (.windowTlpRx p a len (some bs) ro) s =
        .next (settle (forwardTlp s (p.val / 8) p.val a.toNat bs.length e (some bs) ro)))) ∧
  (∀ (s : State) (i : Fin 16) (id : Nat) (t : WinTlp), (winOf s i.val).tlps.find? (fun t => t.id == id) = some t →
    (∀ bs : List Byte, exec (.windowTargetCompletion i id (.data bs)) s = .next (settle (settleWin
      ((setWin s i.val { winOf s i.val with tlps := (winOf s i.val).tlps.erase t }).emit (.completion t.src 0 bs)) i.val))) ∧
    exec (.windowTargetCompletion i id .failed) s = .next (settle (settleWin
      (((setWin s i.val { winOf s i.val with tlps := (winOf s i.val).tlps.erase t }).bumpErr blkWINDOW i.val 1).emit
        (.completion t.src 2 [])) i.val)))

/-- Rings, doorbells, event rings and frames (R113 to R130, R133). -/
def Obligations.RingRowsRun : Prop :=
  (∀ (s : State) (p : Fin 128) (sel : BitVec 12), FuncAnswers s p.val sel.toNat →
    (∀ (q : BitVec 12) (v : Word), exec (.doorbell p sel q v) s = .next (settle (ringBell s (qkey (.fn p sel q)) v))) ∧
    (∀ v : Word, resumeBad s (fkey p.val sel.toNat * 4096 + (funcOf s p.val sel.toNat).qcSel.toNat % 4096)
        (BitVec.ofNat 16 v.toNat) = 0 →
      exec (.qcResume p sel v) s = .next (settle (resumeQueue (setFunc s p.val sel.toNat
        { funcOf s p.val sel.toNat with qcResult := 0 })
        (fkey p.val sel.toNat * 4096 + (funcOf s p.val sel.toNat).qcSel.toNat % 4096) (BitVec.ofNat 16 v.toNat)))) ∧
    (∀ (n : Fin 16) (v : Word) (r : EvRing), Tbl.get? s.rings (ekey p.val sel.toNat n.val) = some r →
      ((v - r.cons).toNat ≤ (r.ep - r.cons).toNat → exec (.erConsWrite p sel n v) s = .next (settle
        (drainRing (ekey p.val sel.toNat n.val) 34
          { s with rings := Tbl.put s.rings (ekey p.val sel.toNat n.val) { r with cons := v } }))) ∧
      (bit v.toNat 0 = true → r.ep = r.cons → exec (.erArmWrite p sel n v) s = .next (settle
        { s with rings := Tbl.put s.rings (ekey p.val sel.toNat n.val) { r with armed := true } })) ∧
      (bit v.toNat 0 = true → r.ep ≠ r.cons → exec (.erArmWrite p sel n v) s = .next (settle
        (sendVector { s with rings := Tbl.put s.rings (ekey p.val sel.toNat n.val) { r with armed := false } }
          p.val sel.toNat r.vector))))) ∧
  (∀ (s : State) (who : Requester) (p : Fin 128) (v : Word), WriteReaches s who blkQMGR p.val →
    exec (.provDb who p v) s = .next (settle
      (ringBell s (2 ^ 32 + p.val * 4096 + bits v.toNat 27 16) (w32 (v.toNat % 65536))))) ∧
  (∀ (s : State) (slots : Option (List (List Dword))),
    (∀ ch : Fin 256, exec (.descriptorReadComplete (.dma ch) slots) s = .next (settle (dmaSlots ch.val slots s))) ∧
    (∀ (p : Fin 128) (q : BitVec 12), exec (.descriptorReadComplete (.prov p q) slots) s =
      .next (settle (ringSlots (qkey (.prov p q)) slots s))) ∧
    (∀ (p : Fin 128) (sel q : BitVec 12) (x : Queue), Tbl.get? s.queues (qkey (.fn p sel q)) = some x → x.reading = true →
      exec (.descriptorReadComplete (.fn p sel q) slots) s = .next (settle (ringSlots (qkey (.fn p sel q)) slots s)))) ∧
  (∀ (s : State) (q : QRef) (n : Nat) (e : CalEvent), Due s blkQMGR 1 (qkey q) n e →
    exec (.rxHoldExpiry q) s = .next (settle (rxHoldFire (s.fireEvent n e) (qkey q)))) ∧
  (∀ (s : State) (p : Fin 128) (sel q : BitVec 12) (x : Queue) (bs : List Byte),
    Tbl.get? s.queues (qkey (.fn p sel q)) = some x → ownReads x + qpReads s x ≠ 0 →
    (x.kind = 0 → exec (.payloadReadComplete (.fn p sel q) (.data bs)) s = .next (settle
      (ethPayload s (qkey (.fn p sel q)) x (some bs)))) ∧
    (x.kind = 3 → exec (.payloadReadComplete (.fn p sel q) (.data bs)) s = .next (settle
      (readPayload s x.bind (some bs)).1)) ∧
    (x.kind = 2 → (sendPayload s (qkey (.fn p sel q)) (some bs)).2 = true →
      exec (.payloadReadComplete (.fn p sel q) (.data bs)) s = .next (settle
        (sendPayload s (qkey (.fn p sel q)) (some bs)).1))) ∧
  (∀ (s u : State) (p : Fin 1024) (bs : List Byte) (src : Option (Nat × BitVec 16))
    (rest : List (List Byte × Option (Nat × BitVec 16))),
    Tbl.getD s.txq p.val [] = (bs, src) :: rest → u = frameOut s p.val bs rest →
    (wantsStamp u src = false → exec (.frameSent p) s = .next (settle u)) ∧
    (∀ k idx, src = some (k, idx) → wantsStamp u src = true → exec (.frameSent p) s = .next (settle (stampSend u k idx))))

/-- DMA channels (R136 to R142). -/
def Obligations.DmaRowsRun : Prop :=
  (∀ (s : State) (who : Requester) (ch : Fin 256) (v : Word), WriteReaches s who blkDMA ch.val → dmaState s ch.val ≠ 0 →
    v.toNat < 65536 → ((BitVec.ofNat 16 v.toNat) - (dmaOf s ch.val).c).toNat ≤ 2 ^ (dmaOf s ch.val).log2 →
    (BitVec.ofNat 16 v.toNat) ≠ (dmaOf s ch.val).d →
    ((dmaOf s ch.val).d - (dmaOf s ch.val).c).toNat ≤ ((BitVec.ofNat 16 v.toNat) - (dmaOf s ch.val).c).toNat →
    exec (.dmaDoorbell who ch v) s = .next (settle
      (dmaPull (setDma s ch.val { dmaOf s ch.val with d := BitVec.ofNat 16 v.toNat }) ch.val))) ∧
  (∀ (s : State) (ch : Fin 256) (bs : List Byte) (d : Dma), d = dmaOf s ch.val → d.stage = 1 →
    (128 ≤ dSrcSpace d.desc → exec (.dmaReadDataReturn ch (.data bs)) s = .next (settle (dmaWrite ch.val (dmaFuel d.desc)
      (setDma s ch.val { d with held := d.held ++ Memory.readBytes s.mem (dmaNext s d).1 (dmaNext s d).2 })))) ∧
    (dSrcSpace d.desc < 128 → exec (.dmaReadDataReturn ch (.data bs)) s = .next (settle (dmaWrite ch.val (dmaFuel d.desc)
      (setDma s ch.val { d with held := d.held ++ ((bs ++ List.replicate (4096 - bs.length) 0).drop ((dmaNext s d).1 % 64)).take
                                            (dmaNext s d).2 }))))) ∧
  (∀ (s : State) (ch : Fin 256), (dmaOf s ch.val).stage = 2 →
    (dBarrier (dmaOf s ch.val).desc = false → exec (.dmaDescriptorComplete ch) s = .next (settle (dmaComplete s ch.val))) ∧
    ((dmaOf s ch.val).status = 0 → dBarrier (dmaOf s ch.val).desc = true → (dmaOf s ch.val).wrote ≠ [] →
      exec (.dmaDescriptorComplete ch) s = .next (settle ((setDma s ch.val
        { dmaOf s ch.val with stage := 3, flushing := (dmaOf s ch.val).wrote.map Prod.fst, wrote := [] }).emits
        ((dmaOf s ch.val).wrote.map (fun w => .memRead w.1 (dDstFn (dmaOf s ch.val).desc) 4 w.2 0 false)))))) ∧
  (∀ (s : State) (ch : Fin 256), (dmaOf s ch.val).stage = 3 →
    ((dmaOf s ch.val).flushing.length ≤ 1 → exec (.dmaFlushReadReturn ch true) s = .next (settle (dmaComplete
      (setDma s ch.val { dmaOf s ch.val with flushing := (dmaOf s ch.val).flushing.drop 1 }) ch.val))) ∧
    (1 < (dmaOf s ch.val).flushing.length → exec (.dmaFlushReadReturn ch true) s = .next (settle
      (setDma s ch.val { dmaOf s ch.val with flushing := (dmaOf s ch.val).flushing.drop 1 }))) ∧
    exec (.dmaFlushReadReturn ch false) s = .next (settle (dmaComplete
      (setDma s ch.val { dmaOf s ch.val with status := 0x21, flushing := [] }) ch.val))) ∧
  (∀ (s : State) (ch : Fin 256), s.ns / 1000 + 1 = (dmaOf s ch.val).window →
    ((dmaOf s ch.val).stage = 4 → exec (.dmaRateWindow ch) s =
      .next (settle (dmaRead (s.reach ((dmaOf s ch.val).window * 1000)) ch.val))) ∧
    ((dmaOf s ch.val).stage = 5 → exec (.dmaRateWindow ch) s = .next (settle
      (dmaWrite ch.val (dmaFuel (dmaOf s ch.val).desc) (s.reach ((dmaOf s ch.val).window * 1000))))))

/-- Parse profiles, fragments and pacing (R158, R163, R184): their own rows. -/
def Obligations.PipelineRowsRun : Prop :=
  (∀ (s u : State) (pipe : Fin 32) (prof : Fin 8) (r : Running), waitingCmd s blkPARSE pipe.val 0x03 = some r →
    r.arg0.toNat % 8 = prof.val →
    u = copyBank s pipe.val prof.val →
    exec (.profCopyBack pipe prof) s = .next (settle (endWaiting (u.wr PARSE.PROF_CFG pipe.val
      (u.rd PARSE.PROF_CFG pipe.val prof.val ||| 2 ^ 31) prof.val) blkPARSE pipe.val 0x03 0))) ∧
  (∀ (s u : State) (k n : Nat) (e : CalEvent) (f : Frag), Due s blkFRAG 1 k n e → u = s.fireEvent n e →
    Tbl.get? u.frags k = some f → exec (.fragParkExpiry k) s = .next (settle
      (f.parked.foldl (fun s p => fragException s f.pipe p 0 2)
        ((({ u with frags := Tbl.del u.frags k } : State).bumpStat FRAG.PARK_TO 0 f.parked.length).istat blkFRAG 0 1)))) ∧
  (∀ (s u : State) (k n : Nat) (e : CalEvent) (f : Frag), Due s blkFRAG 2 k n e → u = s.fireEvent n e →
    Tbl.get? u.frags k = some f → f.last + u.rd FRAG.FRAG_LIFE * 1000 ≤ u.ns →
    exec (.fragLifeExpiry k) s = .next (settle (({ u with frags := Tbl.del u.frags k } : State).bumpStat FRAG.EXPIRED 0))) ∧
  (∀ (s u : State) (pipe : Fin 32) (cls : Fin 256) (e : CalEvent) (x : Nat × Pkt × ActSet) (rest : List (Nat × Pkt × ActSet)),
    s.pendingEvent pipe.val blkCLASS 1 cls.val = some e → u = s.fireEvent pipe.val e →
    (paceOf u pipe.val cls.val).held = x :: rest →
    exec (.paceRelease pipe cls) s = .next (settle (release (setPace u pipe.val cls.val
      { paceOf u pipe.val cls.val with held := rest }) x.2.1 x.2.2)))

/-- Forwarding tables (R201 to R215): scans, repairs, sweeps, learning. -/
def Obligations.TableRowsRun : Prop :=
  (∀ (s u : State) (bad : BitVec 32) (row : Nat), row = Tbl.getD s.scanAt 0 0 →
    u = (List.range 32).foldl (fun (s : State) (i : Nat) =>
      let s := if bit bad.toNat i then parityFail s 5 i (8192 * i + row) true else s
      if row = 8191 then s.bumpStat TCAM.SCAN_PASS i else s) s →
    exec (.tcamScanTick bad) s = .next (settle { u with scanAt := Tbl.put u.scanAt 0 ((row + 1) % 8192) })) ∧
  (∀ (s : State) (code : BitVec 4) (pos : Nat) (e : Entry) (d : List Dword), code.toNat < 4 →
    entryAt s code.toNat pos = some e → e.bad = true → bit (s.rd HTBL.SCRUB_CTRL) 0 = true →
    d = s.memGetQ (shadowAt s code.toNat pos) 8 →
    (qb d 7 63 32 = (crc32c 0xFFFFFFFF ((qwBytes d).take 60)).toNat → exec (.scrubRepair code pos) s = .next (settle
      ((putEntry s code.toNat pos
        { data := listSet d 7 0, owner := ownerOfVal (qb d 7 31 0 % 8192), ageClass := bits (qb d 7 31 0) 19 16,
          old := bit (qb d 7 31 0) 29, hit := bit (qb d 7 31 0) 30, valid := bit (qb d 7 31 0) 31 }).bumpStat
        HTBL.SCRUBBED 0))) ∧
    (qb d 7 63 32 ≠ (crc32c 0xFFFFFFFF ((qwBytes d).take 60)).toNat → exec (.scrubRepair code pos) s = .next (settle
      (raisePage ((s.bumpErr (tablePage code.toNat) 0 1).istat (tablePage code.toNat) 0 1) (tablePage code.toNat) 0 2)))) ∧
  (∀ (s : State) (n : Nat) (e : CalEvent),
    (Due s blkFLOW 1 0 n e → exec .flowScanStart s = .next (settle (scanFire (s.fireEvent n e) e.deadline false))) ∧
    (Due s blkLEARN 1 0 n e → exec .macSweepStart s = .next (settle (sweepFire (s.fireEvent n e) e.deadline false)))) ∧
  (∀ (s : State), s.scanning = true →
    (s.flushing.take s.scanPos = [] → exec .flowScanPassEnd s = .next (settle (checkClose (passRemoves s [])))) ∧
    (s.flushing.take s.scanPos ≠ [] → exec .flowScanPassEnd s = .next (settle (checkClose
      ((passRemoves s (s.flushing.take s.scanPos)).istat blkFLOW 0 2))))) ∧
  (∀ (s u : State) (pos : Nat) (e : Entry), s.removeQ.contains pos = true → u = { s with removeQ := setDel s.removeQ pos } →
    entryAt u 7 pos = some e → e.valid = true → flowExpired u e u.ns = true →
    exec (.flowQueuedRemoval pos) s = .next (settle ((delEntry u 7 pos).bumpStat FLOW.EXPIRED 0))) ∧
  (∀ (s : State) (sweep : Bool) (t : Nat), Tbl.get? s.tableRetry (b2n sweep) = some t →
    exec (.tableSchedRetry sweep) s = .next (settle (schedulePass (s.reach t) sweep (s.reach t).ns))) ∧
  (∀ (s : State) (r : LearnReq) (t : List LearnReq), s.learnQ = r :: t →
    exec .learnRequest s = .next (settle (takeLearn r { s with learnQ := t }))) ∧
  (∀ (s : State) (who : Requester) (v : Word), WriteReaches s who blkLEARN 0 → s.nrOvr = false →
    (v.toNat + 2 ^ 32 - s.rd LEARN.NR_CONS) % 2 ^ 32 ≤ (s.rd LEARN.NR_PROD + 2 ^ 32 - s.rd LEARN.NR_CONS) % 2 ^ 32 →
    exec (.nrConsWrite who v) s = .next (settle (s.wr LEARN.NR_CONS 0 v.toNat)))

/-- RDMA transport (R226 to R251): received packets, timers and atomics of a QP that is ready. -/
def Obligations.RdmaRowsRun : Prop :=
  (∀ (s : State) (p : RdmaPkt) (q : Qp), Tbl.get? s.qps p.qpn.toNat = some q → p.port.val = Qp'.port q →
    p.sel.toNat = Qp'.func q → p.local_ = Qp'.islocal q → (p.local_ = true ∨ p.icrcOk = true ∧ vportAgrees s q = true) →
    p.opcode.toNat / 32 = 0 →
    exec (.rdmaRequestRx p) s = .next (settle (enginePkt s p.qpn.toNat p))) ∧
  (∀ (s : State) (n psn : BitVec 24) (q : Qp), Tbl.get? s.qps n.toNat = some q → q.state = 3 → q.srSend = false →
    (∀ (sr : Bool) (bl : List (Nat × Nat)) (q' : Qp),
      Tbl.get? (ackCum (s.bumpStat RDMA.RX (engOf n.toNat)) n.toNat psn.toNat).qps n.toNat = some q' → q'.srSend = false →
      exec (.rdmaAckRx n psn sr bl) s = .next (settle (ackCum (s.bumpStat RDMA.RX (engOf n.toNat)) n.toNat psn.toNat))) ∧
    (∀ sr : Bool, exec (.rdmaNakRx n psn 2 sr) s = .next (settle (qpError
      (ackCum (s.bumpStat RDMA.RX (engOf n.toNat)) n.toNat (psn.toNat + 16777215)) n.toNat 0x10 (some psn.toNat))) ∧
      exec (.rdmaNakRx n psn 1 sr) s = .next (settle (qpError
      (ackCum (s.bumpStat RDMA.RX (engOf n.toNat)) n.toNat (psn.toNat + 16777215)) n.toNat 0x11 (some psn.toNat))) ∧
      exec (.rdmaNakRx n psn 3 sr) s = .next (settle (qpError
      (ackCum (s.bumpStat RDMA.RX (engOf n.toNat)) n.toNat (psn.toNat + 16777215)) n.toNat 0x15 (some psn.toNat)))) ∧
    (q.rnrWait = none → qb q.attr 1 37 35 ≠ 7 → qb q.attr 1 37 35 ≤ rnrCount s n.toNat q psn.toNat →
      exec (.rnrNakRx n psn) s = .next (settle (qpError
        (ackCum (s.bumpStat RDMA.RX (engOf n.toNat)) n.toNat (psn.toNat + 16777215)) n.toNat 0x13 (some psn.toNat)))) ∧
    (∀ u v : State, u = ackCum (s.bumpStat RDMA.RX (engOf n.toNat)) n.toNat (psn.toNat + 16777215) →
      q.rnrWait = none → (qb q.attr 1 37 35 = 7 ∨ rnrCount s n.toNat q psn.toNat < qb q.attr 1 37 35) →
      qpSchedule u n.toNat 2 (u.ns + qb q.attr 3 15 0 * 1000) = (v, true) →
      exec (.rnrNakRx n psn) s = .next (settle (updQp v n.toNat (fun x =>
        { x with rnr := rnrCount s n.toNat q psn.toNat + 1, rnrPsn := wrFirst s n.toNat psn.toNat,
                 rnrWait := some (u.ns + qb q.attr 3 15 0 * 1000, psn.toNat) }))))) ∧
  (∀ (s u : State) (n psn : BitVec 24) (off : Word) (last : Bool) (bs : List Byte) (q : Qp) (k : Nat) (r : Queue) (it : WorkItem),
    Tbl.get? s.qps n.toNat = some q → ringOf s n.toNat 2 = some k → Tbl.get? s.queues k = some r →
    r.items.find? (fun i => wrOp i == 0x14 && i.fate.isNone && wrCovers psn.toNat i) = some it →
    q.state = 3 → it.rgot.contains psn.toNat = false → it.placed = off.toNat → it.placed + bs.length < wrLen it →
    u = charge (placeBytes (s.bumpStat RDMA.RX (engOf n.toNat)) (Qp'.port q) (Qp'.func q) (scatter it.entries off.toNat bs))
      (engOf n.toNat) (Qp'.owner q) 23 bs.length
      (placeBytes (s.bumpStat RDMA.RX (engOf n.toNat)) (Qp'.port q) (Qp'.func q) (scatter it.entries off.toNat bs)).ns →
    exec (.readResponseRx n psn off last bs) s = .next (settle (updItem u k it.idx (fun _ =>
      { it with placed := it.placed + bs.length, rgot := it.rgot ++ [psn.toNat] })))) ∧
  (∀ (s : State) (n psn : BitVec 24) (orig : Dword) (q : Qp) (k : Nat) (r : Queue) (it : WorkItem),
    Tbl.get? s.qps n.toNat = some q → ringOf s n.toNat 2 = some k → Tbl.get? s.queues k = some r →
    r.items.find? (fun i => isRead i && wrOp i != 0x14 && i.fate.isNone && wrCovers psn.toNat i) = some it → q.state = 3 →
    exec (.atomicAckRx n psn orig) s = .next (settle (readWrDone (placeBytes (s.bumpStat RDMA.RX (engOf n.toNat)) (Qp'.port q)
      (Qp'.func q) [(qw (it.entries.headD []) 1, leBytes 8 orig.toNat)]) n.toNat k it))) ∧
  (∀ (s : State) (n : BitVec 24) (q : Qp), Tbl.get? s.qps n.toNat = some q →
    exec (.cnpRx n) s = .next (settle
      ((setQp s n.toNat { q with cnpRx := q.cnpRx + 1 }).bumpStat RDMA.CNP_RX (engOf n.toNat)))) ∧
  (∀ (s : State) (n : BitVec 24) (i : Nat) (e : CalEvent),
    (Due s blkRDMA 1 n.toNat i e → exec (.retransmitTimerFire n) s = .next (settle (retxFire (s.fireEvent i e) n.toNat false))) ∧
    (Due s blkRDMA 2 n.toNat i e → exec (.rnrWaitExpiry n) s = .next (settle (rnrFire (s.fireEvent i e) n.toNat)))) ∧
  (∀ (s : State) (n : BitVec 24) (q : Qp) (t : Nat), Tbl.get? s.qps n.toNat = some q → q.timerRetry = true →
    q.timer = some t → q.rnrWait = none →
    exec (.rdmaTimerRetry n) s = .next (settle (runQp (armTimer (s.reach t) n.toNat) n.toNat))) ∧
  (∀ (s u : State) (n psn : BitVec 24) (q : Qp) (msg addr : Nat) (x y : Dword) (st : Nat), Tbl.get? s.qps n.toNat = some q →
    q.atoms.find? (fun a => a.1 == psn.toNat && decide (a.2.2.2.1 < 2)) = some (psn.toNat, msg, addr, st, x, y) →
    u = setQp s n.toNat { q with atoms := q.atoms.filter (fun a => a.1 != psn.toNat) } →
    exec (.hostAtomicCompletion n psn none) s = .next (settle
      (atomNext (sendNak u n.toNat psn.toNat 3) (Qp'.port q) addr)) ∧
    (bit (qw q.attr 1) 31 = true → ∀ o : Dword, exec (.hostAtomicCompletion n psn (some o)) s = .next (settle
      (atomNext (atomicResponse (touchQp (updQp u n.toNat (fun q =>
        { q with cache := (q.cache ++ [(psn.toNat, o)]).drop (q.cache.length + 1 - 16) })) n.toNat) n.toNat psn.toNat msg o)
        (Qp'.port q) addr))))

/-- Context paging (R260 to R271). -/
def Obligations.ContextRowsRun : Prop :=
  (∀ (s : State) (h : BitVec 25) (c : Ctx), Tbl.get? s.ctxs h.toNat = some c →
    (c.state = 3 → c.waitSlot = false → c.lock = none → exec (.contextDemand h) s = .next (settle
      (updCtx s h.toNat (fun c => { c with ref := true })))) ∧
    (c.state = 1 → c.waitSlot = false → exec (.contextDemand h) s = .next (settle (tryFetch s h.toNat false))) ∧
    (c.state = 4 → exec (.contextDemand h) s = .next (settle (updCtx s h.toNat (fun c => { c with demand := true })))) ∧
    (c.state = 5 → exec (.contextDemand h) s = .next (settle (s.bumpErr blkLEVAIN 0 5))) ∧
    (c.state = 2 → ∀ bs : List Byte, exec (.contextFetchComplete h (.data bs)) s = .next (settle (becomesResident
      (updCtx (s.raiseMax LEVAIN.FETCH_MAX 0 (s.ns - c.started)) h.toNat
        (fun c => { c with state := 3, ref := true, demand := false, dirty := false })) h.toNat))) ∧
    (c.state = 4 → c.destroyDue = true → c.hb = false → ∀ good : Bool,
      exec (.contextWritebackComplete h good) s = .next (settle (freeHandle (evictEnds (updCtx (storeWrite s h.toNat c)
        h.toNat (fun c => { c with state := 1, dirty := false })) h.toNat 0) h.toNat)))) ∧
  (∀ (s : State) (p : Fin 128) (v : Word), FuncAnswers s p.val 0 →
    ((funcOf s p.val 0).hbValid = false → hbEnabled s p.val = true → (funcOf s p.val 0).hbBaseLo.toNat % 4096 = 0 →
      1 ≤ (funcOf s p.val 0).hbPages.toNat → (funcOf s p.val 0).hbPages.toNat ≤ 0x100000 →
      exec (.hbRegister p v) s = .next (settle (setFunc s p.val 0 { funcOf s p.val 0 with hbValid := true }))) ∧
    ((funcOf s p.val 0).hbValid = true → (s.ctxs.filter (fun x => x.2.hb && x.2.port == p.val)) = [] →
      exec (.hbDrain p v) s = .next (settle (setHport s p.val { hportOf s p.val with hbDrain := true })))) ∧
  (∀ (s u : State) (p : Fin 128), (hportOf s p.val).hbDrain = true →
    s.ctxs.any (fun x => x.2.hb && x.2.port == p.val) = false →
    u = setFunc s p.val 0 { funcOf s p.val 0 with hbValid := false } →
    exec (.hbDrainComplete p) s = .next (settle (setHport u p.val { hportOf u p.val with hbDrain := false, hbSlots := [] }))) ∧
  (∀ (s u : State) (h : BitVec 25) (n : Nat) (e : CalEvent) (c : Ctx), Due s blkLEVAIN 1 h.toNat n e → u = s.fireEvent n e →
    Tbl.get? u.ctxs h.toNat = some c → c.parked.length + c.rparked.length ≠ 0 →
    exec (.parkTimeExpiry h) s = .next (settle
      ((dropParked u h.toNat).bumpErr blkLEVAIN 0 1 (c.parked.length + c.rparked.length)))) ∧
  (∀ (s : State) (e : CalEvent), s.pendingEvent 34 blkLEVAIN 2 0 = some e →
    exec .storeChargeTick s = .next (settle (chargeFire (s.fireEvent 34 e)))) ∧
  (∀ (s : State) (t : Nat), s.chargeRetry = some t →
    exec .levainSchedRetry s = .next (settle (scheduleCharge (s.reach t) (max t s.ns))))

/-- The storage front end (R131, R274 to R294): registers, doorbells, the fetch turn, each command of a controller's rings,
backing completions and timers. -/
def Obligations.NvmeRowsRun : Prop :=
  (∀ (s : State) (p : Fin 128) (sel : BitVec 12), FuncAnswers s p.val sel.toNat →
    (∀ v : Word, exec (.ccEnable p sel v) s = .next (settle (ccWrite s p.val sel.toNat (v ||| 1).toNat)) ∧
      exec (.ccDisable p sel v) s = .next (settle (ccWrite s p.val sel.toNat (v.toNat / 2 * 2))) ∧
      (bits v.toNat 15 14 ≠ 0 → exec (.ccShutdown p sel v) s = .next (settle (ccWrite s p.val sel.toNat v.toNat))) ∧
      (bits v.toNat 15 14 = 0 → exec (.ccShutdown p sel v) s = .next (settle (ccWrite s p.val sel.toNat (v.toNat + 2 ^ 14))))) ∧
    (∀ (i y : Nat) (c : NvCtl) (q : NvQ) (v : Word), ctlOf s p.val sel.toNat = some (i, c) → c.sq? y = some q →
      v.toNat < q.size → ringDist q.size q.head q.tail ≤ ringDist q.size q.head v.toNat →
      exec (.nvmeSqTailDoorbell p sel y v) s = .next (settle (demand
        { updSq s i y (fun q => { q with tail := v.toNat }) with
          ctxs := Tbl.upd (updSq s i y (fun q => { q with tail := v.toNat })).ctxs q.handle (fun x => { x with dirty := true }) }
        q.handle).1)) ∧
    (∀ (i y : Nat) (c : NvCtl) (q : NvQ) (v : Word), ctlOf s p.val sel.toNat = some (i, c) → c.cq? y = some q →
      v.toNat < q.size → ringDist q.size q.head v.toNat ≤ ringDist q.size q.head q.tail →
      exec (.nvmeCqHeadDoorbell p sel y v) s = .next (settle (drainCq i y (q.held.length + 1)
        (updCq { s with ctxs := Tbl.upd s.ctxs q.handle (fun x => { x with dirty := true }) } i y
          (fun q => { q with head := v.toNat })))))) ∧
  (∀ (s : State) (i : Fin 1024) (sqes : List (List Dword)) (y : Nat) (c : NvCtl),
    (Tbl.get? s.ctls i.val).bind arbitrate = some (y, c) → exec (.nvmeFetchTurn i sqes) s = .next (settle
      (fetchAll i.val y (if (Tbl.getD c.feats 1 (0 : Word)).toNat % 8 = 7 then sqes
        else sqes.take (2 ^ ((Tbl.getD c.feats 1 (0 : Word)).toNat % 8))) (setCtl s i.val c)))) ∧
  (∀ (s : State) (i : Fin 1024) (sq : Nat) (e : List Dword), sq ≠ 0 →
    exec (.nvmeFlush i sq e) s = .next (settle (oneCommand i.val sq 0x00 e none s)) ∧
    exec (.nvmeWrite i sq e) s = .next (settle (oneCommand i.val sq 0x01 e none s)) ∧
    exec (.nvmeRead i sq e) s = .next (settle (oneCommand i.val sq 0x02 e none s)) ∧
    exec (.nvmeWriteZeroes i sq e) s = .next (settle (oneCommand i.val sq 0x08 e none s)) ∧
    ∀ rs, exec (.nvmeDatasetManagement i sq e rs) s = .next (settle (oneCommand i.val sq 0x09 e rs s))) ∧
  (∀ (s : State) (i : Fin 1024) (e : List Dword),
    exec (.createIoSq i 0 e) s = .next (settle (oneCommand i.val 0 0x01 e none s)) ∧
    exec (.createIoCq i 0 e) s = .next (settle (oneCommand i.val 0 0x05 e none s)) ∧
    exec (.deleteIoSq i 0 e) s = .next (settle (oneCommand i.val 0 0x00 e none s)) ∧
    exec (.deleteIoCq i 0 e) s = .next (settle (oneCommand i.val 0 0x04 e none s)) ∧
    exec (.getLogPage i 0 e) s = .next (settle (oneCommand i.val 0 0x02 e none s)) ∧
    exec (.identify i 0 e) s = .next (settle (oneCommand i.val 0 0x06 e none s)) ∧
    exec (.abort i 0 e) s = .next (settle (oneCommand i.val 0 0x08 e none s)) ∧
    exec (.setFeatures i 0 e) s = .next (settle (oneCommand i.val 0 0x09 e none s)) ∧
    exec (.getFeatures i 0 e) s = .next (settle (oneCommand i.val 0 0x0A e none s)) ∧
    exec (.asynchronousEventRequest i 0 e) s = .next (settle (oneCommand i.val 0 0x0C e none s))) ∧
  (∀ (s : State) (t : Nat) (x : NvCmd), s.nvCmds.find? (fun c => c.token == t) = some x → x.phase = 0 → blocked s x = false →
    ((Tbl.get? s.nss x.ns).map (fun n => n.state) = some 1 → exec (.rangeLockGrant t) s = .next (settle
      (updCmd s t (fun c => { c with phase := 2 })))) ∧
    ((Tbl.get? s.nss x.ns).map (fun n => n.state) ≠ some 1 → exec (.rangeLockGrant t) s = .next (settle (startAtBacking s x)))) ∧
  (∀ (s : State) (t : Nat) (x : NvCmd) (st : BitVec 16), s.nvCmds.find? (fun c => c.token == t) = some x → x.phase = 1 →
    2 ≤ x.pieces → exec (.backingCompletion t .failed st) s = .next (settle (updCmd s t (fun _ =>
      { x with status := if x.status = 0 then 0x06 else x.status, pieces := x.pieces - 1 })))) ∧
  (∀ (s : State) (t n : Nat) (e : CalEvent) (x : NvCmd), Due s blkNVME 1 t n e →
    (s.fireEvent n e).nvCmds.find? (fun c => c.token == t) = some x → x.phase = 1 →
    exec (.bkTimeoutExpiry t) s = .next (settle (nsLost (s.fireEvent n e) x.ns))) ∧
  (∀ (s : State) (k : BitVec 13) (n : Nat) (e : CalEvent), Due s blkNVME 2 k.toNat n e →
    exec (.bkHoldExpiry k) s = .next (settle (bkHoldFire (s.fireEvent n e) k.toNat))) ∧
  (∀ (s : State) (t d r : Nat) (x : NvCmd), s.nvCmds.find? (fun c => c.token == t) = some x → x.timeoutRetry = some r →
    x.timeout = some d → exec (.bkSchedRetry false t) s = .next (settle (bkTimeoutAt (s.reach r) t d))) ∧
  (∀ (s : State) (i : Fin 1024) (n : Nat) (e : CalEvent), Due s blkNVME 3 i.val n e →
    exec (.coalescingTimeExpiry i) s = .next (settle (coalFire (s.fireEvent n e) i.val)))

/-- Cipher engines, keys and MACsec (R303, R306, R310): their own rows. -/
def Obligations.CipherRowsRun : Prop :=
  (∀ (s u : State) (i : Fin 16) (j : Job) (r : ReadEnd), (engineOf s i.val).run = some j →
    s.faulted.contains (State.pk blkCIPHER i.val) = false → u = setEngine s i.val { engineOf s i.val with run := none } →
    (j.pipe.isSome = true → exec (.cipherJobComplete i r) s = .next (settle
      (checkKeyWaits (runEngine (endPacketJob u i.val j) i.val)))) ∧
    (j.pipe = none → exec (.cipherJobComplete i r) s = .next (settle (checkKeyWaits (runEngine
      (endWaiting (endProviderJob u i.val j r).1 blkCIPHER i.val 0x01 (endProviderJob u i.val j r).2) i.val))))) ∧
  (∀ (s u : State) (n : BitVec 20), s.engines.any (fun g => g.2.queue.any (fun j => j.fetching && j.slot == n.toNat)) = true →
    u = { s with engines := Tbl.mapV s.engines (fun _ g =>
      { g with queue := g.queue.map (fun (j : Job) => if j.slot = n.toNat then { j with fetching := false } else j) }) } →
    exec (.slotFetchComplete n true) s = .next (settle (runEngines
      ((cacheSlot (u.fresh 32).2 n.toNat).raiseMax KEYS.FETCH_MAX 0 ((u.fresh 32).1.toNat % 501))))) ∧
  (∀ s : State, exec .drbgRecovery s = .next (settle (runEngines { s with dax := { s.dax with drbgOk := true } })) ∧
    (s.engines = [] → exec .drbgHealthFailure s =
      .next (settle ({ s with dax := { s.dax with drbgOk := false } }.istat blkKEYS 0 2))))

/-- The Kwegan instructions of a running hart (R322 to R328): an encoding that its mode may use has its effect, in a hart that
waits in no WGET. -/
def Obligations.KweganRowsRun : Prop :=
  (∀ (s u : State) (k : KwIn), u = kwBefore k s → (hartOf u k.hart.val).running = true → k.badEnc = false →
    exec (.crcc k) s = .next (settle (hartResult u k.hart.val k.rd.val (crccValue k.rs1 k.rs2))) ∧
    exec (.tplz k) s = .next (settle (hartResult u k.hart.val k.rd.val (tplzValue k.rs1 k.rs2))) ∧
    exec (.krtimeRead k) s = .next (settle (krtimeGo k u)) ∧
    ((k.mode.val = 0 ∨ bit (hartOf u k.hart.val).kctrl.toNat (k.mode.val - 1) = true) →
      (k.rs1.toNat % 32 = 0 → k.pmpNo = false →
        (∀ t : State, giveItem (chargeOut (endItem u k.hart.val) k.hart.val) k.hart.val k.rs1.toNat k.rd.val = (t, true) →
          exec (.wget k) s = .next (settle t)) ∧
        (∀ (t : State) (c : Nat), submitPut u k.hart.val (u.memGetQ k.rs1.toNat 4) = (t, c) →
          exec (.wput k) s = .next (settle (hartResult t k.hart.val k.rd.val (dw c))))) ∧
      exec (.wdone k) s = .next (settle
        (nextTest (checkDrained (endItem u k.hart.val) (tileOf k.hart.val)))) ∧
      (∀ (t : State) (c : Nat), lockCtx u k.hart.val (k.rs1.toNat % 2 ^ 25) = (t, c) →
        exec (.clock k) s = .next (settle (hartResult t k.hart.val k.rd.val (dw c)))) ∧
      ((locksOf u k.hart.val).contains (k.rs1.toNat % 2 ^ 25) = true →
        exec (.cunlock k) s = .next (settle (releaseLock u (k.rs1.toNat % 2 ^ 25)))) ∧
      (∀ (t : State) (c : Nat), allocCells u k.rs1.toNat = some (c, t) →
        exec (.calloc k) s = .next (settle (hartResult t k.hart.val k.rd.val (dw c)))) ∧
      ((Tbl.get? u.cells k.rs1.toNat).isSome = true →
        exec (.cfree k) s = .next (settle (freeCells u k.rs1.toNat))) ∧
      (∀ (t : State) (c : Nat), u.calSchedule (32 + tileOf k.hart.val)
          ⟨k.rs1.toNat, blkPROOFER, 1, k.rs2.toNat % 2 ^ 40⟩ = (t, c) →
        exec (.tset k) s = .next (settle (hartResult t k.hart.val k.rd.val (dw c)))) ∧
      ((u.pendingEvent (32 + tileOf k.hart.val) blkPROOFER 1 (k.rs1.toNat % 2 ^ 40)).isSome = true →
        exec (.tcancel k) s = .next (settle (hartResult (u.unschedule (32 + tileOf k.hart.val) blkPROOFER 1
          (k.rs1.toNat % 2 ^ 40)) k.hart.val k.rd.val 0))))) ∧
  (∀ (s : State) (h : Fin 1024) (a : Nat) (rd : Nat) (until_ : Nat), (hartOf s h.val).wait = some (a, rd, until_) →
    exec (.wgetWaitExpiry h) s = .next (settle (hartResult (setHart (s.reach until_) h.val
      { hartOf (s.reach until_) h.val with wait := none, outSince := (s.reach until_).ns }) h.val rd 0))) ∧
  (∀ (s : State) (h : BitVec 25) (c : Ctx) (by_ t : Nat), Tbl.get? s.ctxs h.toNat = some c → c.lockOver = false →
    c.lock = some (by_, t) → exec (.lockLimitExpiry h) s = .next (settle
      ((updCtx ((s.reach (t + s.rd PROOFER.LOCK_LIMIT * 1000)).bumpErr blkPROOFER 0 2) h.toNat
        (fun c => { c with lockOver := true })).istat blkPROOFER 0 2)))

/-- Tiles and clusters (R321, R339, R340): release, self tests, canaries. -/
def Obligations.CoreRowsRun : Prop :=
  (∀ s : State, s.boot.stage = 3 → s.flt.halt = false →
    exec .hartRelease s = .next (settle ((List.range 1024).foldl (fun (u : State) (h : Nat) =>
      if u.faulted.contains (State.pk blkTILE (tileOf h)) then u else startHart u h (stEntry s.boot.manifest 3) 0)
      (enterService s)))) ∧
  (∀ (s : State) (t : Fin 32), s.stateOf blkTILE t.val = 3 → exec (.drainLimitExpiry t) s = .next (settle
    (startTest (redeliverAll (s.reach (Tbl.getD s.drainAt t.val s.ns)) (tileHarts t.val)) t.val))) ∧
  (∀ (s u : State) (t : Fin 32) (r : BitVec 4) (w : BitVec 8), s.stateOf blkTILE t.val = 4 → 1 ≤ r.toNat → r.toNat ≤ 3 →
    u = (s.wr TILE.TEST_RESULT t.val (r.toNat + w.toNat * 256)).bumpStat TILE.TESTS t.val →
    (r.toNat = 1 → exec (.selftestComplete t r w) s = .next (settle (tileServes u t.val))) ∧
    (r.toNat ≠ 1 → exec (.selftestComplete t r w) s = .next (settle (nextTest (raisePage
      (((u.setState blkTILE t.val 5).bumpErr blkTILE t.val 0).istat blkTILE t.val 2) blkTILE t.val 2))))) ∧
  (∀ (s u : State) (t : Fin 32), bit (s.rd TILE.TILE_CTRL t.val) 8 = true →
    u = ({ s with canNext := Tbl.put s.canNext t.val ((Tbl.getD s.canNext t.val 0 + 1) % 4) } : State).bumpStat
      TILE.CANARY_RUN t.val →
    (canarySig u t.val (canaryOf s t.val (Tbl.getD s.canNext t.val 0))).toNat =
      qb (canaryOf s t.val (Tbl.getD s.canNext t.val 0)) 24 63 32 →
    exec (.canaryRun t) s = .next (settle
      { u with canMiss := Tbl.del u.canMiss (t.val * 4 + Tbl.getD s.canNext t.val 0) }))

/-- Memory controllers (R349, R354, R355): a request to their memory, refresh of a rank under swap, patrol scrub. -/
def Obligations.MemoryRowsRun : Prop :=
  (∀ (s u : State) (p : Fin 48) (a : Dword) (len : Nat) (hint : BitVec 2) (lv : BitVec 10) (ddr : Bool) (i : Nat)
    (r : Nat × Nat), u = portLevel s p.val lv.toNat → windowCtx u p.val a.toNat = none →
    ¬ (0x100000000 ≤ a.toNat ∧ a.toNat + len ≤ 0x10A000000) → hubSram u p.val a.toNat len = false →
    controllerOf u a.toNat = some (ddr, i) → spaceRow u (if ddr then 0x81 else 0x80) = some r → a.toNat + len ≤ r.2 →
    touchesSecure u a.toNat len = false → 3 ≤ u.stateOf (ctlBlk ddr) i →
    exec (.memoryRequest p a len none hint lv 0) s = .next (settle (serveBytes u p.val a.toNat len none)) ∧
    exec (.memoryRequest p a len none hint lv 1) s =
      .next (settle (serveBytes (correctedError u ddr i) p.val a.toNat len none)) ∧
    ∀ bs : List Byte, bs.length = len →
      exec (.memoryRequest p a len (some bs) hint lv 0) s = .next (settle (serveBytes u p.val a.toNat len (some bs)))) ∧
  (∀ (s u : State) (ddr : Bool) (i : Fin 8) (rank : BitVec 5) (d : Nat), (memCtlOf s ddr i.val).swap = some d →
    s.stateOf (ctlBlk ddr) i.val = 4 → (memCtlOf s ddr i.val).ranks.contains rank.toNat = true →
    u = setMemCtl (s.reach d) ddr i.val
      { memCtlOf s ddr i.val with ranks := setDel (memCtlOf s ddr i.val).ranks rank.toNat } →
    ((setDel (memCtlOf s ddr i.val).ranks rank.toNat).isEmpty = true →
      exec (.swapRankRefresh ddr i rank) s = .next (settle (swapDone u ddr i.val))) ∧
    ((setDel (memCtlOf s ddr i.val).ranks rank.toNat).isEmpty = false →
      exec (.swapRankRefresh ddr i rank) s = .next (settle u))) ∧
  (∀ (s : State) (i : Fin 8) (a : Dword), 3 ≤ s.stateOf (ctlBlk true) i.val → s.rd DDRC.SCRUB_PERIOD i.val ≠ 0 →
    exec (.patrolScrubDeadline true i a 0) s = .next (settle s) ∧
    exec (.patrolScrubDeadline true i a 1) s = .next (settle (correctedError s true i.val)) ∧
    exec (.patrolScrubDeadline true i a 2) s = .next (settle (badLine s true i.val a.toNat false true)) ∧
    exec (.patrolScrubDeadline true i a 3) s = .next (settle (badLine s true i.val a.toNat true true))) ∧
  (∀ (s : State) (i : Fin 8) (a : Dword), 3 ≤ s.stateOf (ctlBlk false) i.val → s.rd HBMC.SCRUB_PERIOD i.val ≠ 0 →
    exec (.patrolScrubDeadline false i a 1) s = .next (settle (correctedError s false i.val)))

/-- Tenants and meters (R365 to R377). -/
def Obligations.MeterRowsRun : Prop :=
  (∀ (s : State) (t : Fin 32), exec (.combiningFlush t) s = .next (settle (flushComb s t.val))) ∧
  (∀ (s : State) (t : Fin 32) (e : CalEvent), s.pendingEvent (32 + t.val) blkMETER 1 0 = some e →
    exec (.policerRefill t) s = .next (settle (refillFire (s.fireEvent (32 + t.val) e) t.val e.deadline false))) ∧
  (∀ (s : State) (t : Fin 32) (d : Nat), Tbl.get? s.met.refillRetry t.val = some d →
    exec (.policerRefillRetry t) s = .next (settle (scheduleRefill (s.reach d) t.val (s.reach d).ns))) ∧
  (∀ (s : State) (d : SealDue) (ds : List SealDue), s.met.due = d :: ds →
    exec .sealGraceExpiry s = .next (settle (sealMinute d s))) ∧
  (∀ (s : State) (r t : BitVec 384), s.dax.debug = false →
    exec (.sealSigned r t) s = .next (settle (finishSeal (some (r, t)) s))) ∧
  (∀ (s : State) (m : Staged), s.met.staged.find? (fun m => !m.signed) = some m →
    exec .signTimeout s = .next (settle (finishSeal none
      (((s.reach (qw m.sealRec 5 + 50000000)).bumpErr blkSLICE 0 1).istat blkSLICE 0 3)))) ∧
  (∀ (s : State) (who : Requester) (v : Word), WriteReaches s who blkSLICE 0 →
    (v.toNat + 2 ^ 32 - s.rd SLICE.RING_CONS) % 2 ^ 32 ≤ (s.rd SLICE.RING_PROD + 2 ^ 32 - s.rd SLICE.RING_CONS) % 2 ^ 32 →
    exec (.ringConsWrite who v) s = .next (settle (copyAll (s.wr SLICE.RING_CONS 0 v.toNat))))

/-- The twin pair (R379 to R398): flits, records and messages received, heartbeats and time sent, losses, and the ends of a
copy and of a drain. -/
def Obligations.TwinRowsRun : Prop :=
  (∀ (s u : State) (l : Fin 16) (rk : Bool) (num : BitVec 4) (cr : List Nat), pairState s ≠ 0 →
    ((linkOf s l.val).stat = 2 ∨ (linkOf s l.val).stat = 4) → num.toNat = l.val → b2n rk ≠ rank s →
    u = tryJoin (setTwin (setLink s l.val { ({} : Link) with
      stat := 3
      heard := true
      credits := (List.range 8).map (fun c => if sequenced c then cr.getD c 0 else 0) }) (fun t => { t with lastHeard := s.bref })) →
    exec (.identRx l (w32 (s.rd TWIN.PAIR_ID)) rk num cr) s = .next (settle (pumpLink l.val
      ((linkOf (sendHeld (u.twin.unacked.length + 1) u) l.val).queued.length + 1) (sendHeld (u.twin.unacked.length + 1) u)))) ∧
  (∀ (s : State) (l : Fin 16), (linkOf s l.val).stat = 4 → exec (.identRetry l) s = .next (settle (sendIdent s l.val))) ∧
  (∀ (s u : State) (f : Flit), (linkOf s f.link.val).stat ≠ 0 → flitGood f = true → u = takeHeader s f →
    sequenced f.channel.toNat = true → (linkOf u f.link.val).stat = 3 → f.seq = (linkOf u f.link.val).rxSeq →
    exec (.linkFlitRx f) s = .next (settle (sendLinkFlit ((setLink u f.link.val { linkOf u f.link.val with
      rxSeq := (linkOf u f.link.val).rxSeq + 1
      nakSent := false }).bumpStat TWIN.FLITS_RX f.link.val) f.link.val false f.channel.toNat 1))) ∧
  (∀ (s u : State) (f : Flit), acceptFlit s f = (u, true) → (pairState u = 2 ∨ pairState u = 3) →
    exec (.bulkRecordRx f) s = .next (settle ((recordsOf 30 f.payload).foldl (applyRecord true) u)) ∧
    ∀ v : State, v = applyTurn ((recordsOf 30 f.payload).foldl takeRecord u).twin.early.length
        ((recordsOf 30 f.payload).foldl takeRecord u) → v.twin.mseqRx ≠ u.twin.mseqRx →
      exec (.mirrorRecordRx f) s = .next (settle (sendMack v))) ∧
  (∀ (s : State) (m : BitVec 40), exec (.mackRx m) s = .next (settle (takeMack s m.toNat))) ∧
  (∀ s : State, pairState s = 2 → exec .bulkDoneRx s = .next (settle (bulkMet (setTwin s (fun t => { t with bulkPeer := true }))))) ∧
  (∀ s : State, pairState s = 3 → exec .leaveRx s = .next (settle (setPair (dropShadow (releaseAll s)) 1))) ∧
  (∀ (s u v : State) (port : BitVec 7) (p : Nat) (hs : List Nat), localPort s port.toNat = some p → pairState s = 3 →
    hs = s.twin.handed.filter (fun h => qb (shadowOf s h) 0 27 21 == port.toNat) → u = hs.foldl (adoptOne false) s →
    v = setTwin u (fun t => { t with handed := t.handed.filter (fun h => !hs.contains h) }) →
    exec (.handbackRx port) s = .next (settle (pairChange
      (resumeTaken v ((v.ctxs.map Prod.fst).filter (fun h => !(s.ctxs.map Prod.fst).contains h))) p 0x2))) ∧
  (∀ s : State, exec .takeoverDoneRx s = .next (settle s)) ∧
  (∀ (s u : State) (l : Fin 16) (t1 t2 t3 dt : Nat), (linkOf (s.pass dt) l.val).stat = 3 → u = hear (s.pass dt) l.val →
    (rank u = 0 → exec (.timeFlitRx l t1 t2 t3 0 dt) s = .next (settle (useExchange
      (sendTime u l.val t1 t2 t3 u.now) l.val
      (exchangeOffset u l.val t1 t2 t3 u.now)))) ∧
    (rank u ≠ 0 → exec (.timeFlitRx l t1 t2 t3 0 dt) s = .next (settle (sendTime u l.val t1 u.now u.now 0)))) ∧
  (∀ (s u : State) (l : Fin 16) (q0 q1 q2 : Dword) (dt : Nat), (linkOf (s.pass dt) l.val).stat = 3 →
    u = takeMack ((setTwin (hear (s.pass dt) l.val) (fun t => { t with peerQ0 := q0 })).wr TWIN.PEER_STATE 0
      (bits q0.toNat 12 0)) (bits q2.toNat 39 0) →
    ((bits q0.toNat 7 4 = 2 ∨ bits q0.toNat 7 4 = 3) ∧ bits q0.toNat 11 8 ≠ 3 →
      exec (.heartbeatRx l q0 q1 q2 dt) s = .next (settle (tryJoin (reselect (gainSource u .twin))))) ∧
    (¬ ((bits q0.toNat 7 4 = 2 ∨ bits q0.toNat 7 4 = 3) ∧ bits q0.toNat 11 8 ≠ 3) →
      exec (.heartbeatRx l q0 q1 q2 dt) s = .next (settle (tryJoin (loseSource u .twin))))) ∧
  (∀ (s u : State) (l : Fin 16) (code : BitVec 8) (sl : List (List Dword)), (linkOf s l.val).stat ≠ 0 → u = hear s l.val →
    pairState u = 3 → u.twin.sentTake = false → exec (.takeoverFlitRx l code sl) s = .next (settle (takeOver sl u))) ∧
  (∀ s : State, exec .heartbeatTx s = .next (settle ((linksUp s).foldl (fun (u : State) (l : Nat) =>
      sendFlit u l 4 [dw (beatWord u), u.stamp, dw u.twin.mseqRx]) s)) ∧
    (rank s = 0 → exec .timeExchangeStart s = .next (settle ((linksUp s).foldl (fun (u : State) (l : Nat) =>
      sendTime u l u.now 0 0 0) s))) ∧
    exec .mtrSyncTx s = .next (settle (mtrSync s))) ∧
  (∀ (s u : State) (sl : List (List Dword)), pairState s = 3 ∨ s.twin.links.any (fun k => k.2.heard) = true →
    u = setTwin (reachBref s (s.twin.lastHeard + s.rd TWIN.HB_LOSS))
      (fun t => { t with links := Tbl.mapV t.links (fun _ k => { k with heard := false }) }) →
    (pairState u ≠ 3 → exec (.hbLossExpiry sl) s = .next (settle u)) ∧
    (pairState u = 3 → u.twin.liveStopped = true → exec (.hbLossExpiry sl) s = .next (settle (takeOver sl u))) ∧
    (pairState u = 3 → u.twin.liveStopped = false → rank u ≠ 0 →
      exec (.hbLossExpiry sl) s = .next (settle (fence (u.bumpErr blkTWIN 0 5))))) ∧
  (∀ s : State, s.twin.liveStopped = false → exec .liveLossExpiry s = .next (settle
    ((setTwin (reachBref s (s.twin.liveLast + s.rd TWIN.LIVE_LOSS)) (fun t => { t with liveStopped := true })).istat
      blkMGMT 0 2))) ∧
  (∀ (s : State) (dt : Nat), exec (.twinLiveInEdge dt) s = .next (settle (setTwin (s.pass dt)
    (fun t => { t with liveIn := !t.liveIn, liveLast := s.bref + dt, liveStopped := false })))) ∧
  (∀ s : State, s.pwr.pwrgood = true → s.pwr.held = false → exec .twinLiveOutToggle s = .next (settle
    ((setTwin s (fun t => { t with liveOut := !t.liveOut })).emit (.pin 2 0 (b2n (!s.twin.liveOut)))))) ∧
  (∀ s : State, pairState s = 2 → s.twin.bulkMine = false →
    s.twin.links.any (fun k => k.2.queued.any (fun q => q.1 == 5)) = false →
    exec .bulkCopyComplete s = .next (settle (bulkMet (setTwin (sendMessage s 1 0) (fun t => { t with bulkMine := true }))))) ∧
  (∀ (s u : State) (port : BitVec 7) (r : Running), waitingCmd s blkTWIN 0 0x02 = some r → r.arg0.toNat % 128 = port.toNat →
    pairState s = 3 → quiet s (takenOf s port.toNat) = true →
    u = pairChange (sendMessage (bulkObjects s (· == port.toNat) (fun h => (takenOf s port.toNat).contains h)) 3 port.toNat)
      port.toNat 0x2 →
    exec (.handbackDrained port) s = .next (settle (endWaiting (setTwin (forget u (takenOf s port.toNat))
      (fun t => { t with handing := setDel t.handing port.toNat })) blkTWIN 0 0x02 0)))

/-- Power, boot and trust (R402 to R420, R449): the rows of the supply, the loader and its waits, the fuses and tamper
sensors, SPDM and the boundary scan. -/
def Obligations.BootRowsRun : Prop :=
  (∀ (s u : State) (b : BitVec 3) (tm : Bool), s.pwr.pwrgood = false → s.flt.haltSealed = false → s.pwr.cycled = false →
    u = { s with pwr := { s.pwr with pwrgood := true, cycled := false, straps := BitVec.ofNat 4 (b.toNat + 8 * b2n tm) } } →
    (railsLow u = false → exec (.pwrgoodRise b tm) s = .next (settle (powerStart u))) ∧
    (railsLow u = true → exec (.pwrgoodRise b tm) s = .next (settle
      (({ u with pwr := { u.pwr with held := true, clearAt := none } } : State).emit (.pin 4 0 0))))) ∧
  (∀ (s : State) (t : Nat), s.pwr.clearAt = some t → s.pwr.held = true →
    exec .pwrgoodHoldRelease s = .next (settle (powerStart (s.reach (t + 1000000))))) ∧
  (∀ s : State, s.pwr.pwrgood = true → ∃ u, exec .pwrgoodFall s = .next (settle u) ∧ u.pwr.pwrgood = false ∧
    u.flt.started = false ∧ u.flt.pulseEnd = none) ∧
  (∀ s : State, ∃ u, exec .powerCycle s = .next (settle u) ∧ u.mem = [] ∧ u.regs = [] ∧ u.ctxs = [] ∧ u.tables = [] ∧
    u.pending = s.pending ∧ u.boot.fuseSvn = s.boot.fuseSvn ∧ u.boot.slots = s.boot.slots ∧ u.pwr.pwrgood = false) ∧
  (∀ s : State, powered s = true → exec (.fuseRecheck false) s = .next (settle (raiseFault (tamperStat s 3) 0x004)) ∧
    exec (.fuseRecheck true) s = .next (settle s) ∧
    ∀ c : Fin 3, exec (.tamperDetect c) s = .next (settle (raiseFault (tamperStat (zeroize s) c.val) (0x001 + c.val)))) ∧
  (∀ (s : State) (src st : BitVec 3) (b : Bool) (i : Nat) (bs : List Byte), booting s = true → src.toNat = s.boot.source →
    s.boot.pushOpen = false → src.toNat ≠ 3 → src.toNat ≠ 4 → (src.toNat ≤ 2 → b = (s.boot.slot % 2 == 1)) →
    (st.toNat = 0 → exec (.loaderBlockRx src b st i bs) s = .next (settle (takeManifest bs s))) ∧
    (st.toNat ≠ 0 → exec (.loaderBlockRx src b st i bs) s = .next (settle (takeBlock st.toNat i bs s)))) ∧
  (∀ s u : State, s.boot.pushOpen = true → s.flt.halt = false → s.flt.started = true →
    u = s.reach (s.boot.srcAt + 60000000000) → exec .recovWaitExpiry s = .next (settle (bootFail
      { u with boot := { u.boot with pushOpen := false } } (if 1 ≤ u.boot.stage then 0x30 else 0x01)))) ∧
  (∀ s : State, booting s = true → s.boot.source = 5 → s.boot.manifest = [] →
    exec .twinSourceWaitExpiry s = .next (settle (bootFail (s.reach (s.boot.srcAt + 5000000000)) 0x01))) ∧
  (∀ (s : State) (p : Fin 128), doeUp s p.val = true →
    exec (.getVersion p) s = .next (settle
      (({ s with dax := { s.dax with spdm := Tbl.put s.dax.spdm p.val 1 } } : State).emit (.spdm p.val 0x04 [0, 1, 0x00, 0x12]))) ∧
    (1 ≤ spdmAt s p.val → exec (.getCapabilities p) s = .next (settle
      (({ s with dax := { s.dax with spdm := Tbl.put s.dax.spdm p.val 2 } } : State).emit (.spdm p.val 0x61 (leBytes 4 0x16))))) ∧
    (2 ≤ spdmAt s p.val → exec (.negotiateAlgorithms p true) s = .next (settle
      (({ s with dax := { s.dax with spdm := Tbl.put s.dax.spdm p.val 3 } } : State).emit
        (.spdm p.val 0x63 (leBytes 4 0x80 ++ leBytes 4 0x02))))) ∧
    (∀ u : State, u = { s with dax := { s.dax with spdm := Tbl.put s.dax.spdm p.val (spdmAt s p.val) } } →
      3 ≤ spdmAt s p.val →
      exec (.getDigests p) s = .next (settle (u.emit (.spdm p.val 0x01 certDigest))) ∧
      (∀ off len : BitVec 16, exec (.getCertificate p 0 off len) s = .next (settle
        (if Config.certChain.length ≤ off.toNat then spdmError u p.val 0x01
          else u.emit (.spdm p.val 0x02 (leBytes 2 (cut Config.certChain off.toNat len.toNat).length ++
            leBytes 2 (Config.certChain.length - off.toNat - (cut Config.certChain off.toNat len.toNat).length) ++
            cut Config.certChain off.toNat len.toNat))))) ∧
      (∀ nonce : List Byte, nonce.length = 32 → u.dax.attested = true → exec (.challenge p 0 nonce) s = .next (settle
        (((u.fresh 256).2.fresh 768).2.emit (.spdm p.val 0x03 (certDigest ++ leBytes 32 (u.fresh 256).1.toNat ++
          leBytes 96 ((u.fresh 256).2.fresh 768).1.toNat))))) ∧
      (∀ i : BitVec 8, 1 ≤ i.toNat → i.toNat ≤ 7 → exec (.getMeasurements p i []) s = .next (settle
        (u.emit (.spdm p.val 0x60 (measureBlock u i.toNat))))))) ∧
  (∀ s : State, exec .bypass s = .next (settle (s.emit (.jtag 1))) ∧ exec .idcode s = .next (settle (s.emit (.jtag 2))) ∧
    exec .samplePreload s = .next (settle (s.emit (.jtag 3))) ∧ exec .extest s = .next (settle (s.emit (.jtag 4))) ∧
    exec .extestPulse s = .next (settle (s.emit (.jtag 5))) ∧ exec .extestTrain s = .next (settle (s.emit (.jtag 6))))

/-- Faults and recovery (R427 to R436, R442). -/
def Obligations.FaultRowsRun : Prop :=
  (∀ (s : State) (fsn : BitVec 12) (cause : Word) (info : BitVec 16), exec (.faultRaise fsn cause info) s =
    .next (settle (withResets (fun s => raiseFault (sourceCounts s fsn.toNat) fsn.toNat cause info) s))) ∧
  (∀ (s : State) (pg : PageRef), pg.inst.toNat < pageCount pg.blk.toNat → pg.blk.toNat ≠ blkOCTET →
    (unitOf s (State.pk pg.blk.toNat pg.inst.toNat)).state = 1 → (unitOf s (State.pk pg.blk.toNat pg.inst.toNat)).waitQ = false →
    ((unitOf s (State.pk pg.blk.toNat pg.inst.toNat)).direct = true → exec (.unitResetComplete pg) s = .next (settle
      (inService (clearDegraded (unitEffects s (State.pk pg.blk.toNat pg.inst.toNat)) (State.pk pg.blk.toNat pg.inst.toNat))
        (State.pk pg.blk.toNat pg.inst.toNat)))) ∧
    ((unitOf s (State.pk pg.blk.toNat pg.inst.toNat)).direct = false → exec (.unitResetComplete pg) s = .next (settle
      (toQuiet (clearDegraded (unitEffects s (State.pk pg.blk.toNat pg.inst.toNat)) (State.pk pg.blk.toNat pg.inst.toNat))
        (State.pk pg.blk.toNat pg.inst.toNat))))) ∧
  (∀ (s : State) (pg : PageRef) (d : Nat), pg.inst.toNat < pageCount pg.blk.toNat →
    (unitOf s (State.pk pg.blk.toNat pg.inst.toNat)).quiet = some d →
    (openRec (s.reach d) (State.pk pg.blk.toNat pg.inst.toNat)).bind (fun r => r.after) = none →
    exec (.quietExpiry pg) s = .next (settle (withResets (fun s => wakeQuiet
      (inService (closeRec (s.reach d) (State.pk pg.blk.toNat pg.inst.toNat)) (State.pk pg.blk.toNat pg.inst.toNat))) s))) ∧
  (∀ s : State, s.flt.haltSealed = true → exec .collectorDisagreement s = .next (settle (escWrite s 1)) ∧
    exec .collectorWatchdogExpiry s = .next (settle (escWrite s 2))) ∧
  (∀ s : State, s.flt.haltSealed = false → bit (s.rd FAULT.ESC_STAT) 0 = true →
    exec .collectorDisagreement s = .next (settle (haltWith (ownRec (sendTakeover (driveFault s true) 0xFD) 0x006 5 1) 0xFD true)) ∧
    exec .collectorWatchdogExpiry s =
      .next (settle (haltWith (ownRec (sendTakeover (driveFault s true) 0xFD) 0x006 5 1) 0xFD true))) ∧
  (∀ s : State, bit (s.rd FAULT.ESC_STAT) 0 = true → exec .recentExpiry s = .next (settle
    ((s.reach (s.flt.escAt + 1000000000)).wr FAULT.ESC_STAT 0 (s.rd FAULT.ESC_STAT - 1)))) ∧
  (∀ (s : State) (who : Requester), WriteReaches s who blkFAULT 0 →
    (∀ v : Word, s.flt.pulseEnd = none → exec (.pinCtrlWrite who v) s = .next (settle
      (takeMode (s.wr FAULT.PIN_CTRL 0 (v.toNat % 4))))) ∧
    (∀ v : Word, s.flt.pulseEnd.isSome = true → exec (.pinCtrlWrite who v) s = .next (settle
      (s.wr FAULT.PIN_CTRL 0 (v.toNat % 4)))) ∧
    (∀ v : Word, bit v.toNat 0 = true → exec (.pinClrWrite who v) s = .next (settle
      { s with flt := { s.flt with pinHeld := false } })) ∧
    (∀ v : Word, (v.toNat + 2 ^ 32 - s.rd FAULT.LOG_CONS) % 2 ^ 32 ≤
        (s.rd FAULT.LOG_PROD + 2 ^ 32 - s.rd FAULT.LOG_CONS) % 2 ^ 32 →
      exec (.logConsWrite who v) s = .next (settle (s.wr FAULT.LOG_CONS 0 v.toNat))) ∧
    (∀ v : Word, testMode s = true → bit v.toNat 31 = true → fsnValid (v.toNat % 4096) = true →
      exec (.injCtrlArm who v) s = .next (settle (withResets (fun s => raiseFault (s.wr FAULT.INJ_CTRL 0 (v.toNat % 4096))
        (v.toNat % 4096) (w32 (s.rd FAULT.INJ_INFO / 65536)) (BitVec.ofNat 16 (s.rd FAULT.INJ_INFO)) true) s)))) ∧
  (∀ (s : State) (t : Nat), s.flt.pulseEnd = some t → exec .faultNPulseEnd s = .next (settle
    (takeMode { s.reach t with flt := { (s.reach t).flt with pulseEnd := none } })))

/-- Supplies, temperatures and the management interface's pins (R437 to R440, R456, R465). -/
def Obligations.SupplyRowsRun : Prop :=
  (∀ (s u : State) (ch : Fin 32) (mv : BitVec 16), u = railRead s ch.val mv.toNat → u.pwr.pwrgood = true →
    u.pwr.held = false →
    (railLow u ch.val = true → railLow s ch.val = false → (u.bumpErr blkPWR 0 0).stateOf blkPWR 0 ≠ 2 →
      ∀ v : State, v = (((u.bumpErr blkPWR 0 0).setState blkPWR 0 2).istat blkPWR 0 0).bumpStat PWR.BO_COUNT 0 →
      exec (.railBelowWarning ch mv) s = .next (settle (withResets (fun _ =>
        raiseFault { v with pwr := { v.pwr with holdSince := v.ns, holdEnd := none } } 0x00B) s))) ∧
    (railsLow u = false → u.stateOf blkPWR 0 = 2 → exec (.railAboveWarning ch mv) s = .next (settle
      { u with pwr := { u.pwr with holdEnd := some (u.pwr.holdEnd.getD (u.ns + 1000000)) } })) ∧
    exec (.railResetLevel ch mv) s = .next (settle (raiseFault u 0x007))) ∧
  (∀ (s u : State) (t : Nat), s.pwr.holdEnd = some t →
    u = ((s.reach t).setState blkPWR 0 1).wr PWR.BO_LAST 0 (((s.reach t).ns - (s.reach t).pwr.holdSince) / 1000) →
    exec .holdEndExpiry s = .next (settle
      (dispatchWaiting (({ u with pwr := { u.pwr with holdEnd := none } } : State).istat blkPWR 0 1)))) ∧
  (∀ (s : State) (temps : List (Option (BitVec 16))), exec (.thermalSample temps) s =
    .next (settle (withResets (thermalSample temps) s))) ∧
  (∀ (s : State) (n : Fin 64), exec (.thermalTrip n) s = .next (settle (raiseFault
    (({ s with pwr := { s.pwr with thermTrip := true } } : State).emit (.pin 5 n.val 1)) 0x008))) ∧
  (∀ (s : State) (lv : BitVec 8), s.rd MGMT.GPIO_IN ≠ lv.toNat → exec (.gpioInputChange lv) s = .next (settle
    ((s.wr MGMT.GPIO_IN 0 lv.toNat).istat blkMGMT 0 0))) ∧
  (∀ (s : State) (a v : Word), exec (.mgmtPrivateWrite a v true) s = .next (settle
    (((s.bumpErr blkMGMT 0 2).istat blkMGMT 0 1).emit (.pin 8 0 1))) ∧
    exec (.mgmtPrivateRead a true) s = .next (settle (((s.bumpErr blkMGMT 0 2).istat blkMGMT 0 1).emit (.pin 8 0 1))))

/-! ## Page commands -/

/-- Rack time, calendar and attachment commands run (R30, R45, R73, R74, R80, R469): on a page that takes and serves it, each
has its own effect on the arguments and data written, and ends with its result or waits for its own event. -/
def Obligations.TimeCommandsRun : Prop :=
  ∀ (c : CmdIn) (s : State),
    CommandRuns (.armSeals c) blkRTIME 0x02 cmdArmSeals c s ∧
    CommandRuns (.laneCal c) blkRTIME 0x01 cmdLaneCal c s ∧
    CommandRuns (.schedule c) blkCAL 0x01 cmdSchedule c s ∧
    CommandRuns (.cancel c) blkCAL 0x02 cmdCancel c s ∧
    CommandRuns (.query c) blkCAL 0x03 cmdQuery c s ∧
    CommandRuns (.up c) blkOCTET 0x01 cmdUp c s ∧
    CommandRuns (.down c) blkOCTET 0x02 cmdDown c s ∧
    CommandRuns (.recal c) blkOCTET 0x03 cmdRecal c s ∧
    CommandRuns (.reattachAccept c) blkOCTET 0x04 (cmdReattach true) c s ∧
    CommandRuns (.reattachRefuse c) blkOCTET 0x05 (cmdReattach false) c s

/-- Host port and window commands run (R92 to R94, R101, R105): on a page that takes and serves it, each has its own effect
on the arguments and data written, and ends with its result or waits for its own event. -/
def Obligations.HostCommandsRun : Prop :=
  ∀ (c : CmdIn) (s : State),
    CommandRuns (.vfAlloc c) blkHPORT 0x01 cmdVfAlloc c s ∧
    CommandRuns (.msixAlloc c) blkHPORT 0x02 cmdMsixAlloc c s ∧
    CommandRuns (.funcReset c) blkHPORT 0x03 cmdFuncReset c s ∧
    CommandRuns (.winWrite c) blkWINDOW 0x01 cmdWinWrite c s ∧
    CommandRuns (.winRead c) blkWINDOW 0x02 cmdWinRead c s ∧
    CommandRuns (.windowCommit c) blkWINDOW 0x03 cmdWindowCommit c s

/-- Queue, event ring and DMA channel commands run (R121 to R126, R133, R142): on a page that takes and serves it, each has
its own effect on the arguments and data written, and ends with its result or waits for its own event. -/
def Obligations.QueueCommandsRun : Prop :=
  ∀ (c : CmdIn) (s : State),
    CommandRuns (.qCreate c) blkQMGR 0x01 cmdQCreate c s ∧
    CommandRuns (.qDestroy c) blkQMGR 0x02 cmdQDestroy c s ∧
    CommandRuns (.qStop c) blkQMGR 0x03 cmdQStop c s ∧
    CommandRuns (.qStart c) blkQMGR 0x04 cmdQStart c s ∧
    CommandRuns (.qResume c) blkQMGR 0x05 cmdQResume c s ∧
    CommandRuns (.qQuery c) blkQMGR 0x06 cmdQQuery c s ∧
    CommandRuns (.erCreate c) blkQMGR 0x07 cmdErCreate c s ∧
    CommandRuns (.erDestroy c) blkQMGR 0x08 cmdErDestroy c s ∧
    CommandRuns (.setup c) blkDMA 0x01 cmdDmaSetup c s ∧
    CommandRuns (.start c) blkDMA 0x02 cmdDmaStart c s ∧
    CommandRuns (.stop c) blkDMA 0x03 cmdDmaStop c s ∧
    CommandRuns (.resume c) blkDMA 0x04 cmdDmaResume c s ∧
    CommandRuns (.release c) blkDMA 0x05 cmdDmaRelease c s

/-- Parser, reassembly, classification and spreading commands run (R157, R159, R165 to R172, R186, R187): on a page that
takes and serves it, each has its own effect on the arguments and data written, and ends with its result or waits for its own
event. -/
def Obligations.PipelineCommandsRun : Prop :=
  ∀ (c : CmdIn) (s : State),
    CommandRuns (.nodeWrite c) blkPARSE 0x01 cmdNodeWrite c s ∧
    CommandRuns (.nodeRead c) blkPARSE 0x02 cmdNodeRead c s ∧
    CommandRuns (.profCommit c) blkPARSE 0x03 cmdProfCommit c s ∧
    CommandRuns (.portProf c) blkPARSE 0x04 cmdPortProf c s ∧
    CommandRuns (.portQuery c) blkPARSE 0x05 cmdPortQuery c s ∧
    CommandRuns (.fragFlushTenant c) blkFRAG 0x01 cmdFragFlush c s ∧
    CommandRuns (.keyprofWrite c) blkCLASS 0x01 cmdKeyprofWrite c s ∧
    CommandRuns (.rangeWrite c) blkCLASS 0x02 cmdRangeWrite c s ∧
    CommandRuns (.arecWrite c) blkCLASS 0x03 cmdArecWrite c s ∧
    CommandRuns (.tmplWrite c) blkCLASS 0x04 cmdTmplWrite c s ∧
    CommandRuns (.keyprofRead c) blkCLASS 0x11 cmdKeyprofRead c s ∧
    CommandRuns (.rangeRead c) blkCLASS 0x12 cmdRangeRead c s ∧
    CommandRuns (.arecRead c) blkCLASS 0x13 cmdArecRead c s ∧
    CommandRuns (.tmplRead c) blkCLASS 0x14 cmdTmplRead c s ∧
    CommandRuns (.hprofWrite c) blkSPREAD 0x01 cmdHprofWrite c s ∧
    CommandRuns (.tkeyWrite c) blkSPREAD 0x02 cmdTkeyWrite c s ∧
    CommandRuns (.pgrpWrite c) blkSPREAD 0x03 cmdPgrpWrite c s ∧
    CommandRuns (.stblWrite c) blkSPREAD 0x04 cmdStblWrite c s ∧
    CommandRuns (.vportWrite c) blkSPREAD 0x05 cmdVportWrite c s ∧
    CommandRuns (.hprofRead c) blkSPREAD 0x11 cmdHprofRead c s ∧
    CommandRuns (.tkeyRead c) blkSPREAD 0x12 cmdTkeyRead c s ∧
    CommandRuns (.pgrpRead c) blkSPREAD 0x13 cmdPgrpRead c s ∧
    CommandRuns (.stblRead c) blkSPREAD 0x14 cmdStblRead c s ∧
    CommandRuns (.vportRead c) blkSPREAD 0x15 cmdVportRead c s

/-- Table commands, on LEARN, FLOW and TCAM alike run (R191, R196, R212, R215): on a page that takes and serves it, each has
its own effect on the arguments and data written, and ends with its result or waits for its own event. -/
def Obligations.TableCommandsRun : Prop :=
  ∀ (c : CmdIn) (s : State),
    (∀ p, CommandRuns (.tableRead p c) (tableBlk p) 0x01 (tableCommand 1) c s) ∧
    (∀ p, CommandRuns (.tableWrite p c) (tableBlk p) 0x02 (tableCommand 2) c s) ∧
    (∀ p, CommandRuns (.insert p c) (tableBlk p) 0x03 (tableCommand 3) c s) ∧
    (∀ p, CommandRuns (.delete p c) (tableBlk p) 0x04 (tableCommand 4) c s) ∧
    (∀ p, CommandRuns (.search p c) (tableBlk p) 0x05 (tableCommand 5) c s) ∧
    (∀ p, CommandRuns (.cas p c) (tableBlk p) 0x06 (tableCommand 6) c s) ∧
    (∀ p, CommandRuns (.move p c) (tableBlk p) 0x07 (tableCommand 7) c s) ∧
    (∀ p, CommandRuns (.tableFlushTenant p c) (tableBlk p) 0x08 (tableCommand 8) c s)

/-- Queue pair, memory key and context commands run (R224 to R227, R251 to R259, R272): on a page that takes and serves it,
each has its own effect on the arguments and data written, and ends with its result or waits for its own event. -/
def Obligations.RdmaCommandsRun : Prop :=
  ∀ (c : CmdIn) (s : State),
    CommandRuns (.qpCreate c) blkRDMA 0x01 cmdQpCreate c s ∧
    CommandRuns (.qpModifyRtr c) blkRDMA 0x02 cmdQpModifyRtr (qpModifyIn 2 c s) s ∧
    CommandRuns (.qpModifyRts c) blkRDMA 0x02 cmdQpModifyRts (qpModifyIn 3 c s) s ∧
    CommandRuns (.qpModifyError c) blkRDMA 0x02 cmdQpModifyError (qpModifyIn 4 c s) s ∧
    CommandRuns (.qpModifyInit c) blkRDMA 0x02 cmdQpModifyInit (qpModifyIn 1 c s) s ∧
    CommandRuns (.qpQuery c) blkRDMA 0x03 cmdQpQuery c s ∧
    CommandRuns (.qpDestroy c) blkRDMA 0x04 cmdQpDestroy c s ∧
    CommandRuns (.mkeyWrite c) blkRDMA 0x05 cmdMkeyWrite c s ∧
    CommandRuns (.mkeyInvalidate c) blkRDMA 0x06 cmdMkeyInvalidate c s ∧
    CommandRuns (.mkeyRead c) blkRDMA 0x07 cmdMkeyRead c s ∧
    CommandRuns (.tquotaWrite c) blkLEVAIN 0x01 cmdTquotaWrite c s ∧
    CommandRuns (.tquotaRead c) blkLEVAIN 0x02 cmdTquotaRead c s ∧
    CommandRuns (.ctxQuery c) blkLEVAIN 0x03 cmdCtxQuery c s ∧
    CommandRuns (.evict c) blkLEVAIN 0x04 cmdEvict c s ∧
    CommandRuns (.setClass c) blkLEVAIN 0x05 cmdSetClass c s

/-- NVMe controller, namespace, management and range-lock commands run (R273, R286 to R297, R412): on a page that takes and
serves it, each has its own effect on the arguments and data written, and ends with its result or waits for its own event. -/
def Obligations.StorageCommandsRun : Prop :=
  ∀ (c : CmdIn) (s : State),
    CommandRuns (.ctrlCreate c) blkNVME 0x01 cmdCtrlCreate c s ∧
    CommandRuns (.ctrlDestroy c) blkNVME 0x02 cmdCtrlDestroy c s ∧
    CommandRuns (.ctrlQuery c) blkNVME 0x03 cmdCtrlQuery c s ∧
    CommandRuns (.nsCreate c) blkNVME 0x04 cmdNsCreate c s ∧
    CommandRuns (.nsDestroy c) blkNVME 0x05 cmdNsDestroy c s ∧
    CommandRuns (.nsAttach c) blkNVME 0x06 cmdNsAttach c s ∧
    CommandRuns (.nsDetach c) blkNVME 0x07 cmdNsDetach c s ∧
    CommandRuns (.nsRebind c) blkNVME 0x08 cmdNsRebind c s ∧
    CommandRuns (.bkqWrite c) blkNVME 0x09 cmdBkqWrite c s ∧
    CommandRuns (.bkDown c) blkNVME 0x0A cmdBkDown c s ∧
    CommandRuns (.mgmtIdentify c) blkNVME 0x0B mgmtAdmin (mgmtIn 0x06 none c) s ∧
    CommandRuns (.mgmtGetLogPage c) blkNVME 0x0B mgmtAdmin (mgmtIn 0x02 none c) s ∧
    CommandRuns (.firmwareImageDownload c) blkNVME 0x0B mgmtAdmin (mgmtIn 0x11 none c) s ∧
    CommandRuns (.firmwareCommitWrite c) blkNVME 0x0B mgmtAdmin (mgmtIn 0x10 (some 0) c) s ∧
    CommandRuns (.firmwareCommitWriteActivate c) blkNVME 0x0B mgmtAdmin (mgmtIn 0x10 (some 1) c) s ∧
    CommandRuns (.firmwareCommitActivate c) blkNVME 0x0B mgmtAdmin (mgmtIn 0x10 (some 2) c) s ∧
    CommandRuns (.rlQuery c) blkRLOCK 0x01 cmdRlQuery c s

/-- Cipher, key and MACsec commands run (R302 to R318): on a page that takes and serves it, each has its own effect on the
arguments and data written, and ends with its result or waits for its own event. -/
def Obligations.CipherCommandsRun : Prop :=
  ∀ (c : CmdIn) (s : State),
    CommandRuns (.job c) blkCIPHER 0x01 cmdJob c s ∧
    CommandRuns (.keyStage c) blkKEYS 0x01 cmdKeyStage c s ∧
    CommandRuns (.slotWrite c) blkKEYS 0x02 cmdSlotWrite c s ∧
    CommandRuns (.slotRead c) blkKEYS 0x03 cmdSlotRead c s ∧
    CommandRuns (.slotInvalidate c) blkKEYS 0x04 cmdSlotInvalidate c s ∧
    CommandRuns (.saWrite c) blkMACSEC 0x01 cmdSaWrite c s ∧
    CommandRuns (.saRead c) blkMACSEC 0x02 cmdSaRead c s ∧
    CommandRuns (.saDisable c) blkMACSEC 0x03 cmdSaDisable c s

/-- Core, dispatch and memory commands run (R337 to R343, R352 to R357): on a page that takes and serves it, each has its own
effect on the arguments and data written, and ends with its result or waits for its own event. -/
def Obligations.CoreCommandsRun : Prop :=
  ∀ (c : CmdIn) (s : State),
    CommandRuns (.qcfgWrite c) blkPROOFER 0x01 cmdQcfgWrite c s ∧
    CommandRuns (.qcfgRead c) blkPROOFER 0x02 cmdQcfgRead c s ∧
    CommandRuns (.tweightWrite c) blkPROOFER 0x03 cmdTweightWrite c s ∧
    CommandRuns (.prooferFlushTenant c) blkPROOFER 0x04 cmdProoferFlush c s ∧
    CommandRuns (.selftest c) blkTILE 0x01 cmdSelftest c s ∧
    CommandRuns (.canaryWrite c) blkTILE 0x02 cmdCanaryWrite c s ∧
    CommandRuns (.hartReset c) blkCLUSTER 0x01 cmdHartReset c s ∧
    CommandRuns (.regionWrite c) blkMEMENC 0x01 cmdRegionWrite c s ∧
    CommandRuns (.regionRead c) blkMEMENC 0x02 cmdRegionRead c s ∧
    (∀ ddr, CommandRuns (.trainStart ddr c) (ctlBlk ddr) 0x01 cmdTrainStart c s) ∧
    (∀ ddr, CommandRuns (.dlyWrite ddr c) (ctlBlk ddr) 0x02 cmdDlyWrite c s) ∧
    (∀ ddr, CommandRuns (.dlyRead ddr c) (ctlBlk ddr) 0x03 cmdDlyRead c s) ∧
    (∀ ddr, CommandRuns (.trainPattern ddr c) (ctlBlk ddr) 0x04 cmdTrainPattern c s) ∧
    (∀ ddr, CommandRuns (.goActive ddr c) (ctlBlk ddr) 0x05 cmdGoActive c s) ∧
    (∀ ddr, CommandRuns (.swap ddr c) (ctlBlk ddr) 0x06 cmdSwap c s)

/-- Tenant, meter and twin commands run (R359, R361, R375, R376, R398, R401): on a page that takes and serves it, each has
its own effect on the arguments and data written, and ends with its result or waits for its own event. -/
def Obligations.TenantCommandsRun : Prop :=
  ∀ (c : CmdIn) (s : State),
    CommandRuns (.tenantOpen c) blkTENANT 0x01 cmdTenantOpen c s ∧
    CommandRuns (.tenantClose c) blkTENANT 0x02 cmdTenantClose c s ∧
    CommandRuns (.tenantQuery c) blkTENANT 0x03 cmdTenantQuery c s ∧
    CommandRuns (.funcAssign c) blkTENANT 0x04 cmdFuncAssign c s ∧
    CommandRuns (.funcQuery c) blkTENANT 0x05 cmdFuncQuery c s ∧
    CommandRuns (.mtrRead c) blkMETER 0x01 cmdMtrRead c s ∧
    CommandRuns (.polRead c) blkMETER 0x02 cmdPolRead c s ∧
    CommandRuns (.leave c) blkTWIN 0x01 cmdLeave c s ∧
    CommandRuns (.handback c) blkTWIN 0x02 cmdHandback c s ∧
    CommandRuns (.takeover c) blkTWIN 0x03 cmdTakeover c s

/-- Boot, trust, fault and management commands run (R410 to R426, R430, R442, R466): on a page that takes and serves it, each
has its own effect on the arguments and data written, and ends with its result or waits for its own event. -/
def Obligations.TrustCommandsRun : Prop :=
  ∀ (c : CmdIn) (s : State),
    CommandRuns (.slotGood c) blkBOOT 0x01 cmdSlotGood c s ∧
    CommandRuns (.bootLogRead c) blkBOOT 0x02 cmdBootLogRead c s ∧
    CommandRuns (.recovWrite c) blkBOOT 0x03 cmdRecovWrite c s ∧
    CommandRuns (.recovDone c) blkBOOT 0x04 cmdRecovDone c s ∧
    CommandRuns (.fuseSvn c) blkBOOT 0x05 cmdFuseSvn c s ∧
    CommandRuns (.importPub c) blkDAXLIA 0x01 cmdImportPub c s ∧
    CommandRuns (.importKey c) blkDAXLIA 0x02 cmdImportKey c s ∧
    CommandRuns (.jtagChallenge c) blkDAXLIA 0x03 cmdJtagChallenge c s ∧
    CommandRuns (.jtagUnlock c) blkDAXLIA 0x04 cmdJtagUnlock c s ∧
    CommandRuns (.measureRead c) blkDAXLIA 0x05 cmdMeasureRead c s ∧
    CommandRuns (.sevWrite c) blkFAULT 0x01 cmdSevWrite c s ∧
    CommandRuns (.sevRead c) blkFAULT 0x02 cmdSevRead c s ∧
    CommandRuns (.faultLogRead c) blkFAULT 0x03 cmdFaultLogRead c s ∧
    CommandRuns (.unitQuery c) blkFAULT 0x04 cmdUnitQuery c s ∧
    CommandRuns (.unitRestore c) blkFAULT 0x05 cmdUnitRestore c s ∧
    CommandRuns (.spdRead c) blkMGMT 0x01 cmdSpdRead c s

/-! ## The step, rest and settling -/

/-- A step carries out the command at the front of the queue on the state with the queue's rest. -/
def Obligations.StepRunsFront : Prop :=
  ∀ (c : Instr) (rest : List Instr) (s : State), s.pending = c :: rest → step s = exec c { s with pending := rest }

/-- On an empty queue 1 ns of BREF passes and Rack Time with it, up to the end of Rack Time (R14). The tick is the model's
choice (log 15). -/
def Obligations.StepIdles : Prop :=
  ∀ s : State, s.pending = [] →
    ((s.pass 1).ns < 2 ^ 64 → step s = .next (settle (s.pass 1))) ∧
    (2 ^ 64 ≤ (s.pass 1).ns → step s = .fault .beyond2554)

/-- The block is at rest right after reset (R38, R63, R97, R434). -/
def Obligations.ResetRests : Prop := AtRest State.reset

/-- Every step leaves the block at rest (R38, R42, R63, R97, R434): the pending types are those that raise, each INTx wire
follows its causes, and the driven outputs follow the state. -/
def Obligations.RestKept : Prop := ∀ s t : State, step s = .next t → AtRest t

/-- No command stops the block: only the end of Rack Time does, on an empty queue (R14). -/
def Obligations.OnlyEndOfTimeStops : Prop :=
  ∀ s : State, (∀ t, step s ≠ .next t) → s.pending = [] ∧ 2 ^ 64 ≤ (s.pass 1).ns ∧ step s = .fault .beyond2554

/-- Settling sends interrupt messages and drives wires and outputs (R63, R65, R97, R341): every other part of the state but
what a delivery to the Proofer changes stays. -/
def Obligations.SettleFrame : Prop := ∀ s : State, (settle s).still = s.still

/-! ## Page commands, refused and ended -/

/-- A command written to a page while one runs there counts each of its writes in PG_ERRCNT31 and does nothing else
(R55, R56). -/
def Obligations.BusyPageCounts : Prop :=
  ∀ (s : State) (i : Instr) (blk op : Nat) (c : CmdIn) (r : Running), pageRow s i = some (blk, op, c) →
    WriteReaches s c.who blk c.inst.toNat → Tbl.get? s.running (State.pk blk c.inst.toNat) = some r →
    exec i s = .next (settle (s.bumpErr blk c.inst.toNat 31 (cmdWrites c)))

/-- A denied command with BUSY clear ends at once with 0x06 DENIED (R66): PG_CMD_STAT shows the writer's TAG and OPCODE, bit
31 of PG_ISTAT is set, the denied writes are counted, the arguments and data keep their values and nothing runs. -/
def Obligations.DeniedCommandEnds : Prop :=
  ∀ (s : State) (i : Instr) (blk op : Nat) (c : CmdIn), pageRow s i = some (blk, op, c) →
    cfInReset s c.who = none → c.inst.toNat < pageCount blk → mayWrite s c.who blk = false →
    Tbl.get? s.running (State.pk blk c.inst.toNat) = none →
    ∃ u, exec i s = .next (settle u) ∧ u.still = s.still ∧ u.mem = s.mem ∧ u.out = s.out ∧
      u.hd blk c.inst.toNat 0x24 = c.hi.toNat / 256 % 256 * 65536 + op * 256 + 0x06 ∧
      bit (u.hd blk c.inst.toNat 0x10) 31 = true ∧
      u.hd blk c.inst.toNat 0xF0 = min 4294967295 (s.hd blk c.inst.toNat 0xF0 + cmdWrites c) ∧
      u.hd blk c.inst.toNat 0xFC = s.hd blk c.inst.toNat 0xFC ∧
      ∀ off, off = 0x20 ∨ off = 0x28 ∨ off = 0x2C ∨ (0x40 ≤ off ∧ off < 0x80) →
        u.hd blk c.inst.toNat off = s.hd blk c.inst.toNat off

/-- A command to a page that is not populated counts each of its writes in UNPOP_COUNT, saturating, and does nothing else
(R48, R64). -/
def Obligations.UnpopulatedCommandCounts : Prop :=
  ∀ (s : State) (i : Instr) (blk op : Nat) (c : CmdIn), pageRow s i = some (blk, op, c) →
    cfInReset s c.who = none → pageCount blk ≤ c.inst.toNat →
    exec i s = .next (settle (s.wr HUB.UNPOP_COUNT 0 (min 4294967295 (s.rd HUB.UNPOP_COUNT + cmdWrites c))))

/-- A command written with a reserved bit of PG_CMD set ends with 0x03; one on a TWIN page but 0 with 0x01; one on a FAULTED
page with 0x0A; one on a page that is not enabled or that another personality uses with 0x04, in this order (R53, R56, R401,
R470). It has no effect of its own. TILE and a DOWN octet's UP run on a FAULTED page (R74, R428), and a push source's commands
on the BOOT page before it is enabled (R410). -/
def Obligations.EntryRefusals : Prop :=
  ∀ (s b : State) (i : Instr) (blk op inst : Nat) (c : CmdIn), pageRow s i = some (blk, op, c) → inst = c.inst.toNat →
    TakesCommand s c.who blk inst → c.defer = false → b = begun c blk inst op s →
    (¬ PlainCommand c → exec i s = .next (settle (endCommand b (State.pk blk inst) 0x03 none))) ∧
    (PlainCommand c → blk = blkTWIN → inst ≠ 0 →
      exec i s = .next (settle (endCommand b (State.pk blk inst) 0x01 none))) ∧
    (PlainCommand c → (blk = blkTWIN → inst = 0) → s.faulted.contains (State.pk blk inst) = true → blk ≠ blkTILE →
      blk ≠ blkOCTET → exec i s = .next (settle (endCommand b (State.pk blk inst) 0x0A none))) ∧
    (PlainCommand c → (blk = blkTWIN → inst = 0) → s.faulted.contains (State.pk blk inst) = false →
      (s.enabled blk inst = false ∨ pageActive s blk inst = false) → blk ≠ blkBOOT →
      exec i s = .next (settle (endCommand b (State.pk blk inst) 0x04 none)))

/-- A command that is still running shows BUSY with its TAG and OPCODE (R56, R57). -/
def Obligations.RunningCommandShowsBusy : Prop :=
  ∀ (s : State) (i : Instr) (blk op : Nat) (c : CmdIn), pageRow s i = some (blk, op, c) →
    TakesCommand s c.who blk c.inst.toNat → c.defer = true →
    exec i s = .next (settle (begun c blk c.inst.toNat op s)) ∧
    headerReg (begun c blk c.inst.toNat op s) blk c.inst.toNat 0x24 =
      2147483648 + c.hi.toNat / 256 % 256 * 65536 + op * 256

/-- A command that ends clears BUSY, shows TAG, OPCODE and RESULT, sets bit 31 of PG_ISTAT and puts its returned data in
PG_CMD_DATA (R56, R57). -/
def Obligations.CommandEndShows : Prop :=
  ∀ (s : State) (blk inst res : Nat) (r : Running), inst < 512 → res < 256 →
    Tbl.get? s.running (State.pk blk inst) = some r →
    (∀ ret : Option (List Dword), ∀ u, u = endCommand s (State.pk blk inst) res ret →
      headerReg u blk inst 0x24 = r.tag.toNat * 65536 + r.op.toNat * 256 + res ∧
      u.running = Tbl.del s.running (State.pk blk inst) ∧ bit (u.hd blk inst 0x10) 31 = true ∧
      u.mem = s.mem ∧ u.out = s.out) ∧
    (∀ d : List Dword, d.length = 8 → dataWindow (endCommand s (State.pk blk inst) res (some d)) blk inst = d) ∧
    dataWindow (endCommand s (State.pk blk inst) res none) blk inst = dataWindow s blk inst

/-! ## Register writes -/

/-- A register write that its page refuses does nothing but count: in PG_ERRCNT29 when it is not 4 bytes at a multiple of 4,
in PG_ERRCNT28 when ACCESS denies it, in UNPOP_COUNT when the page is not populated (R48, R49, R55, R66). -/
def Obligations.RefusedWritesCount : Prop :=
  ∀ (s : State) (who : Requester) (a : BitVec 29) (v : Word) (whole : Bool) (blk inst : Nat),
    blk = a.toNat / 2097152 → inst = a.toNat / 4096 % 512 → cfInReset s who = none →
    (pageCount blk ≤ inst → exec (.registerWrite who (.page a) whole v) s =
      .next (settle (withResets (fun s => s.wr HUB.UNPOP_COUNT 0 (min 4294967295 (s.rd HUB.UNPOP_COUNT + 1))) s))) ∧
    (inst < pageCount blk → (a.toNat % 4 ≠ 0 ∨ whole = false) → exec (.registerWrite who (.page a) whole v) s =
      .next (settle (withResets (fun s => s.bumpErr blk inst 29) s))) ∧
    (inst < pageCount blk → a.toNat % 4 = 0 → whole = true → a.toNat % 4096 ≠ 0x20 → mayWrite s who blk = false →
      exec (.registerWrite who (.page a) whole v) s = .next (settle (withResets (fun s => s.bumpErr blk inst 28) s)))

/-- Counting in PG_ERRCNTn adds to that counter and stops at 0xFFFFFFFF; no other register changes but PG_ISTAT of the page
(R7, R54). -/
def Obligations.ErrorCountersSaturate : Prop :=
  ∀ (s : State) (blk inst n k : Nat), n < 32 → inst < 512 →
    (s.bumpErr blk inst n k).hd blk inst (0x80 + 4 * n) = min 4294967295 (s.hd blk inst (0x80 + 4 * n) + k) ∧
    (s.bumpErr blk inst n k).still = s.still ∧ (s.bumpErr blk inst n k).mem = s.mem ∧ (s.bumpErr blk inst n k).out = s.out ∧
    ∀ a, a ≠ State.addr (blk, 0x80 + 4 * n) inst 0 → a ≠ State.addr (blk, 0x10) inst 0 →
      (s.bumpErr blk inst n k).rdA a = s.rdA a

/-- The address of a register within the Control Function's BAR0 (R47): block type in bits 28:21, page number in bits 20:12,
byte offset in bits 11:0. -/
def Obligations.RegisterAddresses : Prop :=
  (∀ (s : State) (who : Requester) (blk : BitVec 8) (inst : BitVec 9) (off : BitVec 12) (v : Word),
    WriteReaches s who blk.toNat inst.toNat → off.toNat % 4 = 0 → off.toNat ≠ 0x20 →
    exec (.registerWrite who (.page (blk ++ inst ++ off)) true v) s =
      .next (settle (withResets (writeReg who blk.toNat inst.toNat off.toNat v.toNat 0) s))) ∧
  (0x24#8 ++ 5#9 ++ 0x020#12 = 0x04805020#29)

/-- The writes of the reference registers that the device rejects (R467): 0 to STEP_THRESH, PPS_OUT_WIDTH outside 1,000 to
500,000,000, PPS_OUT_OFFSET outside −500,000,000 to +499,999,999. A rejected write leaves the register as it was and counts
in PG_ERRCNT2; SLEW_MAX is clamped. -/
def Obligations.ReferenceWritesRejected : Prop :=
  ∀ (s : State) (who : Requester) (v : Word), WriteReaches s who blkRTIME 0 →
    (exec (.registerWrite who (.page 0x00400114) true v) s = .next (settle (withResets (fun s =>
      if v.toNat = 0 then s.bumpErr blkRTIME 0 2 else s.wr RTIME.STEP_THRESH 0 v.toNat) s))) ∧
    (exec (.registerWrite who (.page 0x00400138) true v) s = .next (settle (withResets (fun s =>
      if v.toNat < 1000 ∨ 500000000 < v.toNat then s.bumpErr blkRTIME 0 2
      else s.wr RTIME.PPS_OUT_WIDTH 0 v.toNat) s))) ∧
    (exec (.registerWrite who (.page 0x0040013C) true v) s = .next (settle (withResets (fun s =>
      if v.toInt < -500000000 ∨ 499999999 < v.toInt then s.bumpErr blkRTIME 0 2
      else s.wr RTIME.PPS_OUT_OFFSET 0 v.toNat) s))) ∧
    (exec (.registerWrite who (.page 0x00400118) true v) s = .next (settle (withResets (fun s =>
      s.wr RTIME.SLEW_MAX 0 (min v.toNat 100000)) s))) ∧
    (∀ r ∈ [RTIME.STEP_THRESH, RTIME.PPS_OUT_WIDTH, RTIME.PPS_OUT_OFFSET],
      (s.bumpErr blkRTIME 0 2).rd r = s.rd r) ∧
    (s.bumpErr blkRTIME 0 2).hd blkRTIME 0 0x88 = min 4294967295 (s.hd blkRTIME 0 0x88 + 1)

/-! ## Attachment, calendar, memory, tables -/

/-- The personalities that an octet's position admits (R69): H at 0 to 7, D and E anywhere, T at 14 and 15. UP of another one
on an octet at rest is refused with 0x49 and changes no octet (R73). -/
def Obligations.PositionsAdmit : Prop :=
  (∀ pos : Nat, pos < 16 → posOk pos 1 = decide (pos ≤ 7) ∧ posOk pos 2 = true ∧ posOk pos 3 = true ∧
    posOk pos 4 = decide (14 ≤ pos)) ∧
  ∀ (s : State) (c : CmdIn) (b : State), b = begun c blkOCTET c.inst.toNat 0x01 s →
    TakesCommand s c.who blkOCTET c.inst.toNat → Serves s blkOCTET c.inst.toNat → PlainCommand c → c.defer = false →
    s.stateOf blkOCTET c.inst.toNat ≤ 1 → persIn (s.rd OCTET.PERS_CTRL c.inst.toNat) ≠ 0 →
    posOk (c.inst.toNat % 16) (persIn (s.rd OCTET.PERS_CTRL c.inst.toNat)) = false →
    exec (.up c) s = .next (settle (endCommand (b.bumpErr blkOCTET c.inst.toNat 0)
      (State.pk blkOCTET c.inst.toNat) 0x49 none))

/-- The next event of a calendar slice is one of its events, none is due before it, and of those due with it, it is the first
in the order of the list (R31, R33). -/
def Obligations.CalendarOrder : Prop :=
  ∀ (s : State) (n : Nat),
    (s.calNext n = none ↔ (s.slice n).chip ++ (s.slice n).spill = []) ∧
    ∀ e, s.calNext n = some e → ∃ before after, (s.slice n).chip ++ (s.slice n).spill = before ++ e :: after ∧
      (∀ x ∈ before, e.deadline < x.deadline) ∧ ∀ x ∈ after, e.deadline ≤ x.deadline

/-- A write that reaches device memory through a device port's inbound window stores its bytes, little-endian at rising
addresses, and changes no other byte; memory keeps its canonical form (R7, R88). -/
def Obligations.InboundWriteStores : Prop :=
  ∀ (s : State) (o : Fin 128) (k : Fin 4) (a : Dword) (bs : List Byte) (w len : Nat), persOf s o.val = 2 →
    (Tbl.getD s.octUp o.val []).contains k.val = true → w < 4 → (inbound s o.val k.val w).1 ≤ a.toNat →
    a.toNat + bs.length ≤ (inbound s o.val k.val w).2 + 1 → devAny s a.toNat bs.length = 0 →
    ∃ u, exec (.dportInboundRequest o k a len (some bs)) s = .next (settle u) ∧ u.still = s.still ∧ u.regs = s.regs ∧
      u.out = s.out ∧
      (∀ i (h : i < bs.length), Memory.read u.mem (a.toNat + i) = bs[i]) ∧
      (∀ j, j < a.toNat ∨ a.toNat + bs.length ≤ j → Memory.read u.mem j = Memory.read s.mem j) ∧
      (Memory.wf s.mem → Memory.wf u.mem)

/-- What a table write command stores, the read command of the same index returns, and a write to another index leaves it
(R168 to R182, R186, R187). -/
def Obligations.PipelineTablesReadBack : Prop :=
  ∀ (w r : CmdCtx) (s : State), r.inst = w.inst → r.a0 = w.a0 → r.a1 = w.a1 → w.d.length = 8 →
    ((cmdKeyprofWrite w s).res = 0 →
      cmdKeyprofRead r (cmdKeyprofWrite w s).st = .data (cmdKeyprofWrite w s).st (bytesQw ((qwBytes w.d).take 40) 8)) ∧
    ((cmdRangeWrite w s).res = 0 →
      cmdRangeRead r (cmdRangeWrite w s).st = .data (cmdRangeWrite w s).st [w.d.getD 0 0]) ∧
    ((cmdArecWrite w s).res = 0 →
      cmdArecRead r (cmdArecWrite w s).st = .data (cmdArecWrite w s).st (padQ (w.d.take 4) 8)) ∧
    ((cmdTmplWrite w s).res = 0 → cmdTmplRead r (cmdTmplWrite w s).st = .data (cmdTmplWrite w s).st w.d ∧
      ∀ r' : CmdCtx, r'.inst = w.inst → r'.a0 = w.a0 → r'.a1 < 2 → r'.a1 ≠ w.a1 →
        (cmdTmplRead r' (cmdTmplWrite w s).st).ret = (cmdTmplRead r' s).ret) ∧
    ((cmdHprofWrite w s).res = 0 →
      cmdHprofRead r (cmdHprofWrite w s).st = .data (cmdHprofWrite w s).st (bytesQw ((qwBytes w.d).take 18) 8)) ∧
    ((cmdTkeyWrite w s).res = 0 →
      cmdTkeyRead r (cmdTkeyWrite w s).st = .data (cmdTkeyWrite w s).st (bytesQw ((qwBytes w.d).take 40) 8)) ∧
    ((cmdVportWrite w s).res = 0 →
      cmdVportRead r (cmdVportWrite w s).st = .data (cmdVportWrite w s).st (padQ (w.d.take 2) 8))

/-! ## Frames -/

/-- A command that only reads changes nothing but its page's header registers and the command running there, however it ends
(R56, R57, R66): no register of another page, none from offset 0x80 on of its own page unless the write is refused. -/
def Obligations.ReadCommandsFrame : Prop :=
  ∀ (c : CmdIn) (s : State), ∀ i ∈ [Instr.query c, .winRead c, .qQuery c, .nodeRead c, .portQuery c, .keyprofRead c,
      .rangeRead c, .arecRead c, .tmplRead c, .hprofRead c, .tkeyRead c, .pgrpRead c, .stblRead c, .vportRead c, .qpQuery c,
      .mkeyRead c, .tquotaRead c, .ctxQuery c, .ctrlQuery c, .rlQuery c, .slotRead c, .saRead c, .qcfgRead c, .regionRead c,
      .dlyRead true c, .dlyRead false c, .tenantQuery c, .funcQuery c, .mtrRead c, .polRead c, .bootLogRead c, .importPub c,
      .measureRead c, .faultLogRead c, .unitQuery c],
    ∃ blk op u, pageRow s i = some (blk, op, c) ∧ exec i s = .next (settle u) ∧ u.sansPages = s.sansPages ∧
      (TakesCommand s c.who blk c.inst.toNat →
        ∀ a, a / 4096 ≠ State.pk blk c.inst.toNat ∨ 0x80 ≤ a % 4096 → u.rdA a = s.rdA a)

/-- A write command of CLASS and SPREAD changes only their tables beside its page's header (R168 to R182, R186, R187). -/
def Obligations.PipelineWritesFrame : Prop :=
  ∀ (c : CmdIn) (s : State), ∀ i ∈ [Instr.keyprofWrite c, .rangeWrite c, .arecWrite c, .tmplWrite c, .hprofWrite c,
      .tkeyWrite c, .pgrpWrite c, .stblWrite c, .vportWrite c],
    ∃ blk op u, pageRow s i = some (blk, op, c) ∧ exec i s = .next (settle u) ∧ u.sansPipeTables = s.sansPipeTables ∧
      (TakesCommand s c.who blk c.inst.toNat →
        ∀ a, a / 4096 ≠ State.pk blk c.inst.toNat ∨ 0x80 ≤ a % 4096 → u.rdA a = s.rdA a)

/-- The hash steps of a hart (R326, R178): CRCC feeds the 64 bits of rs2, lowest first, into the reflected CRC32C register in
rs1; TPLZ adds to rs1, for every bit set in its byte, the 32 window bits from that bit's place on, the window beginning at rs2
bit 47; bits 63:32 of rd read 0. CRCC steps give the CRC32C of a run of qwords. TPLZ steps give the Toeplitz hash when byte k
is processed with the window that starts at key bit 8k. -/
def Obligations.HashSteps : Prop :=
  (∀ (s u : State) (k : KwIn), u = kwBefore k s → (hartOf u k.hart.val).running = true → k.badEnc = false →
    exec (.crcc k) s = .next (settle (hartResult u k.hart.val k.rd.val
      (((List.range 64).foldl (fun (c : Word) (i : Nat) =>
        if c.getLsbD 0 = k.rs2.getLsbD i then c >>> 1 else (c >>> 1) ^^^ 0x82F63B78#32) (k.rs1.setWidth 32)).setWidth 64))) ∧
    exec (.tplz k) s = .next (settle (hartResult u k.hart.val k.rd.val
      (((List.range 8).foldl (fun (h : Word) (j : Nat) =>
        if k.rs2.getLsbD (7 - j) then h ^^^ k.rs2.extractLsb' (16 - j) 32 else h) (k.rs1.setWidth 32)).setWidth 64)))) ∧
  (∀ ws : List Dword, ((ws.foldl crccValue 0xFFFFFFFF).setWidth 32 : Word) ^^^ 0xFFFFFFFF = crc32c 0xFFFFFFFF (qwBytes ws)) ∧
  ∀ key input : List Byte, key.length = 40 → input.length ≤ 36 →
    toeplitz key input = ((List.range input.length).foldl (fun (a : Dword) (i : Nat) =>
      tplzValue a (dw (be input i 1 + 256 * be key i 5))) 0).setWidth 32
end

