-- ==== Sys2Proof/Laws/State.lean ====
section
/-! SUPPORT. What each named update leaves of every field of State, by rfl: no proof unfolds a record update. -/

namespace Sys2Proof.Machine.State

/-! ## emit -/

@[simp] theorem emit_pending (s : State) (o : Out) : (s.emit o).pending = s.pending := rfl
@[simp] theorem emit_now (s : State) (o : Out) : (s.emit o).now = s.now := rfl
@[simp] theorem emit_bref (s : State) (o : Out) : (s.emit o).bref = s.bref := rfl
@[simp] theorem emit_free (s : State) (o : Out) : (s.emit o).free = s.free := rfl
@[simp] theorem emit_mem (s : State) (o : Out) : (s.emit o).mem = s.mem := rfl
@[simp] theorem emit_regs (s : State) (o : Out) : (s.emit o).regs = s.regs := rfl
@[simp] theorem emit_latches (s : State) (o : Out) : (s.emit o).latches = s.latches := rfl
@[simp] theorem emit_stages (s : State) (o : Out) : (s.emit o).stages = s.stages := rfl
@[simp] theorem emit_snaps (s : State) (o : Out) : (s.emit o).snaps = s.snaps := rfl
@[simp] theorem emit_running (s : State) (o : Out) : (s.emit o).running = s.running := rfl
@[simp] theorem emit_typePend (s : State) (o : Out) : (s.emit o).typePend = s.typePend := rfl
@[simp] theorem emit_pgState (s : State) (o : Out) : (s.emit o).pgState = s.pgState := rfl
@[simp] theorem emit_faulted (s : State) (o : Out) : (s.emit o).faulted = s.faulted := rfl
@[simp] theorem emit_degraded (s : State) (o : Out) : (s.emit o).degraded = s.degraded := rfl
@[simp] theorem emit_resetting (s : State) (o : Out) : (s.emit o).resetting = s.resetting := rfl
@[simp] theorem emit_clk (s : State) (o : Out) : (s.emit o).clk = s.clk := rfl
@[simp] theorem emit_cal (s : State) (o : Out) : (s.emit o).cal = s.cal := rfl
@[simp] theorem emit_hports (s : State) (o : Out) : (s.emit o).hports = s.hports := rfl
@[simp] theorem emit_funcs (s : State) (o : Out) : (s.emit o).funcs = s.funcs := rfl
@[simp] theorem emit_octUp (s : State) (o : Out) : (s.emit o).octUp = s.octUp := rfl
@[simp] theorem emit_emacStat (s : State) (o : Out) : (s.emit o).emacStat = s.emacStat := rfl
@[simp] theorem emit_windows (s : State) (o : Out) : (s.emit o).windows = s.windows := rfl
@[simp] theorem emit_queues (s : State) (o : Out) : (s.emit o).queues = s.queues := rfl
@[simp] theorem emit_rings (s : State) (o : Out) : (s.emit o).rings = s.rings := rfl
@[simp] theorem emit_dma (s : State) (o : Out) : (s.emit o).dma = s.dma := rfl
@[simp] theorem emit_nodes (s : State) (o : Out) : (s.emit o).nodes = s.nodes := rfl
@[simp] theorem emit_banks (s : State) (o : Out) : (s.emit o).banks = s.banks := rfl
@[simp] theorem emit_portProf (s : State) (o : Out) : (s.emit o).portProf = s.portProf := rfl
@[simp] theorem emit_malCnt (s : State) (o : Out) : (s.emit o).malCnt = s.malCnt := rfl
@[simp] theorem emit_frags (s : State) (o : Out) : (s.emit o).frags = s.frags := rfl
@[simp] theorem emit_keyProf (s : State) (o : Out) : (s.emit o).keyProf = s.keyProf := rfl
@[simp] theorem emit_ranges (s : State) (o : Out) : (s.emit o).ranges = s.ranges := rfl
@[simp] theorem emit_arecs (s : State) (o : Out) : (s.emit o).arecs = s.arecs := rfl
@[simp] theorem emit_tmpls (s : State) (o : Out) : (s.emit o).tmpls = s.tmpls := rfl
@[simp] theorem emit_hprofs (s : State) (o : Out) : (s.emit o).hprofs = s.hprofs := rfl
@[simp] theorem emit_tkeys (s : State) (o : Out) : (s.emit o).tkeys = s.tkeys := rfl
@[simp] theorem emit_pgrps (s : State) (o : Out) : (s.emit o).pgrps = s.pgrps := rfl
@[simp] theorem emit_stbls (s : State) (o : Out) : (s.emit o).stbls = s.stbls := rfl
@[simp] theorem emit_vports (s : State) (o : Out) : (s.emit o).vports = s.vports := rfl
@[simp] theorem emit_paces (s : State) (o : Out) : (s.emit o).paces = s.paces := rfl
@[simp] theorem emit_txq (s : State) (o : Out) : (s.emit o).txq = s.txq := rfl
@[simp] theorem emit_tables (s : State) (o : Out) : (s.emit o).tables = s.tables := rfl
@[simp] theorem emit_flushing (s : State) (o : Out) : (s.emit o).flushing = s.flushing := rfl
@[simp] theorem emit_scanning (s : State) (o : Out) : (s.emit o).scanning = s.scanning := rfl
@[simp] theorem emit_scanPos (s : State) (o : Out) : (s.emit o).scanPos = s.scanPos := rfl
@[simp] theorem emit_tableRetry (s : State) (o : Out) : (s.emit o).tableRetry = s.tableRetry := rfl
@[simp] theorem emit_scanAt (s : State) (o : Out) : (s.emit o).scanAt = s.scanAt := rfl
@[simp] theorem emit_learnQ (s : State) (o : Out) : (s.emit o).learnQ = s.learnQ := rfl
@[simp] theorem emit_nrOvr (s : State) (o : Out) : (s.emit o).nrOvr = s.nrOvr := rfl
@[simp] theorem emit_removeQ (s : State) (o : Out) : (s.emit o).removeQ = s.removeQ := rfl
@[simp] theorem emit_qps (s : State) (o : Out) : (s.emit o).qps = s.qps := rfl
@[simp] theorem emit_ctxs (s : State) (o : Out) : (s.emit o).ctxs = s.ctxs := rfl
@[simp] theorem emit_quotas (s : State) (o : Out) : (s.emit o).quotas = s.quotas := rfl
@[simp] theorem emit_hand (s : State) (o : Out) : (s.emit o).hand = s.hand := rfl
@[simp] theorem emit_lastCharge (s : State) (o : Out) : (s.emit o).lastCharge = s.lastCharge := rfl
@[simp] theorem emit_chargeRetry (s : State) (o : Out) : (s.emit o).chargeRetry = s.chargeRetry := rfl
@[simp] theorem emit_ctls (s : State) (o : Out) : (s.emit o).ctls = s.ctls := rfl
@[simp] theorem emit_nss (s : State) (o : Out) : (s.emit o).nss = s.nss := rfl
@[simp] theorem emit_bkqs (s : State) (o : Out) : (s.emit o).bkqs = s.bkqs := rfl
@[simp] theorem emit_nvCmds (s : State) (o : Out) : (s.emit o).nvCmds = s.nvCmds := rfl
@[simp] theorem emit_nextToken (s : State) (o : Out) : (s.emit o).nextToken = s.nextToken := rfl
@[simp] theorem emit_engines (s : State) (o : Out) : (s.emit o).engines = s.engines := rfl
@[simp] theorem emit_slots (s : State) (o : Out) : (s.emit o).slots = s.slots := rfl
@[simp] theorem emit_cached (s : State) (o : Out) : (s.emit o).cached = s.cached := rfl
@[simp] theorem emit_keyStage (s : State) (o : Out) : (s.emit o).keyStage = s.keyStage := rfl
@[simp] theorem emit_sas (s : State) (o : Out) : (s.emit o).sas = s.sas := rfl
@[simp] theorem emit_macStat (s : State) (o : Out) : (s.emit o).macStat = s.macStat := rfl
@[simp] theorem emit_harts (s : State) (o : Out) : (s.emit o).harts = s.harts := rfl
@[simp] theorem emit_workqs (s : State) (o : Out) : (s.emit o).workqs = s.workqs := rfl
@[simp] theorem emit_heldBy (s : State) (o : Out) : (s.emit o).heldBy = s.heldBy := rfl
@[simp] theorem emit_weights (s : State) (o : Out) : (s.emit o).weights = s.weights := rfl
@[simp] theorem emit_deficits (s : State) (o : Out) : (s.emit o).deficits = s.deficits := rfl
@[simp] theorem emit_cells (s : State) (o : Out) : (s.emit o).cells = s.cells := rfl
@[simp] theorem emit_tests (s : State) (o : Out) : (s.emit o).tests = s.tests := rfl
@[simp] theorem emit_drainAt (s : State) (o : Out) : (s.emit o).drainAt = s.drainAt := rfl
@[simp] theorem emit_canaries (s : State) (o : Out) : (s.emit o).canaries = s.canaries := rfl
@[simp] theorem emit_canNext (s : State) (o : Out) : (s.emit o).canNext = s.canNext := rfl
@[simp] theorem emit_canMiss (s : State) (o : Out) : (s.emit o).canMiss = s.canMiss := rfl
@[simp] theorem emit_memctl (s : State) (o : Out) : (s.emit o).memctl = s.memctl := rfl
@[simp] theorem emit_regions (s : State) (o : Out) : (s.emit o).regions = s.regions := rfl
@[simp] theorem emit_panic (s : State) (o : Out) : (s.emit o).panic = s.panic := rfl
@[simp] theorem emit_tenants (s : State) (o : Out) : (s.emit o).tenants = s.tenants := rfl
@[simp] theorem emit_drains (s : State) (o : Out) : (s.emit o).drains = s.drains := rfl
@[simp] theorem emit_lateReads (s : State) (o : Out) : (s.emit o).lateReads = s.lateReads := rfl
@[simp] theorem emit_met (s : State) (o : Out) : (s.emit o).met = s.met := rfl
@[simp] theorem emit_twin (s : State) (o : Out) : (s.emit o).twin = s.twin := rfl
@[simp] theorem emit_boot (s : State) (o : Out) : (s.emit o).boot = s.boot := rfl
@[simp] theorem emit_dax (s : State) (o : Out) : (s.emit o).dax = s.dax := rfl
@[simp] theorem emit_flt (s : State) (o : Out) : (s.emit o).flt = s.flt := rfl
@[simp] theorem emit_pwr (s : State) (o : Out) : (s.emit o).pwr = s.pwr := rfl

/-! ## emits -/

@[simp] theorem emits_pending (s : State) (os : List Out) : (s.emits os).pending = s.pending := rfl
@[simp] theorem emits_now (s : State) (os : List Out) : (s.emits os).now = s.now := rfl
@[simp] theorem emits_bref (s : State) (os : List Out) : (s.emits os).bref = s.bref := rfl
@[simp] theorem emits_free (s : State) (os : List Out) : (s.emits os).free = s.free := rfl
@[simp] theorem emits_mem (s : State) (os : List Out) : (s.emits os).mem = s.mem := rfl
@[simp] theorem emits_regs (s : State) (os : List Out) : (s.emits os).regs = s.regs := rfl
@[simp] theorem emits_latches (s : State) (os : List Out) : (s.emits os).latches = s.latches := rfl
@[simp] theorem emits_stages (s : State) (os : List Out) : (s.emits os).stages = s.stages := rfl
@[simp] theorem emits_snaps (s : State) (os : List Out) : (s.emits os).snaps = s.snaps := rfl
@[simp] theorem emits_running (s : State) (os : List Out) : (s.emits os).running = s.running := rfl
@[simp] theorem emits_typePend (s : State) (os : List Out) : (s.emits os).typePend = s.typePend := rfl
@[simp] theorem emits_pgState (s : State) (os : List Out) : (s.emits os).pgState = s.pgState := rfl
@[simp] theorem emits_faulted (s : State) (os : List Out) : (s.emits os).faulted = s.faulted := rfl
@[simp] theorem emits_degraded (s : State) (os : List Out) : (s.emits os).degraded = s.degraded := rfl
@[simp] theorem emits_resetting (s : State) (os : List Out) : (s.emits os).resetting = s.resetting := rfl
@[simp] theorem emits_clk (s : State) (os : List Out) : (s.emits os).clk = s.clk := rfl
@[simp] theorem emits_cal (s : State) (os : List Out) : (s.emits os).cal = s.cal := rfl
@[simp] theorem emits_hports (s : State) (os : List Out) : (s.emits os).hports = s.hports := rfl
@[simp] theorem emits_funcs (s : State) (os : List Out) : (s.emits os).funcs = s.funcs := rfl
@[simp] theorem emits_octUp (s : State) (os : List Out) : (s.emits os).octUp = s.octUp := rfl
@[simp] theorem emits_emacStat (s : State) (os : List Out) : (s.emits os).emacStat = s.emacStat := rfl
@[simp] theorem emits_windows (s : State) (os : List Out) : (s.emits os).windows = s.windows := rfl
@[simp] theorem emits_queues (s : State) (os : List Out) : (s.emits os).queues = s.queues := rfl
@[simp] theorem emits_rings (s : State) (os : List Out) : (s.emits os).rings = s.rings := rfl
@[simp] theorem emits_dma (s : State) (os : List Out) : (s.emits os).dma = s.dma := rfl
@[simp] theorem emits_nodes (s : State) (os : List Out) : (s.emits os).nodes = s.nodes := rfl
@[simp] theorem emits_banks (s : State) (os : List Out) : (s.emits os).banks = s.banks := rfl
@[simp] theorem emits_portProf (s : State) (os : List Out) : (s.emits os).portProf = s.portProf := rfl
@[simp] theorem emits_malCnt (s : State) (os : List Out) : (s.emits os).malCnt = s.malCnt := rfl
@[simp] theorem emits_frags (s : State) (os : List Out) : (s.emits os).frags = s.frags := rfl
@[simp] theorem emits_keyProf (s : State) (os : List Out) : (s.emits os).keyProf = s.keyProf := rfl
@[simp] theorem emits_ranges (s : State) (os : List Out) : (s.emits os).ranges = s.ranges := rfl
@[simp] theorem emits_arecs (s : State) (os : List Out) : (s.emits os).arecs = s.arecs := rfl
@[simp] theorem emits_tmpls (s : State) (os : List Out) : (s.emits os).tmpls = s.tmpls := rfl
@[simp] theorem emits_hprofs (s : State) (os : List Out) : (s.emits os).hprofs = s.hprofs := rfl
@[simp] theorem emits_tkeys (s : State) (os : List Out) : (s.emits os).tkeys = s.tkeys := rfl
@[simp] theorem emits_pgrps (s : State) (os : List Out) : (s.emits os).pgrps = s.pgrps := rfl
@[simp] theorem emits_stbls (s : State) (os : List Out) : (s.emits os).stbls = s.stbls := rfl
@[simp] theorem emits_vports (s : State) (os : List Out) : (s.emits os).vports = s.vports := rfl
@[simp] theorem emits_paces (s : State) (os : List Out) : (s.emits os).paces = s.paces := rfl
@[simp] theorem emits_txq (s : State) (os : List Out) : (s.emits os).txq = s.txq := rfl
@[simp] theorem emits_tables (s : State) (os : List Out) : (s.emits os).tables = s.tables := rfl
@[simp] theorem emits_flushing (s : State) (os : List Out) : (s.emits os).flushing = s.flushing := rfl
@[simp] theorem emits_scanning (s : State) (os : List Out) : (s.emits os).scanning = s.scanning := rfl
@[simp] theorem emits_scanPos (s : State) (os : List Out) : (s.emits os).scanPos = s.scanPos := rfl
@[simp] theorem emits_tableRetry (s : State) (os : List Out) : (s.emits os).tableRetry = s.tableRetry := rfl
@[simp] theorem emits_scanAt (s : State) (os : List Out) : (s.emits os).scanAt = s.scanAt := rfl
@[simp] theorem emits_learnQ (s : State) (os : List Out) : (s.emits os).learnQ = s.learnQ := rfl
@[simp] theorem emits_nrOvr (s : State) (os : List Out) : (s.emits os).nrOvr = s.nrOvr := rfl
@[simp] theorem emits_removeQ (s : State) (os : List Out) : (s.emits os).removeQ = s.removeQ := rfl
@[simp] theorem emits_qps (s : State) (os : List Out) : (s.emits os).qps = s.qps := rfl
@[simp] theorem emits_ctxs (s : State) (os : List Out) : (s.emits os).ctxs = s.ctxs := rfl
@[simp] theorem emits_quotas (s : State) (os : List Out) : (s.emits os).quotas = s.quotas := rfl
@[simp] theorem emits_hand (s : State) (os : List Out) : (s.emits os).hand = s.hand := rfl
@[simp] theorem emits_lastCharge (s : State) (os : List Out) : (s.emits os).lastCharge = s.lastCharge := rfl
@[simp] theorem emits_chargeRetry (s : State) (os : List Out) : (s.emits os).chargeRetry = s.chargeRetry := rfl
@[simp] theorem emits_ctls (s : State) (os : List Out) : (s.emits os).ctls = s.ctls := rfl
@[simp] theorem emits_nss (s : State) (os : List Out) : (s.emits os).nss = s.nss := rfl
@[simp] theorem emits_bkqs (s : State) (os : List Out) : (s.emits os).bkqs = s.bkqs := rfl
@[simp] theorem emits_nvCmds (s : State) (os : List Out) : (s.emits os).nvCmds = s.nvCmds := rfl
@[simp] theorem emits_nextToken (s : State) (os : List Out) : (s.emits os).nextToken = s.nextToken := rfl
@[simp] theorem emits_engines (s : State) (os : List Out) : (s.emits os).engines = s.engines := rfl
@[simp] theorem emits_slots (s : State) (os : List Out) : (s.emits os).slots = s.slots := rfl
@[simp] theorem emits_cached (s : State) (os : List Out) : (s.emits os).cached = s.cached := rfl
@[simp] theorem emits_keyStage (s : State) (os : List Out) : (s.emits os).keyStage = s.keyStage := rfl
@[simp] theorem emits_sas (s : State) (os : List Out) : (s.emits os).sas = s.sas := rfl
@[simp] theorem emits_macStat (s : State) (os : List Out) : (s.emits os).macStat = s.macStat := rfl
@[simp] theorem emits_harts (s : State) (os : List Out) : (s.emits os).harts = s.harts := rfl
@[simp] theorem emits_workqs (s : State) (os : List Out) : (s.emits os).workqs = s.workqs := rfl
@[simp] theorem emits_heldBy (s : State) (os : List Out) : (s.emits os).heldBy = s.heldBy := rfl
@[simp] theorem emits_weights (s : State) (os : List Out) : (s.emits os).weights = s.weights := rfl
@[simp] theorem emits_deficits (s : State) (os : List Out) : (s.emits os).deficits = s.deficits := rfl
@[simp] theorem emits_cells (s : State) (os : List Out) : (s.emits os).cells = s.cells := rfl
@[simp] theorem emits_tests (s : State) (os : List Out) : (s.emits os).tests = s.tests := rfl
@[simp] theorem emits_drainAt (s : State) (os : List Out) : (s.emits os).drainAt = s.drainAt := rfl
@[simp] theorem emits_canaries (s : State) (os : List Out) : (s.emits os).canaries = s.canaries := rfl
@[simp] theorem emits_canNext (s : State) (os : List Out) : (s.emits os).canNext = s.canNext := rfl
@[simp] theorem emits_canMiss (s : State) (os : List Out) : (s.emits os).canMiss = s.canMiss := rfl
@[simp] theorem emits_memctl (s : State) (os : List Out) : (s.emits os).memctl = s.memctl := rfl
@[simp] theorem emits_regions (s : State) (os : List Out) : (s.emits os).regions = s.regions := rfl
@[simp] theorem emits_panic (s : State) (os : List Out) : (s.emits os).panic = s.panic := rfl
@[simp] theorem emits_tenants (s : State) (os : List Out) : (s.emits os).tenants = s.tenants := rfl
@[simp] theorem emits_drains (s : State) (os : List Out) : (s.emits os).drains = s.drains := rfl
@[simp] theorem emits_lateReads (s : State) (os : List Out) : (s.emits os).lateReads = s.lateReads := rfl
@[simp] theorem emits_met (s : State) (os : List Out) : (s.emits os).met = s.met := rfl
@[simp] theorem emits_twin (s : State) (os : List Out) : (s.emits os).twin = s.twin := rfl
@[simp] theorem emits_boot (s : State) (os : List Out) : (s.emits os).boot = s.boot := rfl
@[simp] theorem emits_dax (s : State) (os : List Out) : (s.emits os).dax = s.dax := rfl
@[simp] theorem emits_flt (s : State) (os : List Out) : (s.emits os).flt = s.flt := rfl
@[simp] theorem emits_pwr (s : State) (os : List Out) : (s.emits os).pwr = s.pwr := rfl

/-! ## memPut -/

@[simp] theorem memPut_pending (s : State) (a : Nat) (bs : List Byte) : (s.memPut a bs).pending = s.pending := rfl
@[simp] theorem memPut_now (s : State) (a : Nat) (bs : List Byte) : (s.memPut a bs).now = s.now := rfl
@[simp] theorem memPut_bref (s : State) (a : Nat) (bs : List Byte) : (s.memPut a bs).bref = s.bref := rfl
@[simp] theorem memPut_free (s : State) (a : Nat) (bs : List Byte) : (s.memPut a bs).free = s.free := rfl
@[simp] theorem memPut_out (s : State) (a : Nat) (bs : List Byte) : (s.memPut a bs).out = s.out := rfl
@[simp] theorem memPut_regs (s : State) (a : Nat) (bs : List Byte) : (s.memPut a bs).regs = s.regs := rfl
@[simp] theorem memPut_latches (s : State) (a : Nat) (bs : List Byte) : (s.memPut a bs).latches = s.latches := rfl
@[simp] theorem memPut_stages (s : State) (a : Nat) (bs : List Byte) : (s.memPut a bs).stages = s.stages := rfl
@[simp] theorem memPut_snaps (s : State) (a : Nat) (bs : List Byte) : (s.memPut a bs).snaps = s.snaps := rfl
@[simp] theorem memPut_running (s : State) (a : Nat) (bs : List Byte) : (s.memPut a bs).running = s.running := rfl
@[simp] theorem memPut_typePend (s : State) (a : Nat) (bs : List Byte) : (s.memPut a bs).typePend = s.typePend := rfl
@[simp] theorem memPut_pgState (s : State) (a : Nat) (bs : List Byte) : (s.memPut a bs).pgState = s.pgState := rfl
@[simp] theorem memPut_faulted (s : State) (a : Nat) (bs : List Byte) : (s.memPut a bs).faulted = s.faulted := rfl
@[simp] theorem memPut_degraded (s : State) (a : Nat) (bs : List Byte) : (s.memPut a bs).degraded = s.degraded := rfl
@[simp] theorem memPut_resetting (s : State) (a : Nat) (bs : List Byte) : (s.memPut a bs).resetting = s.resetting := rfl
@[simp] theorem memPut_clk (s : State) (a : Nat) (bs : List Byte) : (s.memPut a bs).clk = s.clk := rfl
@[simp] theorem memPut_cal (s : State) (a : Nat) (bs : List Byte) : (s.memPut a bs).cal = s.cal := rfl
@[simp] theorem memPut_hports (s : State) (a : Nat) (bs : List Byte) : (s.memPut a bs).hports = s.hports := rfl
@[simp] theorem memPut_funcs (s : State) (a : Nat) (bs : List Byte) : (s.memPut a bs).funcs = s.funcs := rfl
@[simp] theorem memPut_octUp (s : State) (a : Nat) (bs : List Byte) : (s.memPut a bs).octUp = s.octUp := rfl
@[simp] theorem memPut_emacStat (s : State) (a : Nat) (bs : List Byte) : (s.memPut a bs).emacStat = s.emacStat := rfl
@[simp] theorem memPut_windows (s : State) (a : Nat) (bs : List Byte) : (s.memPut a bs).windows = s.windows := rfl
@[simp] theorem memPut_queues (s : State) (a : Nat) (bs : List Byte) : (s.memPut a bs).queues = s.queues := rfl
@[simp] theorem memPut_rings (s : State) (a : Nat) (bs : List Byte) : (s.memPut a bs).rings = s.rings := rfl
@[simp] theorem memPut_dma (s : State) (a : Nat) (bs : List Byte) : (s.memPut a bs).dma = s.dma := rfl
@[simp] theorem memPut_nodes (s : State) (a : Nat) (bs : List Byte) : (s.memPut a bs).nodes = s.nodes := rfl
@[simp] theorem memPut_banks (s : State) (a : Nat) (bs : List Byte) : (s.memPut a bs).banks = s.banks := rfl
@[simp] theorem memPut_portProf (s : State) (a : Nat) (bs : List Byte) : (s.memPut a bs).portProf = s.portProf := rfl
@[simp] theorem memPut_malCnt (s : State) (a : Nat) (bs : List Byte) : (s.memPut a bs).malCnt = s.malCnt := rfl
@[simp] theorem memPut_frags (s : State) (a : Nat) (bs : List Byte) : (s.memPut a bs).frags = s.frags := rfl
@[simp] theorem memPut_keyProf (s : State) (a : Nat) (bs : List Byte) : (s.memPut a bs).keyProf = s.keyProf := rfl
@[simp] theorem memPut_ranges (s : State) (a : Nat) (bs : List Byte) : (s.memPut a bs).ranges = s.ranges := rfl
@[simp] theorem memPut_arecs (s : State) (a : Nat) (bs : List Byte) : (s.memPut a bs).arecs = s.arecs := rfl
@[simp] theorem memPut_tmpls (s : State) (a : Nat) (bs : List Byte) : (s.memPut a bs).tmpls = s.tmpls := rfl
@[simp] theorem memPut_hprofs (s : State) (a : Nat) (bs : List Byte) : (s.memPut a bs).hprofs = s.hprofs := rfl
@[simp] theorem memPut_tkeys (s : State) (a : Nat) (bs : List Byte) : (s.memPut a bs).tkeys = s.tkeys := rfl
@[simp] theorem memPut_pgrps (s : State) (a : Nat) (bs : List Byte) : (s.memPut a bs).pgrps = s.pgrps := rfl
@[simp] theorem memPut_stbls (s : State) (a : Nat) (bs : List Byte) : (s.memPut a bs).stbls = s.stbls := rfl
@[simp] theorem memPut_vports (s : State) (a : Nat) (bs : List Byte) : (s.memPut a bs).vports = s.vports := rfl
@[simp] theorem memPut_paces (s : State) (a : Nat) (bs : List Byte) : (s.memPut a bs).paces = s.paces := rfl
@[simp] theorem memPut_txq (s : State) (a : Nat) (bs : List Byte) : (s.memPut a bs).txq = s.txq := rfl
@[simp] theorem memPut_tables (s : State) (a : Nat) (bs : List Byte) : (s.memPut a bs).tables = s.tables := rfl
@[simp] theorem memPut_flushing (s : State) (a : Nat) (bs : List Byte) : (s.memPut a bs).flushing = s.flushing := rfl
@[simp] theorem memPut_scanning (s : State) (a : Nat) (bs : List Byte) : (s.memPut a bs).scanning = s.scanning := rfl
@[simp] theorem memPut_scanPos (s : State) (a : Nat) (bs : List Byte) : (s.memPut a bs).scanPos = s.scanPos := rfl
@[simp] theorem memPut_tableRetry (s : State) (a : Nat) (bs : List Byte) : (s.memPut a bs).tableRetry = s.tableRetry := rfl
@[simp] theorem memPut_scanAt (s : State) (a : Nat) (bs : List Byte) : (s.memPut a bs).scanAt = s.scanAt := rfl
@[simp] theorem memPut_learnQ (s : State) (a : Nat) (bs : List Byte) : (s.memPut a bs).learnQ = s.learnQ := rfl
@[simp] theorem memPut_nrOvr (s : State) (a : Nat) (bs : List Byte) : (s.memPut a bs).nrOvr = s.nrOvr := rfl
@[simp] theorem memPut_removeQ (s : State) (a : Nat) (bs : List Byte) : (s.memPut a bs).removeQ = s.removeQ := rfl
@[simp] theorem memPut_qps (s : State) (a : Nat) (bs : List Byte) : (s.memPut a bs).qps = s.qps := rfl
@[simp] theorem memPut_ctxs (s : State) (a : Nat) (bs : List Byte) : (s.memPut a bs).ctxs = s.ctxs := rfl
@[simp] theorem memPut_quotas (s : State) (a : Nat) (bs : List Byte) : (s.memPut a bs).quotas = s.quotas := rfl
@[simp] theorem memPut_hand (s : State) (a : Nat) (bs : List Byte) : (s.memPut a bs).hand = s.hand := rfl
@[simp] theorem memPut_lastCharge (s : State) (a : Nat) (bs : List Byte) : (s.memPut a bs).lastCharge = s.lastCharge := rfl
@[simp] theorem memPut_chargeRetry (s : State) (a : Nat) (bs : List Byte) : (s.memPut a bs).chargeRetry = s.chargeRetry := rfl
@[simp] theorem memPut_ctls (s : State) (a : Nat) (bs : List Byte) : (s.memPut a bs).ctls = s.ctls := rfl
@[simp] theorem memPut_nss (s : State) (a : Nat) (bs : List Byte) : (s.memPut a bs).nss = s.nss := rfl
@[simp] theorem memPut_bkqs (s : State) (a : Nat) (bs : List Byte) : (s.memPut a bs).bkqs = s.bkqs := rfl
@[simp] theorem memPut_nvCmds (s : State) (a : Nat) (bs : List Byte) : (s.memPut a bs).nvCmds = s.nvCmds := rfl
@[simp] theorem memPut_nextToken (s : State) (a : Nat) (bs : List Byte) : (s.memPut a bs).nextToken = s.nextToken := rfl
@[simp] theorem memPut_engines (s : State) (a : Nat) (bs : List Byte) : (s.memPut a bs).engines = s.engines := rfl
@[simp] theorem memPut_slots (s : State) (a : Nat) (bs : List Byte) : (s.memPut a bs).slots = s.slots := rfl
@[simp] theorem memPut_cached (s : State) (a : Nat) (bs : List Byte) : (s.memPut a bs).cached = s.cached := rfl
@[simp] theorem memPut_keyStage (s : State) (a : Nat) (bs : List Byte) : (s.memPut a bs).keyStage = s.keyStage := rfl
@[simp] theorem memPut_sas (s : State) (a : Nat) (bs : List Byte) : (s.memPut a bs).sas = s.sas := rfl
@[simp] theorem memPut_macStat (s : State) (a : Nat) (bs : List Byte) : (s.memPut a bs).macStat = s.macStat := rfl
@[simp] theorem memPut_harts (s : State) (a : Nat) (bs : List Byte) : (s.memPut a bs).harts = s.harts := rfl
@[simp] theorem memPut_workqs (s : State) (a : Nat) (bs : List Byte) : (s.memPut a bs).workqs = s.workqs := rfl
@[simp] theorem memPut_heldBy (s : State) (a : Nat) (bs : List Byte) : (s.memPut a bs).heldBy = s.heldBy := rfl
@[simp] theorem memPut_weights (s : State) (a : Nat) (bs : List Byte) : (s.memPut a bs).weights = s.weights := rfl
@[simp] theorem memPut_deficits (s : State) (a : Nat) (bs : List Byte) : (s.memPut a bs).deficits = s.deficits := rfl
@[simp] theorem memPut_cells (s : State) (a : Nat) (bs : List Byte) : (s.memPut a bs).cells = s.cells := rfl
@[simp] theorem memPut_tests (s : State) (a : Nat) (bs : List Byte) : (s.memPut a bs).tests = s.tests := rfl
@[simp] theorem memPut_drainAt (s : State) (a : Nat) (bs : List Byte) : (s.memPut a bs).drainAt = s.drainAt := rfl
@[simp] theorem memPut_canaries (s : State) (a : Nat) (bs : List Byte) : (s.memPut a bs).canaries = s.canaries := rfl
@[simp] theorem memPut_canNext (s : State) (a : Nat) (bs : List Byte) : (s.memPut a bs).canNext = s.canNext := rfl
@[simp] theorem memPut_canMiss (s : State) (a : Nat) (bs : List Byte) : (s.memPut a bs).canMiss = s.canMiss := rfl
@[simp] theorem memPut_memctl (s : State) (a : Nat) (bs : List Byte) : (s.memPut a bs).memctl = s.memctl := rfl
@[simp] theorem memPut_regions (s : State) (a : Nat) (bs : List Byte) : (s.memPut a bs).regions = s.regions := rfl
@[simp] theorem memPut_panic (s : State) (a : Nat) (bs : List Byte) : (s.memPut a bs).panic = s.panic := rfl
@[simp] theorem memPut_tenants (s : State) (a : Nat) (bs : List Byte) : (s.memPut a bs).tenants = s.tenants := rfl
@[simp] theorem memPut_drains (s : State) (a : Nat) (bs : List Byte) : (s.memPut a bs).drains = s.drains := rfl
@[simp] theorem memPut_lateReads (s : State) (a : Nat) (bs : List Byte) : (s.memPut a bs).lateReads = s.lateReads := rfl
@[simp] theorem memPut_met (s : State) (a : Nat) (bs : List Byte) : (s.memPut a bs).met = s.met := rfl
@[simp] theorem memPut_twin (s : State) (a : Nat) (bs : List Byte) : (s.memPut a bs).twin = s.twin := rfl
@[simp] theorem memPut_boot (s : State) (a : Nat) (bs : List Byte) : (s.memPut a bs).boot = s.boot := rfl
@[simp] theorem memPut_dax (s : State) (a : Nat) (bs : List Byte) : (s.memPut a bs).dax = s.dax := rfl
@[simp] theorem memPut_flt (s : State) (a : Nat) (bs : List Byte) : (s.memPut a bs).flt = s.flt := rfl
@[simp] theorem memPut_pwr (s : State) (a : Nat) (bs : List Byte) : (s.memPut a bs).pwr = s.pwr := rfl

/-! ## memPutQ -/

@[simp] theorem memPutQ_pending (s : State) (a : Nat) (d : List Dword) : (s.memPutQ a d).pending = s.pending := rfl
@[simp] theorem memPutQ_now (s : State) (a : Nat) (d : List Dword) : (s.memPutQ a d).now = s.now := rfl
@[simp] theorem memPutQ_bref (s : State) (a : Nat) (d : List Dword) : (s.memPutQ a d).bref = s.bref := rfl
@[simp] theorem memPutQ_free (s : State) (a : Nat) (d : List Dword) : (s.memPutQ a d).free = s.free := rfl
@[simp] theorem memPutQ_out (s : State) (a : Nat) (d : List Dword) : (s.memPutQ a d).out = s.out := rfl
@[simp] theorem memPutQ_regs (s : State) (a : Nat) (d : List Dword) : (s.memPutQ a d).regs = s.regs := rfl
@[simp] theorem memPutQ_latches (s : State) (a : Nat) (d : List Dword) : (s.memPutQ a d).latches = s.latches := rfl
@[simp] theorem memPutQ_stages (s : State) (a : Nat) (d : List Dword) : (s.memPutQ a d).stages = s.stages := rfl
@[simp] theorem memPutQ_snaps (s : State) (a : Nat) (d : List Dword) : (s.memPutQ a d).snaps = s.snaps := rfl
@[simp] theorem memPutQ_running (s : State) (a : Nat) (d : List Dword) : (s.memPutQ a d).running = s.running := rfl
@[simp] theorem memPutQ_typePend (s : State) (a : Nat) (d : List Dword) : (s.memPutQ a d).typePend = s.typePend := rfl
@[simp] theorem memPutQ_pgState (s : State) (a : Nat) (d : List Dword) : (s.memPutQ a d).pgState = s.pgState := rfl
@[simp] theorem memPutQ_faulted (s : State) (a : Nat) (d : List Dword) : (s.memPutQ a d).faulted = s.faulted := rfl
@[simp] theorem memPutQ_degraded (s : State) (a : Nat) (d : List Dword) : (s.memPutQ a d).degraded = s.degraded := rfl
@[simp] theorem memPutQ_resetting (s : State) (a : Nat) (d : List Dword) : (s.memPutQ a d).resetting = s.resetting := rfl
@[simp] theorem memPutQ_clk (s : State) (a : Nat) (d : List Dword) : (s.memPutQ a d).clk = s.clk := rfl
@[simp] theorem memPutQ_cal (s : State) (a : Nat) (d : List Dword) : (s.memPutQ a d).cal = s.cal := rfl
@[simp] theorem memPutQ_hports (s : State) (a : Nat) (d : List Dword) : (s.memPutQ a d).hports = s.hports := rfl
@[simp] theorem memPutQ_funcs (s : State) (a : Nat) (d : List Dword) : (s.memPutQ a d).funcs = s.funcs := rfl
@[simp] theorem memPutQ_octUp (s : State) (a : Nat) (d : List Dword) : (s.memPutQ a d).octUp = s.octUp := rfl
@[simp] theorem memPutQ_emacStat (s : State) (a : Nat) (d : List Dword) : (s.memPutQ a d).emacStat = s.emacStat := rfl
@[simp] theorem memPutQ_windows (s : State) (a : Nat) (d : List Dword) : (s.memPutQ a d).windows = s.windows := rfl
@[simp] theorem memPutQ_queues (s : State) (a : Nat) (d : List Dword) : (s.memPutQ a d).queues = s.queues := rfl
@[simp] theorem memPutQ_rings (s : State) (a : Nat) (d : List Dword) : (s.memPutQ a d).rings = s.rings := rfl
@[simp] theorem memPutQ_dma (s : State) (a : Nat) (d : List Dword) : (s.memPutQ a d).dma = s.dma := rfl
@[simp] theorem memPutQ_nodes (s : State) (a : Nat) (d : List Dword) : (s.memPutQ a d).nodes = s.nodes := rfl
@[simp] theorem memPutQ_banks (s : State) (a : Nat) (d : List Dword) : (s.memPutQ a d).banks = s.banks := rfl
@[simp] theorem memPutQ_portProf (s : State) (a : Nat) (d : List Dword) : (s.memPutQ a d).portProf = s.portProf := rfl
@[simp] theorem memPutQ_malCnt (s : State) (a : Nat) (d : List Dword) : (s.memPutQ a d).malCnt = s.malCnt := rfl
@[simp] theorem memPutQ_frags (s : State) (a : Nat) (d : List Dword) : (s.memPutQ a d).frags = s.frags := rfl
@[simp] theorem memPutQ_keyProf (s : State) (a : Nat) (d : List Dword) : (s.memPutQ a d).keyProf = s.keyProf := rfl
@[simp] theorem memPutQ_ranges (s : State) (a : Nat) (d : List Dword) : (s.memPutQ a d).ranges = s.ranges := rfl
@[simp] theorem memPutQ_arecs (s : State) (a : Nat) (d : List Dword) : (s.memPutQ a d).arecs = s.arecs := rfl
@[simp] theorem memPutQ_tmpls (s : State) (a : Nat) (d : List Dword) : (s.memPutQ a d).tmpls = s.tmpls := rfl
@[simp] theorem memPutQ_hprofs (s : State) (a : Nat) (d : List Dword) : (s.memPutQ a d).hprofs = s.hprofs := rfl
@[simp] theorem memPutQ_tkeys (s : State) (a : Nat) (d : List Dword) : (s.memPutQ a d).tkeys = s.tkeys := rfl
@[simp] theorem memPutQ_pgrps (s : State) (a : Nat) (d : List Dword) : (s.memPutQ a d).pgrps = s.pgrps := rfl
@[simp] theorem memPutQ_stbls (s : State) (a : Nat) (d : List Dword) : (s.memPutQ a d).stbls = s.stbls := rfl
@[simp] theorem memPutQ_vports (s : State) (a : Nat) (d : List Dword) : (s.memPutQ a d).vports = s.vports := rfl
@[simp] theorem memPutQ_paces (s : State) (a : Nat) (d : List Dword) : (s.memPutQ a d).paces = s.paces := rfl
@[simp] theorem memPutQ_txq (s : State) (a : Nat) (d : List Dword) : (s.memPutQ a d).txq = s.txq := rfl
@[simp] theorem memPutQ_tables (s : State) (a : Nat) (d : List Dword) : (s.memPutQ a d).tables = s.tables := rfl
@[simp] theorem memPutQ_flushing (s : State) (a : Nat) (d : List Dword) : (s.memPutQ a d).flushing = s.flushing := rfl
@[simp] theorem memPutQ_scanning (s : State) (a : Nat) (d : List Dword) : (s.memPutQ a d).scanning = s.scanning := rfl
@[simp] theorem memPutQ_scanPos (s : State) (a : Nat) (d : List Dword) : (s.memPutQ a d).scanPos = s.scanPos := rfl
@[simp] theorem memPutQ_tableRetry (s : State) (a : Nat) (d : List Dword) : (s.memPutQ a d).tableRetry = s.tableRetry := rfl
@[simp] theorem memPutQ_scanAt (s : State) (a : Nat) (d : List Dword) : (s.memPutQ a d).scanAt = s.scanAt := rfl
@[simp] theorem memPutQ_learnQ (s : State) (a : Nat) (d : List Dword) : (s.memPutQ a d).learnQ = s.learnQ := rfl
@[simp] theorem memPutQ_nrOvr (s : State) (a : Nat) (d : List Dword) : (s.memPutQ a d).nrOvr = s.nrOvr := rfl
@[simp] theorem memPutQ_removeQ (s : State) (a : Nat) (d : List Dword) : (s.memPutQ a d).removeQ = s.removeQ := rfl
@[simp] theorem memPutQ_qps (s : State) (a : Nat) (d : List Dword) : (s.memPutQ a d).qps = s.qps := rfl
@[simp] theorem memPutQ_ctxs (s : State) (a : Nat) (d : List Dword) : (s.memPutQ a d).ctxs = s.ctxs := rfl
@[simp] theorem memPutQ_quotas (s : State) (a : Nat) (d : List Dword) : (s.memPutQ a d).quotas = s.quotas := rfl
@[simp] theorem memPutQ_hand (s : State) (a : Nat) (d : List Dword) : (s.memPutQ a d).hand = s.hand := rfl
@[simp] theorem memPutQ_lastCharge (s : State) (a : Nat) (d : List Dword) : (s.memPutQ a d).lastCharge = s.lastCharge := rfl
@[simp] theorem memPutQ_chargeRetry (s : State) (a : Nat) (d : List Dword) : (s.memPutQ a d).chargeRetry = s.chargeRetry := rfl
@[simp] theorem memPutQ_ctls (s : State) (a : Nat) (d : List Dword) : (s.memPutQ a d).ctls = s.ctls := rfl
@[simp] theorem memPutQ_nss (s : State) (a : Nat) (d : List Dword) : (s.memPutQ a d).nss = s.nss := rfl
@[simp] theorem memPutQ_bkqs (s : State) (a : Nat) (d : List Dword) : (s.memPutQ a d).bkqs = s.bkqs := rfl
@[simp] theorem memPutQ_nvCmds (s : State) (a : Nat) (d : List Dword) : (s.memPutQ a d).nvCmds = s.nvCmds := rfl
@[simp] theorem memPutQ_nextToken (s : State) (a : Nat) (d : List Dword) : (s.memPutQ a d).nextToken = s.nextToken := rfl
@[simp] theorem memPutQ_engines (s : State) (a : Nat) (d : List Dword) : (s.memPutQ a d).engines = s.engines := rfl
@[simp] theorem memPutQ_slots (s : State) (a : Nat) (d : List Dword) : (s.memPutQ a d).slots = s.slots := rfl
@[simp] theorem memPutQ_cached (s : State) (a : Nat) (d : List Dword) : (s.memPutQ a d).cached = s.cached := rfl
@[simp] theorem memPutQ_keyStage (s : State) (a : Nat) (d : List Dword) : (s.memPutQ a d).keyStage = s.keyStage := rfl
@[simp] theorem memPutQ_sas (s : State) (a : Nat) (d : List Dword) : (s.memPutQ a d).sas = s.sas := rfl
@[simp] theorem memPutQ_macStat (s : State) (a : Nat) (d : List Dword) : (s.memPutQ a d).macStat = s.macStat := rfl
@[simp] theorem memPutQ_harts (s : State) (a : Nat) (d : List Dword) : (s.memPutQ a d).harts = s.harts := rfl
@[simp] theorem memPutQ_workqs (s : State) (a : Nat) (d : List Dword) : (s.memPutQ a d).workqs = s.workqs := rfl
@[simp] theorem memPutQ_heldBy (s : State) (a : Nat) (d : List Dword) : (s.memPutQ a d).heldBy = s.heldBy := rfl
@[simp] theorem memPutQ_weights (s : State) (a : Nat) (d : List Dword) : (s.memPutQ a d).weights = s.weights := rfl
@[simp] theorem memPutQ_deficits (s : State) (a : Nat) (d : List Dword) : (s.memPutQ a d).deficits = s.deficits := rfl
@[simp] theorem memPutQ_cells (s : State) (a : Nat) (d : List Dword) : (s.memPutQ a d).cells = s.cells := rfl
@[simp] theorem memPutQ_tests (s : State) (a : Nat) (d : List Dword) : (s.memPutQ a d).tests = s.tests := rfl
@[simp] theorem memPutQ_drainAt (s : State) (a : Nat) (d : List Dword) : (s.memPutQ a d).drainAt = s.drainAt := rfl
@[simp] theorem memPutQ_canaries (s : State) (a : Nat) (d : List Dword) : (s.memPutQ a d).canaries = s.canaries := rfl
@[simp] theorem memPutQ_canNext (s : State) (a : Nat) (d : List Dword) : (s.memPutQ a d).canNext = s.canNext := rfl
@[simp] theorem memPutQ_canMiss (s : State) (a : Nat) (d : List Dword) : (s.memPutQ a d).canMiss = s.canMiss := rfl
@[simp] theorem memPutQ_memctl (s : State) (a : Nat) (d : List Dword) : (s.memPutQ a d).memctl = s.memctl := rfl
@[simp] theorem memPutQ_regions (s : State) (a : Nat) (d : List Dword) : (s.memPutQ a d).regions = s.regions := rfl
@[simp] theorem memPutQ_panic (s : State) (a : Nat) (d : List Dword) : (s.memPutQ a d).panic = s.panic := rfl
@[simp] theorem memPutQ_tenants (s : State) (a : Nat) (d : List Dword) : (s.memPutQ a d).tenants = s.tenants := rfl
@[simp] theorem memPutQ_drains (s : State) (a : Nat) (d : List Dword) : (s.memPutQ a d).drains = s.drains := rfl
@[simp] theorem memPutQ_lateReads (s : State) (a : Nat) (d : List Dword) : (s.memPutQ a d).lateReads = s.lateReads := rfl
@[simp] theorem memPutQ_met (s : State) (a : Nat) (d : List Dword) : (s.memPutQ a d).met = s.met := rfl
@[simp] theorem memPutQ_twin (s : State) (a : Nat) (d : List Dword) : (s.memPutQ a d).twin = s.twin := rfl
@[simp] theorem memPutQ_boot (s : State) (a : Nat) (d : List Dword) : (s.memPutQ a d).boot = s.boot := rfl
@[simp] theorem memPutQ_dax (s : State) (a : Nat) (d : List Dword) : (s.memPutQ a d).dax = s.dax := rfl
@[simp] theorem memPutQ_flt (s : State) (a : Nat) (d : List Dword) : (s.memPutQ a d).flt = s.flt := rfl
@[simp] theorem memPutQ_pwr (s : State) (a : Nat) (d : List Dword) : (s.memPutQ a d).pwr = s.pwr := rfl

/-! ## wrA -/

@[simp] theorem wrA_pending (s : State) (a : Nat) (v : Word) : (s.wrA a v).pending = s.pending := rfl
@[simp] theorem wrA_now (s : State) (a : Nat) (v : Word) : (s.wrA a v).now = s.now := rfl
@[simp] theorem wrA_bref (s : State) (a : Nat) (v : Word) : (s.wrA a v).bref = s.bref := rfl
@[simp] theorem wrA_free (s : State) (a : Nat) (v : Word) : (s.wrA a v).free = s.free := rfl
@[simp] theorem wrA_out (s : State) (a : Nat) (v : Word) : (s.wrA a v).out = s.out := rfl
@[simp] theorem wrA_mem (s : State) (a : Nat) (v : Word) : (s.wrA a v).mem = s.mem := rfl
@[simp] theorem wrA_latches (s : State) (a : Nat) (v : Word) : (s.wrA a v).latches = s.latches := rfl
@[simp] theorem wrA_stages (s : State) (a : Nat) (v : Word) : (s.wrA a v).stages = s.stages := rfl
@[simp] theorem wrA_snaps (s : State) (a : Nat) (v : Word) : (s.wrA a v).snaps = s.snaps := rfl
@[simp] theorem wrA_running (s : State) (a : Nat) (v : Word) : (s.wrA a v).running = s.running := rfl
@[simp] theorem wrA_typePend (s : State) (a : Nat) (v : Word) : (s.wrA a v).typePend = s.typePend := rfl
@[simp] theorem wrA_pgState (s : State) (a : Nat) (v : Word) : (s.wrA a v).pgState = s.pgState := rfl
@[simp] theorem wrA_faulted (s : State) (a : Nat) (v : Word) : (s.wrA a v).faulted = s.faulted := rfl
@[simp] theorem wrA_degraded (s : State) (a : Nat) (v : Word) : (s.wrA a v).degraded = s.degraded := rfl
@[simp] theorem wrA_resetting (s : State) (a : Nat) (v : Word) : (s.wrA a v).resetting = s.resetting := rfl
@[simp] theorem wrA_clk (s : State) (a : Nat) (v : Word) : (s.wrA a v).clk = s.clk := rfl
@[simp] theorem wrA_cal (s : State) (a : Nat) (v : Word) : (s.wrA a v).cal = s.cal := rfl
@[simp] theorem wrA_hports (s : State) (a : Nat) (v : Word) : (s.wrA a v).hports = s.hports := rfl
@[simp] theorem wrA_funcs (s : State) (a : Nat) (v : Word) : (s.wrA a v).funcs = s.funcs := rfl
@[simp] theorem wrA_octUp (s : State) (a : Nat) (v : Word) : (s.wrA a v).octUp = s.octUp := rfl
@[simp] theorem wrA_emacStat (s : State) (a : Nat) (v : Word) : (s.wrA a v).emacStat = s.emacStat := rfl
@[simp] theorem wrA_windows (s : State) (a : Nat) (v : Word) : (s.wrA a v).windows = s.windows := rfl
@[simp] theorem wrA_queues (s : State) (a : Nat) (v : Word) : (s.wrA a v).queues = s.queues := rfl
@[simp] theorem wrA_rings (s : State) (a : Nat) (v : Word) : (s.wrA a v).rings = s.rings := rfl
@[simp] theorem wrA_dma (s : State) (a : Nat) (v : Word) : (s.wrA a v).dma = s.dma := rfl
@[simp] theorem wrA_nodes (s : State) (a : Nat) (v : Word) : (s.wrA a v).nodes = s.nodes := rfl
@[simp] theorem wrA_banks (s : State) (a : Nat) (v : Word) : (s.wrA a v).banks = s.banks := rfl
@[simp] theorem wrA_portProf (s : State) (a : Nat) (v : Word) : (s.wrA a v).portProf = s.portProf := rfl
@[simp] theorem wrA_malCnt (s : State) (a : Nat) (v : Word) : (s.wrA a v).malCnt = s.malCnt := rfl
@[simp] theorem wrA_frags (s : State) (a : Nat) (v : Word) : (s.wrA a v).frags = s.frags := rfl
@[simp] theorem wrA_keyProf (s : State) (a : Nat) (v : Word) : (s.wrA a v).keyProf = s.keyProf := rfl
@[simp] theorem wrA_ranges (s : State) (a : Nat) (v : Word) : (s.wrA a v).ranges = s.ranges := rfl
@[simp] theorem wrA_arecs (s : State) (a : Nat) (v : Word) : (s.wrA a v).arecs = s.arecs := rfl
@[simp] theorem wrA_tmpls (s : State) (a : Nat) (v : Word) : (s.wrA a v).tmpls = s.tmpls := rfl
@[simp] theorem wrA_hprofs (s : State) (a : Nat) (v : Word) : (s.wrA a v).hprofs = s.hprofs := rfl
@[simp] theorem wrA_tkeys (s : State) (a : Nat) (v : Word) : (s.wrA a v).tkeys = s.tkeys := rfl
@[simp] theorem wrA_pgrps (s : State) (a : Nat) (v : Word) : (s.wrA a v).pgrps = s.pgrps := rfl
@[simp] theorem wrA_stbls (s : State) (a : Nat) (v : Word) : (s.wrA a v).stbls = s.stbls := rfl
@[simp] theorem wrA_vports (s : State) (a : Nat) (v : Word) : (s.wrA a v).vports = s.vports := rfl
@[simp] theorem wrA_paces (s : State) (a : Nat) (v : Word) : (s.wrA a v).paces = s.paces := rfl
@[simp] theorem wrA_txq (s : State) (a : Nat) (v : Word) : (s.wrA a v).txq = s.txq := rfl
@[simp] theorem wrA_tables (s : State) (a : Nat) (v : Word) : (s.wrA a v).tables = s.tables := rfl
@[simp] theorem wrA_flushing (s : State) (a : Nat) (v : Word) : (s.wrA a v).flushing = s.flushing := rfl
@[simp] theorem wrA_scanning (s : State) (a : Nat) (v : Word) : (s.wrA a v).scanning = s.scanning := rfl
@[simp] theorem wrA_scanPos (s : State) (a : Nat) (v : Word) : (s.wrA a v).scanPos = s.scanPos := rfl
@[simp] theorem wrA_tableRetry (s : State) (a : Nat) (v : Word) : (s.wrA a v).tableRetry = s.tableRetry := rfl
@[simp] theorem wrA_scanAt (s : State) (a : Nat) (v : Word) : (s.wrA a v).scanAt = s.scanAt := rfl
@[simp] theorem wrA_learnQ (s : State) (a : Nat) (v : Word) : (s.wrA a v).learnQ = s.learnQ := rfl
@[simp] theorem wrA_nrOvr (s : State) (a : Nat) (v : Word) : (s.wrA a v).nrOvr = s.nrOvr := rfl
@[simp] theorem wrA_removeQ (s : State) (a : Nat) (v : Word) : (s.wrA a v).removeQ = s.removeQ := rfl
@[simp] theorem wrA_qps (s : State) (a : Nat) (v : Word) : (s.wrA a v).qps = s.qps := rfl
@[simp] theorem wrA_ctxs (s : State) (a : Nat) (v : Word) : (s.wrA a v).ctxs = s.ctxs := rfl
@[simp] theorem wrA_quotas (s : State) (a : Nat) (v : Word) : (s.wrA a v).quotas = s.quotas := rfl
@[simp] theorem wrA_hand (s : State) (a : Nat) (v : Word) : (s.wrA a v).hand = s.hand := rfl
@[simp] theorem wrA_lastCharge (s : State) (a : Nat) (v : Word) : (s.wrA a v).lastCharge = s.lastCharge := rfl
@[simp] theorem wrA_chargeRetry (s : State) (a : Nat) (v : Word) : (s.wrA a v).chargeRetry = s.chargeRetry := rfl
@[simp] theorem wrA_ctls (s : State) (a : Nat) (v : Word) : (s.wrA a v).ctls = s.ctls := rfl
@[simp] theorem wrA_nss (s : State) (a : Nat) (v : Word) : (s.wrA a v).nss = s.nss := rfl
@[simp] theorem wrA_bkqs (s : State) (a : Nat) (v : Word) : (s.wrA a v).bkqs = s.bkqs := rfl
@[simp] theorem wrA_nvCmds (s : State) (a : Nat) (v : Word) : (s.wrA a v).nvCmds = s.nvCmds := rfl
@[simp] theorem wrA_nextToken (s : State) (a : Nat) (v : Word) : (s.wrA a v).nextToken = s.nextToken := rfl
@[simp] theorem wrA_engines (s : State) (a : Nat) (v : Word) : (s.wrA a v).engines = s.engines := rfl
@[simp] theorem wrA_slots (s : State) (a : Nat) (v : Word) : (s.wrA a v).slots = s.slots := rfl
@[simp] theorem wrA_cached (s : State) (a : Nat) (v : Word) : (s.wrA a v).cached = s.cached := rfl
@[simp] theorem wrA_keyStage (s : State) (a : Nat) (v : Word) : (s.wrA a v).keyStage = s.keyStage := rfl
@[simp] theorem wrA_sas (s : State) (a : Nat) (v : Word) : (s.wrA a v).sas = s.sas := rfl
@[simp] theorem wrA_macStat (s : State) (a : Nat) (v : Word) : (s.wrA a v).macStat = s.macStat := rfl
@[simp] theorem wrA_harts (s : State) (a : Nat) (v : Word) : (s.wrA a v).harts = s.harts := rfl
@[simp] theorem wrA_workqs (s : State) (a : Nat) (v : Word) : (s.wrA a v).workqs = s.workqs := rfl
@[simp] theorem wrA_heldBy (s : State) (a : Nat) (v : Word) : (s.wrA a v).heldBy = s.heldBy := rfl
@[simp] theorem wrA_weights (s : State) (a : Nat) (v : Word) : (s.wrA a v).weights = s.weights := rfl
@[simp] theorem wrA_deficits (s : State) (a : Nat) (v : Word) : (s.wrA a v).deficits = s.deficits := rfl
@[simp] theorem wrA_cells (s : State) (a : Nat) (v : Word) : (s.wrA a v).cells = s.cells := rfl
@[simp] theorem wrA_tests (s : State) (a : Nat) (v : Word) : (s.wrA a v).tests = s.tests := rfl
@[simp] theorem wrA_drainAt (s : State) (a : Nat) (v : Word) : (s.wrA a v).drainAt = s.drainAt := rfl
@[simp] theorem wrA_canaries (s : State) (a : Nat) (v : Word) : (s.wrA a v).canaries = s.canaries := rfl
@[simp] theorem wrA_canNext (s : State) (a : Nat) (v : Word) : (s.wrA a v).canNext = s.canNext := rfl
@[simp] theorem wrA_canMiss (s : State) (a : Nat) (v : Word) : (s.wrA a v).canMiss = s.canMiss := rfl
@[simp] theorem wrA_memctl (s : State) (a : Nat) (v : Word) : (s.wrA a v).memctl = s.memctl := rfl
@[simp] theorem wrA_regions (s : State) (a : Nat) (v : Word) : (s.wrA a v).regions = s.regions := rfl
@[simp] theorem wrA_panic (s : State) (a : Nat) (v : Word) : (s.wrA a v).panic = s.panic := rfl
@[simp] theorem wrA_tenants (s : State) (a : Nat) (v : Word) : (s.wrA a v).tenants = s.tenants := rfl
@[simp] theorem wrA_drains (s : State) (a : Nat) (v : Word) : (s.wrA a v).drains = s.drains := rfl
@[simp] theorem wrA_lateReads (s : State) (a : Nat) (v : Word) : (s.wrA a v).lateReads = s.lateReads := rfl
@[simp] theorem wrA_met (s : State) (a : Nat) (v : Word) : (s.wrA a v).met = s.met := rfl
@[simp] theorem wrA_twin (s : State) (a : Nat) (v : Word) : (s.wrA a v).twin = s.twin := rfl
@[simp] theorem wrA_boot (s : State) (a : Nat) (v : Word) : (s.wrA a v).boot = s.boot := rfl
@[simp] theorem wrA_dax (s : State) (a : Nat) (v : Word) : (s.wrA a v).dax = s.dax := rfl
@[simp] theorem wrA_flt (s : State) (a : Nat) (v : Word) : (s.wrA a v).flt = s.flt := rfl
@[simp] theorem wrA_pwr (s : State) (a : Nat) (v : Word) : (s.wrA a v).pwr = s.pwr := rfl

/-! ## wr -/

@[simp] theorem wr_pending (s : State) (r : RegId) (i v k : Nat) : (s.wr r i v k).pending = s.pending := wrA_pending s _ _
@[simp] theorem wr_now (s : State) (r : RegId) (i v k : Nat) : (s.wr r i v k).now = s.now := wrA_now s _ _
@[simp] theorem wr_bref (s : State) (r : RegId) (i v k : Nat) : (s.wr r i v k).bref = s.bref := wrA_bref s _ _
@[simp] theorem wr_free (s : State) (r : RegId) (i v k : Nat) : (s.wr r i v k).free = s.free := wrA_free s _ _
@[simp] theorem wr_out (s : State) (r : RegId) (i v k : Nat) : (s.wr r i v k).out = s.out := wrA_out s _ _
@[simp] theorem wr_mem (s : State) (r : RegId) (i v k : Nat) : (s.wr r i v k).mem = s.mem := wrA_mem s _ _
@[simp] theorem wr_latches (s : State) (r : RegId) (i v k : Nat) : (s.wr r i v k).latches = s.latches := wrA_latches s _ _
@[simp] theorem wr_stages (s : State) (r : RegId) (i v k : Nat) : (s.wr r i v k).stages = s.stages := wrA_stages s _ _
@[simp] theorem wr_snaps (s : State) (r : RegId) (i v k : Nat) : (s.wr r i v k).snaps = s.snaps := wrA_snaps s _ _
@[simp] theorem wr_running (s : State) (r : RegId) (i v k : Nat) : (s.wr r i v k).running = s.running := wrA_running s _ _
@[simp] theorem wr_typePend (s : State) (r : RegId) (i v k : Nat) : (s.wr r i v k).typePend = s.typePend := wrA_typePend s _ _
@[simp] theorem wr_pgState (s : State) (r : RegId) (i v k : Nat) : (s.wr r i v k).pgState = s.pgState := wrA_pgState s _ _
@[simp] theorem wr_faulted (s : State) (r : RegId) (i v k : Nat) : (s.wr r i v k).faulted = s.faulted := wrA_faulted s _ _
@[simp] theorem wr_degraded (s : State) (r : RegId) (i v k : Nat) : (s.wr r i v k).degraded = s.degraded := wrA_degraded s _ _
@[simp] theorem wr_resetting (s : State) (r : RegId) (i v k : Nat) : (s.wr r i v k).resetting = s.resetting := wrA_resetting s _ _
@[simp] theorem wr_clk (s : State) (r : RegId) (i v k : Nat) : (s.wr r i v k).clk = s.clk := wrA_clk s _ _
@[simp] theorem wr_cal (s : State) (r : RegId) (i v k : Nat) : (s.wr r i v k).cal = s.cal := wrA_cal s _ _
@[simp] theorem wr_hports (s : State) (r : RegId) (i v k : Nat) : (s.wr r i v k).hports = s.hports := wrA_hports s _ _
@[simp] theorem wr_funcs (s : State) (r : RegId) (i v k : Nat) : (s.wr r i v k).funcs = s.funcs := wrA_funcs s _ _
@[simp] theorem wr_octUp (s : State) (r : RegId) (i v k : Nat) : (s.wr r i v k).octUp = s.octUp := wrA_octUp s _ _
@[simp] theorem wr_emacStat (s : State) (r : RegId) (i v k : Nat) : (s.wr r i v k).emacStat = s.emacStat := wrA_emacStat s _ _
@[simp] theorem wr_windows (s : State) (r : RegId) (i v k : Nat) : (s.wr r i v k).windows = s.windows := wrA_windows s _ _
@[simp] theorem wr_queues (s : State) (r : RegId) (i v k : Nat) : (s.wr r i v k).queues = s.queues := wrA_queues s _ _
@[simp] theorem wr_rings (s : State) (r : RegId) (i v k : Nat) : (s.wr r i v k).rings = s.rings := wrA_rings s _ _
@[simp] theorem wr_dma (s : State) (r : RegId) (i v k : Nat) : (s.wr r i v k).dma = s.dma := wrA_dma s _ _
@[simp] theorem wr_nodes (s : State) (r : RegId) (i v k : Nat) : (s.wr r i v k).nodes = s.nodes := wrA_nodes s _ _
@[simp] theorem wr_banks (s : State) (r : RegId) (i v k : Nat) : (s.wr r i v k).banks = s.banks := wrA_banks s _ _
@[simp] theorem wr_portProf (s : State) (r : RegId) (i v k : Nat) : (s.wr r i v k).portProf = s.portProf := wrA_portProf s _ _
@[simp] theorem wr_malCnt (s : State) (r : RegId) (i v k : Nat) : (s.wr r i v k).malCnt = s.malCnt := wrA_malCnt s _ _
@[simp] theorem wr_frags (s : State) (r : RegId) (i v k : Nat) : (s.wr r i v k).frags = s.frags := wrA_frags s _ _
@[simp] theorem wr_keyProf (s : State) (r : RegId) (i v k : Nat) : (s.wr r i v k).keyProf = s.keyProf := wrA_keyProf s _ _
@[simp] theorem wr_ranges (s : State) (r : RegId) (i v k : Nat) : (s.wr r i v k).ranges = s.ranges := wrA_ranges s _ _
@[simp] theorem wr_arecs (s : State) (r : RegId) (i v k : Nat) : (s.wr r i v k).arecs = s.arecs := wrA_arecs s _ _
@[simp] theorem wr_tmpls (s : State) (r : RegId) (i v k : Nat) : (s.wr r i v k).tmpls = s.tmpls := wrA_tmpls s _ _
@[simp] theorem wr_hprofs (s : State) (r : RegId) (i v k : Nat) : (s.wr r i v k).hprofs = s.hprofs := wrA_hprofs s _ _
@[simp] theorem wr_tkeys (s : State) (r : RegId) (i v k : Nat) : (s.wr r i v k).tkeys = s.tkeys := wrA_tkeys s _ _
@[simp] theorem wr_pgrps (s : State) (r : RegId) (i v k : Nat) : (s.wr r i v k).pgrps = s.pgrps := wrA_pgrps s _ _
@[simp] theorem wr_stbls (s : State) (r : RegId) (i v k : Nat) : (s.wr r i v k).stbls = s.stbls := wrA_stbls s _ _
@[simp] theorem wr_vports (s : State) (r : RegId) (i v k : Nat) : (s.wr r i v k).vports = s.vports := wrA_vports s _ _
@[simp] theorem wr_paces (s : State) (r : RegId) (i v k : Nat) : (s.wr r i v k).paces = s.paces := wrA_paces s _ _
@[simp] theorem wr_txq (s : State) (r : RegId) (i v k : Nat) : (s.wr r i v k).txq = s.txq := wrA_txq s _ _
@[simp] theorem wr_tables (s : State) (r : RegId) (i v k : Nat) : (s.wr r i v k).tables = s.tables := wrA_tables s _ _
@[simp] theorem wr_flushing (s : State) (r : RegId) (i v k : Nat) : (s.wr r i v k).flushing = s.flushing := wrA_flushing s _ _
@[simp] theorem wr_scanning (s : State) (r : RegId) (i v k : Nat) : (s.wr r i v k).scanning = s.scanning := wrA_scanning s _ _
@[simp] theorem wr_scanPos (s : State) (r : RegId) (i v k : Nat) : (s.wr r i v k).scanPos = s.scanPos := wrA_scanPos s _ _
@[simp] theorem wr_tableRetry (s : State) (r : RegId) (i v k : Nat) : (s.wr r i v k).tableRetry = s.tableRetry := wrA_tableRetry s _ _
@[simp] theorem wr_scanAt (s : State) (r : RegId) (i v k : Nat) : (s.wr r i v k).scanAt = s.scanAt := wrA_scanAt s _ _
@[simp] theorem wr_learnQ (s : State) (r : RegId) (i v k : Nat) : (s.wr r i v k).learnQ = s.learnQ := wrA_learnQ s _ _
@[simp] theorem wr_nrOvr (s : State) (r : RegId) (i v k : Nat) : (s.wr r i v k).nrOvr = s.nrOvr := wrA_nrOvr s _ _
@[simp] theorem wr_removeQ (s : State) (r : RegId) (i v k : Nat) : (s.wr r i v k).removeQ = s.removeQ := wrA_removeQ s _ _
@[simp] theorem wr_qps (s : State) (r : RegId) (i v k : Nat) : (s.wr r i v k).qps = s.qps := wrA_qps s _ _
@[simp] theorem wr_ctxs (s : State) (r : RegId) (i v k : Nat) : (s.wr r i v k).ctxs = s.ctxs := wrA_ctxs s _ _
@[simp] theorem wr_quotas (s : State) (r : RegId) (i v k : Nat) : (s.wr r i v k).quotas = s.quotas := wrA_quotas s _ _
@[simp] theorem wr_hand (s : State) (r : RegId) (i v k : Nat) : (s.wr r i v k).hand = s.hand := wrA_hand s _ _
@[simp] theorem wr_lastCharge (s : State) (r : RegId) (i v k : Nat) : (s.wr r i v k).lastCharge = s.lastCharge := wrA_lastCharge s _ _
@[simp] theorem wr_chargeRetry (s : State) (r : RegId) (i v k : Nat) : (s.wr r i v k).chargeRetry = s.chargeRetry := wrA_chargeRetry s _ _
@[simp] theorem wr_ctls (s : State) (r : RegId) (i v k : Nat) : (s.wr r i v k).ctls = s.ctls := wrA_ctls s _ _
@[simp] theorem wr_nss (s : State) (r : RegId) (i v k : Nat) : (s.wr r i v k).nss = s.nss := wrA_nss s _ _
@[simp] theorem wr_bkqs (s : State) (r : RegId) (i v k : Nat) : (s.wr r i v k).bkqs = s.bkqs := wrA_bkqs s _ _
@[simp] theorem wr_nvCmds (s : State) (r : RegId) (i v k : Nat) : (s.wr r i v k).nvCmds = s.nvCmds := wrA_nvCmds s _ _
@[simp] theorem wr_nextToken (s : State) (r : RegId) (i v k : Nat) : (s.wr r i v k).nextToken = s.nextToken := wrA_nextToken s _ _
@[simp] theorem wr_engines (s : State) (r : RegId) (i v k : Nat) : (s.wr r i v k).engines = s.engines := wrA_engines s _ _
@[simp] theorem wr_slots (s : State) (r : RegId) (i v k : Nat) : (s.wr r i v k).slots = s.slots := wrA_slots s _ _
@[simp] theorem wr_cached (s : State) (r : RegId) (i v k : Nat) : (s.wr r i v k).cached = s.cached := wrA_cached s _ _
@[simp] theorem wr_keyStage (s : State) (r : RegId) (i v k : Nat) : (s.wr r i v k).keyStage = s.keyStage := wrA_keyStage s _ _
@[simp] theorem wr_sas (s : State) (r : RegId) (i v k : Nat) : (s.wr r i v k).sas = s.sas := wrA_sas s _ _
@[simp] theorem wr_macStat (s : State) (r : RegId) (i v k : Nat) : (s.wr r i v k).macStat = s.macStat := wrA_macStat s _ _
@[simp] theorem wr_harts (s : State) (r : RegId) (i v k : Nat) : (s.wr r i v k).harts = s.harts := wrA_harts s _ _
@[simp] theorem wr_workqs (s : State) (r : RegId) (i v k : Nat) : (s.wr r i v k).workqs = s.workqs := wrA_workqs s _ _
@[simp] theorem wr_heldBy (s : State) (r : RegId) (i v k : Nat) : (s.wr r i v k).heldBy = s.heldBy := wrA_heldBy s _ _
@[simp] theorem wr_weights (s : State) (r : RegId) (i v k : Nat) : (s.wr r i v k).weights = s.weights := wrA_weights s _ _
@[simp] theorem wr_deficits (s : State) (r : RegId) (i v k : Nat) : (s.wr r i v k).deficits = s.deficits := wrA_deficits s _ _
@[simp] theorem wr_cells (s : State) (r : RegId) (i v k : Nat) : (s.wr r i v k).cells = s.cells := wrA_cells s _ _
@[simp] theorem wr_tests (s : State) (r : RegId) (i v k : Nat) : (s.wr r i v k).tests = s.tests := wrA_tests s _ _
@[simp] theorem wr_drainAt (s : State) (r : RegId) (i v k : Nat) : (s.wr r i v k).drainAt = s.drainAt := wrA_drainAt s _ _
@[simp] theorem wr_canaries (s : State) (r : RegId) (i v k : Nat) : (s.wr r i v k).canaries = s.canaries := wrA_canaries s _ _
@[simp] theorem wr_canNext (s : State) (r : RegId) (i v k : Nat) : (s.wr r i v k).canNext = s.canNext := wrA_canNext s _ _
@[simp] theorem wr_canMiss (s : State) (r : RegId) (i v k : Nat) : (s.wr r i v k).canMiss = s.canMiss := wrA_canMiss s _ _
@[simp] theorem wr_memctl (s : State) (r : RegId) (i v k : Nat) : (s.wr r i v k).memctl = s.memctl := wrA_memctl s _ _
@[simp] theorem wr_regions (s : State) (r : RegId) (i v k : Nat) : (s.wr r i v k).regions = s.regions := wrA_regions s _ _
@[simp] theorem wr_panic (s : State) (r : RegId) (i v k : Nat) : (s.wr r i v k).panic = s.panic := wrA_panic s _ _
@[simp] theorem wr_tenants (s : State) (r : RegId) (i v k : Nat) : (s.wr r i v k).tenants = s.tenants := wrA_tenants s _ _
@[simp] theorem wr_drains (s : State) (r : RegId) (i v k : Nat) : (s.wr r i v k).drains = s.drains := wrA_drains s _ _
@[simp] theorem wr_lateReads (s : State) (r : RegId) (i v k : Nat) : (s.wr r i v k).lateReads = s.lateReads := wrA_lateReads s _ _
@[simp] theorem wr_met (s : State) (r : RegId) (i v k : Nat) : (s.wr r i v k).met = s.met := wrA_met s _ _
@[simp] theorem wr_twin (s : State) (r : RegId) (i v k : Nat) : (s.wr r i v k).twin = s.twin := wrA_twin s _ _
@[simp] theorem wr_boot (s : State) (r : RegId) (i v k : Nat) : (s.wr r i v k).boot = s.boot := wrA_boot s _ _
@[simp] theorem wr_dax (s : State) (r : RegId) (i v k : Nat) : (s.wr r i v k).dax = s.dax := wrA_dax s _ _
@[simp] theorem wr_flt (s : State) (r : RegId) (i v k : Nat) : (s.wr r i v k).flt = s.flt := wrA_flt s _ _
@[simp] theorem wr_pwr (s : State) (r : RegId) (i v k : Nat) : (s.wr r i v k).pwr = s.pwr := wrA_pwr s _ _

/-! ## wr64 -/

@[simp] theorem wr64_pending (s : State) (r : RegId) (i v k : Nat) : (s.wr64 r i v k).pending = s.pending := (wr_pending _ _ _ _ _).trans (wr_pending _ _ _ _ _)
@[simp] theorem wr64_now (s : State) (r : RegId) (i v k : Nat) : (s.wr64 r i v k).now = s.now := (wr_now _ _ _ _ _).trans (wr_now _ _ _ _ _)
@[simp] theorem wr64_bref (s : State) (r : RegId) (i v k : Nat) : (s.wr64 r i v k).bref = s.bref := (wr_bref _ _ _ _ _).trans (wr_bref _ _ _ _ _)
@[simp] theorem wr64_free (s : State) (r : RegId) (i v k : Nat) : (s.wr64 r i v k).free = s.free := (wr_free _ _ _ _ _).trans (wr_free _ _ _ _ _)
@[simp] theorem wr64_out (s : State) (r : RegId) (i v k : Nat) : (s.wr64 r i v k).out = s.out := (wr_out _ _ _ _ _).trans (wr_out _ _ _ _ _)
@[simp] theorem wr64_mem (s : State) (r : RegId) (i v k : Nat) : (s.wr64 r i v k).mem = s.mem := (wr_mem _ _ _ _ _).trans (wr_mem _ _ _ _ _)
@[simp] theorem wr64_latches (s : State) (r : RegId) (i v k : Nat) : (s.wr64 r i v k).latches = s.latches := (wr_latches _ _ _ _ _).trans (wr_latches _ _ _ _ _)
@[simp] theorem wr64_stages (s : State) (r : RegId) (i v k : Nat) : (s.wr64 r i v k).stages = s.stages := (wr_stages _ _ _ _ _).trans (wr_stages _ _ _ _ _)
@[simp] theorem wr64_snaps (s : State) (r : RegId) (i v k : Nat) : (s.wr64 r i v k).snaps = s.snaps := (wr_snaps _ _ _ _ _).trans (wr_snaps _ _ _ _ _)
@[simp] theorem wr64_running (s : State) (r : RegId) (i v k : Nat) : (s.wr64 r i v k).running = s.running := (wr_running _ _ _ _ _).trans (wr_running _ _ _ _ _)
@[simp] theorem wr64_typePend (s : State) (r : RegId) (i v k : Nat) : (s.wr64 r i v k).typePend = s.typePend := (wr_typePend _ _ _ _ _).trans (wr_typePend _ _ _ _ _)
@[simp] theorem wr64_pgState (s : State) (r : RegId) (i v k : Nat) : (s.wr64 r i v k).pgState = s.pgState := (wr_pgState _ _ _ _ _).trans (wr_pgState _ _ _ _ _)
@[simp] theorem wr64_faulted (s : State) (r : RegId) (i v k : Nat) : (s.wr64 r i v k).faulted = s.faulted := (wr_faulted _ _ _ _ _).trans (wr_faulted _ _ _ _ _)
@[simp] theorem wr64_degraded (s : State) (r : RegId) (i v k : Nat) : (s.wr64 r i v k).degraded = s.degraded := (wr_degraded _ _ _ _ _).trans (wr_degraded _ _ _ _ _)
@[simp] theorem wr64_resetting (s : State) (r : RegId) (i v k : Nat) : (s.wr64 r i v k).resetting = s.resetting := (wr_resetting _ _ _ _ _).trans (wr_resetting _ _ _ _ _)
@[simp] theorem wr64_clk (s : State) (r : RegId) (i v k : Nat) : (s.wr64 r i v k).clk = s.clk := (wr_clk _ _ _ _ _).trans (wr_clk _ _ _ _ _)
@[simp] theorem wr64_cal (s : State) (r : RegId) (i v k : Nat) : (s.wr64 r i v k).cal = s.cal := (wr_cal _ _ _ _ _).trans (wr_cal _ _ _ _ _)
@[simp] theorem wr64_hports (s : State) (r : RegId) (i v k : Nat) : (s.wr64 r i v k).hports = s.hports := (wr_hports _ _ _ _ _).trans (wr_hports _ _ _ _ _)
@[simp] theorem wr64_funcs (s : State) (r : RegId) (i v k : Nat) : (s.wr64 r i v k).funcs = s.funcs := (wr_funcs _ _ _ _ _).trans (wr_funcs _ _ _ _ _)
@[simp] theorem wr64_octUp (s : State) (r : RegId) (i v k : Nat) : (s.wr64 r i v k).octUp = s.octUp := (wr_octUp _ _ _ _ _).trans (wr_octUp _ _ _ _ _)
@[simp] theorem wr64_emacStat (s : State) (r : RegId) (i v k : Nat) : (s.wr64 r i v k).emacStat = s.emacStat := (wr_emacStat _ _ _ _ _).trans (wr_emacStat _ _ _ _ _)
@[simp] theorem wr64_windows (s : State) (r : RegId) (i v k : Nat) : (s.wr64 r i v k).windows = s.windows := (wr_windows _ _ _ _ _).trans (wr_windows _ _ _ _ _)
@[simp] theorem wr64_queues (s : State) (r : RegId) (i v k : Nat) : (s.wr64 r i v k).queues = s.queues := (wr_queues _ _ _ _ _).trans (wr_queues _ _ _ _ _)
@[simp] theorem wr64_rings (s : State) (r : RegId) (i v k : Nat) : (s.wr64 r i v k).rings = s.rings := (wr_rings _ _ _ _ _).trans (wr_rings _ _ _ _ _)
@[simp] theorem wr64_dma (s : State) (r : RegId) (i v k : Nat) : (s.wr64 r i v k).dma = s.dma := (wr_dma _ _ _ _ _).trans (wr_dma _ _ _ _ _)
@[simp] theorem wr64_nodes (s : State) (r : RegId) (i v k : Nat) : (s.wr64 r i v k).nodes = s.nodes := (wr_nodes _ _ _ _ _).trans (wr_nodes _ _ _ _ _)
@[simp] theorem wr64_banks (s : State) (r : RegId) (i v k : Nat) : (s.wr64 r i v k).banks = s.banks := (wr_banks _ _ _ _ _).trans (wr_banks _ _ _ _ _)
@[simp] theorem wr64_portProf (s : State) (r : RegId) (i v k : Nat) : (s.wr64 r i v k).portProf = s.portProf := (wr_portProf _ _ _ _ _).trans (wr_portProf _ _ _ _ _)
@[simp] theorem wr64_malCnt (s : State) (r : RegId) (i v k : Nat) : (s.wr64 r i v k).malCnt = s.malCnt := (wr_malCnt _ _ _ _ _).trans (wr_malCnt _ _ _ _ _)
@[simp] theorem wr64_frags (s : State) (r : RegId) (i v k : Nat) : (s.wr64 r i v k).frags = s.frags := (wr_frags _ _ _ _ _).trans (wr_frags _ _ _ _ _)
@[simp] theorem wr64_keyProf (s : State) (r : RegId) (i v k : Nat) : (s.wr64 r i v k).keyProf = s.keyProf := (wr_keyProf _ _ _ _ _).trans (wr_keyProf _ _ _ _ _)
@[simp] theorem wr64_ranges (s : State) (r : RegId) (i v k : Nat) : (s.wr64 r i v k).ranges = s.ranges := (wr_ranges _ _ _ _ _).trans (wr_ranges _ _ _ _ _)
@[simp] theorem wr64_arecs (s : State) (r : RegId) (i v k : Nat) : (s.wr64 r i v k).arecs = s.arecs := (wr_arecs _ _ _ _ _).trans (wr_arecs _ _ _ _ _)
@[simp] theorem wr64_tmpls (s : State) (r : RegId) (i v k : Nat) : (s.wr64 r i v k).tmpls = s.tmpls := (wr_tmpls _ _ _ _ _).trans (wr_tmpls _ _ _ _ _)
@[simp] theorem wr64_hprofs (s : State) (r : RegId) (i v k : Nat) : (s.wr64 r i v k).hprofs = s.hprofs := (wr_hprofs _ _ _ _ _).trans (wr_hprofs _ _ _ _ _)
@[simp] theorem wr64_tkeys (s : State) (r : RegId) (i v k : Nat) : (s.wr64 r i v k).tkeys = s.tkeys := (wr_tkeys _ _ _ _ _).trans (wr_tkeys _ _ _ _ _)
@[simp] theorem wr64_pgrps (s : State) (r : RegId) (i v k : Nat) : (s.wr64 r i v k).pgrps = s.pgrps := (wr_pgrps _ _ _ _ _).trans (wr_pgrps _ _ _ _ _)
@[simp] theorem wr64_stbls (s : State) (r : RegId) (i v k : Nat) : (s.wr64 r i v k).stbls = s.stbls := (wr_stbls _ _ _ _ _).trans (wr_stbls _ _ _ _ _)
@[simp] theorem wr64_vports (s : State) (r : RegId) (i v k : Nat) : (s.wr64 r i v k).vports = s.vports := (wr_vports _ _ _ _ _).trans (wr_vports _ _ _ _ _)
@[simp] theorem wr64_paces (s : State) (r : RegId) (i v k : Nat) : (s.wr64 r i v k).paces = s.paces := (wr_paces _ _ _ _ _).trans (wr_paces _ _ _ _ _)
@[simp] theorem wr64_txq (s : State) (r : RegId) (i v k : Nat) : (s.wr64 r i v k).txq = s.txq := (wr_txq _ _ _ _ _).trans (wr_txq _ _ _ _ _)
@[simp] theorem wr64_tables (s : State) (r : RegId) (i v k : Nat) : (s.wr64 r i v k).tables = s.tables := (wr_tables _ _ _ _ _).trans (wr_tables _ _ _ _ _)
@[simp] theorem wr64_flushing (s : State) (r : RegId) (i v k : Nat) : (s.wr64 r i v k).flushing = s.flushing := (wr_flushing _ _ _ _ _).trans (wr_flushing _ _ _ _ _)
@[simp] theorem wr64_scanning (s : State) (r : RegId) (i v k : Nat) : (s.wr64 r i v k).scanning = s.scanning := (wr_scanning _ _ _ _ _).trans (wr_scanning _ _ _ _ _)
@[simp] theorem wr64_scanPos (s : State) (r : RegId) (i v k : Nat) : (s.wr64 r i v k).scanPos = s.scanPos := (wr_scanPos _ _ _ _ _).trans (wr_scanPos _ _ _ _ _)
@[simp] theorem wr64_tableRetry (s : State) (r : RegId) (i v k : Nat) : (s.wr64 r i v k).tableRetry = s.tableRetry := (wr_tableRetry _ _ _ _ _).trans (wr_tableRetry _ _ _ _ _)
@[simp] theorem wr64_scanAt (s : State) (r : RegId) (i v k : Nat) : (s.wr64 r i v k).scanAt = s.scanAt := (wr_scanAt _ _ _ _ _).trans (wr_scanAt _ _ _ _ _)
@[simp] theorem wr64_learnQ (s : State) (r : RegId) (i v k : Nat) : (s.wr64 r i v k).learnQ = s.learnQ := (wr_learnQ _ _ _ _ _).trans (wr_learnQ _ _ _ _ _)
@[simp] theorem wr64_nrOvr (s : State) (r : RegId) (i v k : Nat) : (s.wr64 r i v k).nrOvr = s.nrOvr := (wr_nrOvr _ _ _ _ _).trans (wr_nrOvr _ _ _ _ _)
@[simp] theorem wr64_removeQ (s : State) (r : RegId) (i v k : Nat) : (s.wr64 r i v k).removeQ = s.removeQ := (wr_removeQ _ _ _ _ _).trans (wr_removeQ _ _ _ _ _)
@[simp] theorem wr64_qps (s : State) (r : RegId) (i v k : Nat) : (s.wr64 r i v k).qps = s.qps := (wr_qps _ _ _ _ _).trans (wr_qps _ _ _ _ _)
@[simp] theorem wr64_ctxs (s : State) (r : RegId) (i v k : Nat) : (s.wr64 r i v k).ctxs = s.ctxs := (wr_ctxs _ _ _ _ _).trans (wr_ctxs _ _ _ _ _)
@[simp] theorem wr64_quotas (s : State) (r : RegId) (i v k : Nat) : (s.wr64 r i v k).quotas = s.quotas := (wr_quotas _ _ _ _ _).trans (wr_quotas _ _ _ _ _)
@[simp] theorem wr64_hand (s : State) (r : RegId) (i v k : Nat) : (s.wr64 r i v k).hand = s.hand := (wr_hand _ _ _ _ _).trans (wr_hand _ _ _ _ _)
@[simp] theorem wr64_lastCharge (s : State) (r : RegId) (i v k : Nat) : (s.wr64 r i v k).lastCharge = s.lastCharge := (wr_lastCharge _ _ _ _ _).trans (wr_lastCharge _ _ _ _ _)
@[simp] theorem wr64_chargeRetry (s : State) (r : RegId) (i v k : Nat) : (s.wr64 r i v k).chargeRetry = s.chargeRetry := (wr_chargeRetry _ _ _ _ _).trans (wr_chargeRetry _ _ _ _ _)
@[simp] theorem wr64_ctls (s : State) (r : RegId) (i v k : Nat) : (s.wr64 r i v k).ctls = s.ctls := (wr_ctls _ _ _ _ _).trans (wr_ctls _ _ _ _ _)
@[simp] theorem wr64_nss (s : State) (r : RegId) (i v k : Nat) : (s.wr64 r i v k).nss = s.nss := (wr_nss _ _ _ _ _).trans (wr_nss _ _ _ _ _)
@[simp] theorem wr64_bkqs (s : State) (r : RegId) (i v k : Nat) : (s.wr64 r i v k).bkqs = s.bkqs := (wr_bkqs _ _ _ _ _).trans (wr_bkqs _ _ _ _ _)
@[simp] theorem wr64_nvCmds (s : State) (r : RegId) (i v k : Nat) : (s.wr64 r i v k).nvCmds = s.nvCmds := (wr_nvCmds _ _ _ _ _).trans (wr_nvCmds _ _ _ _ _)
@[simp] theorem wr64_nextToken (s : State) (r : RegId) (i v k : Nat) : (s.wr64 r i v k).nextToken = s.nextToken := (wr_nextToken _ _ _ _ _).trans (wr_nextToken _ _ _ _ _)
@[simp] theorem wr64_engines (s : State) (r : RegId) (i v k : Nat) : (s.wr64 r i v k).engines = s.engines := (wr_engines _ _ _ _ _).trans (wr_engines _ _ _ _ _)
@[simp] theorem wr64_slots (s : State) (r : RegId) (i v k : Nat) : (s.wr64 r i v k).slots = s.slots := (wr_slots _ _ _ _ _).trans (wr_slots _ _ _ _ _)
@[simp] theorem wr64_cached (s : State) (r : RegId) (i v k : Nat) : (s.wr64 r i v k).cached = s.cached := (wr_cached _ _ _ _ _).trans (wr_cached _ _ _ _ _)
@[simp] theorem wr64_keyStage (s : State) (r : RegId) (i v k : Nat) : (s.wr64 r i v k).keyStage = s.keyStage := (wr_keyStage _ _ _ _ _).trans (wr_keyStage _ _ _ _ _)
@[simp] theorem wr64_sas (s : State) (r : RegId) (i v k : Nat) : (s.wr64 r i v k).sas = s.sas := (wr_sas _ _ _ _ _).trans (wr_sas _ _ _ _ _)
@[simp] theorem wr64_macStat (s : State) (r : RegId) (i v k : Nat) : (s.wr64 r i v k).macStat = s.macStat := (wr_macStat _ _ _ _ _).trans (wr_macStat _ _ _ _ _)
@[simp] theorem wr64_harts (s : State) (r : RegId) (i v k : Nat) : (s.wr64 r i v k).harts = s.harts := (wr_harts _ _ _ _ _).trans (wr_harts _ _ _ _ _)
@[simp] theorem wr64_workqs (s : State) (r : RegId) (i v k : Nat) : (s.wr64 r i v k).workqs = s.workqs := (wr_workqs _ _ _ _ _).trans (wr_workqs _ _ _ _ _)
@[simp] theorem wr64_heldBy (s : State) (r : RegId) (i v k : Nat) : (s.wr64 r i v k).heldBy = s.heldBy := (wr_heldBy _ _ _ _ _).trans (wr_heldBy _ _ _ _ _)
@[simp] theorem wr64_weights (s : State) (r : RegId) (i v k : Nat) : (s.wr64 r i v k).weights = s.weights := (wr_weights _ _ _ _ _).trans (wr_weights _ _ _ _ _)
@[simp] theorem wr64_deficits (s : State) (r : RegId) (i v k : Nat) : (s.wr64 r i v k).deficits = s.deficits := (wr_deficits _ _ _ _ _).trans (wr_deficits _ _ _ _ _)
@[simp] theorem wr64_cells (s : State) (r : RegId) (i v k : Nat) : (s.wr64 r i v k).cells = s.cells := (wr_cells _ _ _ _ _).trans (wr_cells _ _ _ _ _)
@[simp] theorem wr64_tests (s : State) (r : RegId) (i v k : Nat) : (s.wr64 r i v k).tests = s.tests := (wr_tests _ _ _ _ _).trans (wr_tests _ _ _ _ _)
@[simp] theorem wr64_drainAt (s : State) (r : RegId) (i v k : Nat) : (s.wr64 r i v k).drainAt = s.drainAt := (wr_drainAt _ _ _ _ _).trans (wr_drainAt _ _ _ _ _)
@[simp] theorem wr64_canaries (s : State) (r : RegId) (i v k : Nat) : (s.wr64 r i v k).canaries = s.canaries := (wr_canaries _ _ _ _ _).trans (wr_canaries _ _ _ _ _)
@[simp] theorem wr64_canNext (s : State) (r : RegId) (i v k : Nat) : (s.wr64 r i v k).canNext = s.canNext := (wr_canNext _ _ _ _ _).trans (wr_canNext _ _ _ _ _)
@[simp] theorem wr64_canMiss (s : State) (r : RegId) (i v k : Nat) : (s.wr64 r i v k).canMiss = s.canMiss := (wr_canMiss _ _ _ _ _).trans (wr_canMiss _ _ _ _ _)
@[simp] theorem wr64_memctl (s : State) (r : RegId) (i v k : Nat) : (s.wr64 r i v k).memctl = s.memctl := (wr_memctl _ _ _ _ _).trans (wr_memctl _ _ _ _ _)
@[simp] theorem wr64_regions (s : State) (r : RegId) (i v k : Nat) : (s.wr64 r i v k).regions = s.regions := (wr_regions _ _ _ _ _).trans (wr_regions _ _ _ _ _)
@[simp] theorem wr64_panic (s : State) (r : RegId) (i v k : Nat) : (s.wr64 r i v k).panic = s.panic := (wr_panic _ _ _ _ _).trans (wr_panic _ _ _ _ _)
@[simp] theorem wr64_tenants (s : State) (r : RegId) (i v k : Nat) : (s.wr64 r i v k).tenants = s.tenants := (wr_tenants _ _ _ _ _).trans (wr_tenants _ _ _ _ _)
@[simp] theorem wr64_drains (s : State) (r : RegId) (i v k : Nat) : (s.wr64 r i v k).drains = s.drains := (wr_drains _ _ _ _ _).trans (wr_drains _ _ _ _ _)
@[simp] theorem wr64_lateReads (s : State) (r : RegId) (i v k : Nat) : (s.wr64 r i v k).lateReads = s.lateReads := (wr_lateReads _ _ _ _ _).trans (wr_lateReads _ _ _ _ _)
@[simp] theorem wr64_met (s : State) (r : RegId) (i v k : Nat) : (s.wr64 r i v k).met = s.met := (wr_met _ _ _ _ _).trans (wr_met _ _ _ _ _)
@[simp] theorem wr64_twin (s : State) (r : RegId) (i v k : Nat) : (s.wr64 r i v k).twin = s.twin := (wr_twin _ _ _ _ _).trans (wr_twin _ _ _ _ _)
@[simp] theorem wr64_boot (s : State) (r : RegId) (i v k : Nat) : (s.wr64 r i v k).boot = s.boot := (wr_boot _ _ _ _ _).trans (wr_boot _ _ _ _ _)
@[simp] theorem wr64_dax (s : State) (r : RegId) (i v k : Nat) : (s.wr64 r i v k).dax = s.dax := (wr_dax _ _ _ _ _).trans (wr_dax _ _ _ _ _)
@[simp] theorem wr64_flt (s : State) (r : RegId) (i v k : Nat) : (s.wr64 r i v k).flt = s.flt := (wr_flt _ _ _ _ _).trans (wr_flt _ _ _ _ _)
@[simp] theorem wr64_pwr (s : State) (r : RegId) (i v k : Nat) : (s.wr64 r i v k).pwr = s.pwr := (wr_pwr _ _ _ _ _).trans (wr_pwr _ _ _ _ _)

/-! ## hdw -/

@[simp] theorem hdw_pending (s : State) (b i o v : Nat) : (s.hdw b i o v).pending = s.pending := wr_pending s _ _ _ _
@[simp] theorem hdw_now (s : State) (b i o v : Nat) : (s.hdw b i o v).now = s.now := wr_now s _ _ _ _
@[simp] theorem hdw_bref (s : State) (b i o v : Nat) : (s.hdw b i o v).bref = s.bref := wr_bref s _ _ _ _
@[simp] theorem hdw_free (s : State) (b i o v : Nat) : (s.hdw b i o v).free = s.free := wr_free s _ _ _ _
@[simp] theorem hdw_out (s : State) (b i o v : Nat) : (s.hdw b i o v).out = s.out := wr_out s _ _ _ _
@[simp] theorem hdw_mem (s : State) (b i o v : Nat) : (s.hdw b i o v).mem = s.mem := wr_mem s _ _ _ _
@[simp] theorem hdw_latches (s : State) (b i o v : Nat) : (s.hdw b i o v).latches = s.latches := wr_latches s _ _ _ _
@[simp] theorem hdw_stages (s : State) (b i o v : Nat) : (s.hdw b i o v).stages = s.stages := wr_stages s _ _ _ _
@[simp] theorem hdw_snaps (s : State) (b i o v : Nat) : (s.hdw b i o v).snaps = s.snaps := wr_snaps s _ _ _ _
@[simp] theorem hdw_running (s : State) (b i o v : Nat) : (s.hdw b i o v).running = s.running := wr_running s _ _ _ _
@[simp] theorem hdw_typePend (s : State) (b i o v : Nat) : (s.hdw b i o v).typePend = s.typePend := wr_typePend s _ _ _ _
@[simp] theorem hdw_pgState (s : State) (b i o v : Nat) : (s.hdw b i o v).pgState = s.pgState := wr_pgState s _ _ _ _
@[simp] theorem hdw_faulted (s : State) (b i o v : Nat) : (s.hdw b i o v).faulted = s.faulted := wr_faulted s _ _ _ _
@[simp] theorem hdw_degraded (s : State) (b i o v : Nat) : (s.hdw b i o v).degraded = s.degraded := wr_degraded s _ _ _ _
@[simp] theorem hdw_resetting (s : State) (b i o v : Nat) : (s.hdw b i o v).resetting = s.resetting := wr_resetting s _ _ _ _
@[simp] theorem hdw_clk (s : State) (b i o v : Nat) : (s.hdw b i o v).clk = s.clk := wr_clk s _ _ _ _
@[simp] theorem hdw_cal (s : State) (b i o v : Nat) : (s.hdw b i o v).cal = s.cal := wr_cal s _ _ _ _
@[simp] theorem hdw_hports (s : State) (b i o v : Nat) : (s.hdw b i o v).hports = s.hports := wr_hports s _ _ _ _
@[simp] theorem hdw_funcs (s : State) (b i o v : Nat) : (s.hdw b i o v).funcs = s.funcs := wr_funcs s _ _ _ _
@[simp] theorem hdw_octUp (s : State) (b i o v : Nat) : (s.hdw b i o v).octUp = s.octUp := wr_octUp s _ _ _ _
@[simp] theorem hdw_emacStat (s : State) (b i o v : Nat) : (s.hdw b i o v).emacStat = s.emacStat := wr_emacStat s _ _ _ _
@[simp] theorem hdw_windows (s : State) (b i o v : Nat) : (s.hdw b i o v).windows = s.windows := wr_windows s _ _ _ _
@[simp] theorem hdw_queues (s : State) (b i o v : Nat) : (s.hdw b i o v).queues = s.queues := wr_queues s _ _ _ _
@[simp] theorem hdw_rings (s : State) (b i o v : Nat) : (s.hdw b i o v).rings = s.rings := wr_rings s _ _ _ _
@[simp] theorem hdw_dma (s : State) (b i o v : Nat) : (s.hdw b i o v).dma = s.dma := wr_dma s _ _ _ _
@[simp] theorem hdw_nodes (s : State) (b i o v : Nat) : (s.hdw b i o v).nodes = s.nodes := wr_nodes s _ _ _ _
@[simp] theorem hdw_banks (s : State) (b i o v : Nat) : (s.hdw b i o v).banks = s.banks := wr_banks s _ _ _ _
@[simp] theorem hdw_portProf (s : State) (b i o v : Nat) : (s.hdw b i o v).portProf = s.portProf := wr_portProf s _ _ _ _
@[simp] theorem hdw_malCnt (s : State) (b i o v : Nat) : (s.hdw b i o v).malCnt = s.malCnt := wr_malCnt s _ _ _ _
@[simp] theorem hdw_frags (s : State) (b i o v : Nat) : (s.hdw b i o v).frags = s.frags := wr_frags s _ _ _ _
@[simp] theorem hdw_keyProf (s : State) (b i o v : Nat) : (s.hdw b i o v).keyProf = s.keyProf := wr_keyProf s _ _ _ _
@[simp] theorem hdw_ranges (s : State) (b i o v : Nat) : (s.hdw b i o v).ranges = s.ranges := wr_ranges s _ _ _ _
@[simp] theorem hdw_arecs (s : State) (b i o v : Nat) : (s.hdw b i o v).arecs = s.arecs := wr_arecs s _ _ _ _
@[simp] theorem hdw_tmpls (s : State) (b i o v : Nat) : (s.hdw b i o v).tmpls = s.tmpls := wr_tmpls s _ _ _ _
@[simp] theorem hdw_hprofs (s : State) (b i o v : Nat) : (s.hdw b i o v).hprofs = s.hprofs := wr_hprofs s _ _ _ _
@[simp] theorem hdw_tkeys (s : State) (b i o v : Nat) : (s.hdw b i o v).tkeys = s.tkeys := wr_tkeys s _ _ _ _
@[simp] theorem hdw_pgrps (s : State) (b i o v : Nat) : (s.hdw b i o v).pgrps = s.pgrps := wr_pgrps s _ _ _ _
@[simp] theorem hdw_stbls (s : State) (b i o v : Nat) : (s.hdw b i o v).stbls = s.stbls := wr_stbls s _ _ _ _
@[simp] theorem hdw_vports (s : State) (b i o v : Nat) : (s.hdw b i o v).vports = s.vports := wr_vports s _ _ _ _
@[simp] theorem hdw_paces (s : State) (b i o v : Nat) : (s.hdw b i o v).paces = s.paces := wr_paces s _ _ _ _
@[simp] theorem hdw_txq (s : State) (b i o v : Nat) : (s.hdw b i o v).txq = s.txq := wr_txq s _ _ _ _
@[simp] theorem hdw_tables (s : State) (b i o v : Nat) : (s.hdw b i o v).tables = s.tables := wr_tables s _ _ _ _
@[simp] theorem hdw_flushing (s : State) (b i o v : Nat) : (s.hdw b i o v).flushing = s.flushing := wr_flushing s _ _ _ _
@[simp] theorem hdw_scanning (s : State) (b i o v : Nat) : (s.hdw b i o v).scanning = s.scanning := wr_scanning s _ _ _ _
@[simp] theorem hdw_scanPos (s : State) (b i o v : Nat) : (s.hdw b i o v).scanPos = s.scanPos := wr_scanPos s _ _ _ _
@[simp] theorem hdw_tableRetry (s : State) (b i o v : Nat) : (s.hdw b i o v).tableRetry = s.tableRetry := wr_tableRetry s _ _ _ _
@[simp] theorem hdw_scanAt (s : State) (b i o v : Nat) : (s.hdw b i o v).scanAt = s.scanAt := wr_scanAt s _ _ _ _
@[simp] theorem hdw_learnQ (s : State) (b i o v : Nat) : (s.hdw b i o v).learnQ = s.learnQ := wr_learnQ s _ _ _ _
@[simp] theorem hdw_nrOvr (s : State) (b i o v : Nat) : (s.hdw b i o v).nrOvr = s.nrOvr := wr_nrOvr s _ _ _ _
@[simp] theorem hdw_removeQ (s : State) (b i o v : Nat) : (s.hdw b i o v).removeQ = s.removeQ := wr_removeQ s _ _ _ _
@[simp] theorem hdw_qps (s : State) (b i o v : Nat) : (s.hdw b i o v).qps = s.qps := wr_qps s _ _ _ _
@[simp] theorem hdw_ctxs (s : State) (b i o v : Nat) : (s.hdw b i o v).ctxs = s.ctxs := wr_ctxs s _ _ _ _
@[simp] theorem hdw_quotas (s : State) (b i o v : Nat) : (s.hdw b i o v).quotas = s.quotas := wr_quotas s _ _ _ _
@[simp] theorem hdw_hand (s : State) (b i o v : Nat) : (s.hdw b i o v).hand = s.hand := wr_hand s _ _ _ _
@[simp] theorem hdw_lastCharge (s : State) (b i o v : Nat) : (s.hdw b i o v).lastCharge = s.lastCharge := wr_lastCharge s _ _ _ _
@[simp] theorem hdw_chargeRetry (s : State) (b i o v : Nat) : (s.hdw b i o v).chargeRetry = s.chargeRetry := wr_chargeRetry s _ _ _ _
@[simp] theorem hdw_ctls (s : State) (b i o v : Nat) : (s.hdw b i o v).ctls = s.ctls := wr_ctls s _ _ _ _
@[simp] theorem hdw_nss (s : State) (b i o v : Nat) : (s.hdw b i o v).nss = s.nss := wr_nss s _ _ _ _
@[simp] theorem hdw_bkqs (s : State) (b i o v : Nat) : (s.hdw b i o v).bkqs = s.bkqs := wr_bkqs s _ _ _ _
@[simp] theorem hdw_nvCmds (s : State) (b i o v : Nat) : (s.hdw b i o v).nvCmds = s.nvCmds := wr_nvCmds s _ _ _ _
@[simp] theorem hdw_nextToken (s : State) (b i o v : Nat) : (s.hdw b i o v).nextToken = s.nextToken := wr_nextToken s _ _ _ _
@[simp] theorem hdw_engines (s : State) (b i o v : Nat) : (s.hdw b i o v).engines = s.engines := wr_engines s _ _ _ _
@[simp] theorem hdw_slots (s : State) (b i o v : Nat) : (s.hdw b i o v).slots = s.slots := wr_slots s _ _ _ _
@[simp] theorem hdw_cached (s : State) (b i o v : Nat) : (s.hdw b i o v).cached = s.cached := wr_cached s _ _ _ _
@[simp] theorem hdw_keyStage (s : State) (b i o v : Nat) : (s.hdw b i o v).keyStage = s.keyStage := wr_keyStage s _ _ _ _
@[simp] theorem hdw_sas (s : State) (b i o v : Nat) : (s.hdw b i o v).sas = s.sas := wr_sas s _ _ _ _
@[simp] theorem hdw_macStat (s : State) (b i o v : Nat) : (s.hdw b i o v).macStat = s.macStat := wr_macStat s _ _ _ _
@[simp] theorem hdw_harts (s : State) (b i o v : Nat) : (s.hdw b i o v).harts = s.harts := wr_harts s _ _ _ _
@[simp] theorem hdw_workqs (s : State) (b i o v : Nat) : (s.hdw b i o v).workqs = s.workqs := wr_workqs s _ _ _ _
@[simp] theorem hdw_heldBy (s : State) (b i o v : Nat) : (s.hdw b i o v).heldBy = s.heldBy := wr_heldBy s _ _ _ _
@[simp] theorem hdw_weights (s : State) (b i o v : Nat) : (s.hdw b i o v).weights = s.weights := wr_weights s _ _ _ _
@[simp] theorem hdw_deficits (s : State) (b i o v : Nat) : (s.hdw b i o v).deficits = s.deficits := wr_deficits s _ _ _ _
@[simp] theorem hdw_cells (s : State) (b i o v : Nat) : (s.hdw b i o v).cells = s.cells := wr_cells s _ _ _ _
@[simp] theorem hdw_tests (s : State) (b i o v : Nat) : (s.hdw b i o v).tests = s.tests := wr_tests s _ _ _ _
@[simp] theorem hdw_drainAt (s : State) (b i o v : Nat) : (s.hdw b i o v).drainAt = s.drainAt := wr_drainAt s _ _ _ _
@[simp] theorem hdw_canaries (s : State) (b i o v : Nat) : (s.hdw b i o v).canaries = s.canaries := wr_canaries s _ _ _ _
@[simp] theorem hdw_canNext (s : State) (b i o v : Nat) : (s.hdw b i o v).canNext = s.canNext := wr_canNext s _ _ _ _
@[simp] theorem hdw_canMiss (s : State) (b i o v : Nat) : (s.hdw b i o v).canMiss = s.canMiss := wr_canMiss s _ _ _ _
@[simp] theorem hdw_memctl (s : State) (b i o v : Nat) : (s.hdw b i o v).memctl = s.memctl := wr_memctl s _ _ _ _
@[simp] theorem hdw_regions (s : State) (b i o v : Nat) : (s.hdw b i o v).regions = s.regions := wr_regions s _ _ _ _
@[simp] theorem hdw_panic (s : State) (b i o v : Nat) : (s.hdw b i o v).panic = s.panic := wr_panic s _ _ _ _
@[simp] theorem hdw_tenants (s : State) (b i o v : Nat) : (s.hdw b i o v).tenants = s.tenants := wr_tenants s _ _ _ _
@[simp] theorem hdw_drains (s : State) (b i o v : Nat) : (s.hdw b i o v).drains = s.drains := wr_drains s _ _ _ _
@[simp] theorem hdw_lateReads (s : State) (b i o v : Nat) : (s.hdw b i o v).lateReads = s.lateReads := wr_lateReads s _ _ _ _
@[simp] theorem hdw_met (s : State) (b i o v : Nat) : (s.hdw b i o v).met = s.met := wr_met s _ _ _ _
@[simp] theorem hdw_twin (s : State) (b i o v : Nat) : (s.hdw b i o v).twin = s.twin := wr_twin s _ _ _ _
@[simp] theorem hdw_boot (s : State) (b i o v : Nat) : (s.hdw b i o v).boot = s.boot := wr_boot s _ _ _ _
@[simp] theorem hdw_dax (s : State) (b i o v : Nat) : (s.hdw b i o v).dax = s.dax := wr_dax s _ _ _ _
@[simp] theorem hdw_flt (s : State) (b i o v : Nat) : (s.hdw b i o v).flt = s.flt := wr_flt s _ _ _ _
@[simp] theorem hdw_pwr (s : State) (b i o v : Nat) : (s.hdw b i o v).pwr = s.pwr := wr_pwr s _ _ _ _

/-! ## istat -/

@[simp] theorem istat_pending (s : State) (b i n : Nat) : (s.istat b i n).pending = s.pending := hdw_pending s _ _ _ _
@[simp] theorem istat_now (s : State) (b i n : Nat) : (s.istat b i n).now = s.now := hdw_now s _ _ _ _
@[simp] theorem istat_bref (s : State) (b i n : Nat) : (s.istat b i n).bref = s.bref := hdw_bref s _ _ _ _
@[simp] theorem istat_free (s : State) (b i n : Nat) : (s.istat b i n).free = s.free := hdw_free s _ _ _ _
@[simp] theorem istat_out (s : State) (b i n : Nat) : (s.istat b i n).out = s.out := hdw_out s _ _ _ _
@[simp] theorem istat_mem (s : State) (b i n : Nat) : (s.istat b i n).mem = s.mem := hdw_mem s _ _ _ _
@[simp] theorem istat_latches (s : State) (b i n : Nat) : (s.istat b i n).latches = s.latches := hdw_latches s _ _ _ _
@[simp] theorem istat_stages (s : State) (b i n : Nat) : (s.istat b i n).stages = s.stages := hdw_stages s _ _ _ _
@[simp] theorem istat_snaps (s : State) (b i n : Nat) : (s.istat b i n).snaps = s.snaps := hdw_snaps s _ _ _ _
@[simp] theorem istat_running (s : State) (b i n : Nat) : (s.istat b i n).running = s.running := hdw_running s _ _ _ _
@[simp] theorem istat_typePend (s : State) (b i n : Nat) : (s.istat b i n).typePend = s.typePend := hdw_typePend s _ _ _ _
@[simp] theorem istat_pgState (s : State) (b i n : Nat) : (s.istat b i n).pgState = s.pgState := hdw_pgState s _ _ _ _
@[simp] theorem istat_faulted (s : State) (b i n : Nat) : (s.istat b i n).faulted = s.faulted := hdw_faulted s _ _ _ _
@[simp] theorem istat_degraded (s : State) (b i n : Nat) : (s.istat b i n).degraded = s.degraded := hdw_degraded s _ _ _ _
@[simp] theorem istat_resetting (s : State) (b i n : Nat) : (s.istat b i n).resetting = s.resetting := hdw_resetting s _ _ _ _
@[simp] theorem istat_clk (s : State) (b i n : Nat) : (s.istat b i n).clk = s.clk := hdw_clk s _ _ _ _
@[simp] theorem istat_cal (s : State) (b i n : Nat) : (s.istat b i n).cal = s.cal := hdw_cal s _ _ _ _
@[simp] theorem istat_hports (s : State) (b i n : Nat) : (s.istat b i n).hports = s.hports := hdw_hports s _ _ _ _
@[simp] theorem istat_funcs (s : State) (b i n : Nat) : (s.istat b i n).funcs = s.funcs := hdw_funcs s _ _ _ _
@[simp] theorem istat_octUp (s : State) (b i n : Nat) : (s.istat b i n).octUp = s.octUp := hdw_octUp s _ _ _ _
@[simp] theorem istat_emacStat (s : State) (b i n : Nat) : (s.istat b i n).emacStat = s.emacStat := hdw_emacStat s _ _ _ _
@[simp] theorem istat_windows (s : State) (b i n : Nat) : (s.istat b i n).windows = s.windows := hdw_windows s _ _ _ _
@[simp] theorem istat_queues (s : State) (b i n : Nat) : (s.istat b i n).queues = s.queues := hdw_queues s _ _ _ _
@[simp] theorem istat_rings (s : State) (b i n : Nat) : (s.istat b i n).rings = s.rings := hdw_rings s _ _ _ _
@[simp] theorem istat_dma (s : State) (b i n : Nat) : (s.istat b i n).dma = s.dma := hdw_dma s _ _ _ _
@[simp] theorem istat_nodes (s : State) (b i n : Nat) : (s.istat b i n).nodes = s.nodes := hdw_nodes s _ _ _ _
@[simp] theorem istat_banks (s : State) (b i n : Nat) : (s.istat b i n).banks = s.banks := hdw_banks s _ _ _ _
@[simp] theorem istat_portProf (s : State) (b i n : Nat) : (s.istat b i n).portProf = s.portProf := hdw_portProf s _ _ _ _
@[simp] theorem istat_malCnt (s : State) (b i n : Nat) : (s.istat b i n).malCnt = s.malCnt := hdw_malCnt s _ _ _ _
@[simp] theorem istat_frags (s : State) (b i n : Nat) : (s.istat b i n).frags = s.frags := hdw_frags s _ _ _ _
@[simp] theorem istat_keyProf (s : State) (b i n : Nat) : (s.istat b i n).keyProf = s.keyProf := hdw_keyProf s _ _ _ _
@[simp] theorem istat_ranges (s : State) (b i n : Nat) : (s.istat b i n).ranges = s.ranges := hdw_ranges s _ _ _ _
@[simp] theorem istat_arecs (s : State) (b i n : Nat) : (s.istat b i n).arecs = s.arecs := hdw_arecs s _ _ _ _
@[simp] theorem istat_tmpls (s : State) (b i n : Nat) : (s.istat b i n).tmpls = s.tmpls := hdw_tmpls s _ _ _ _
@[simp] theorem istat_hprofs (s : State) (b i n : Nat) : (s.istat b i n).hprofs = s.hprofs := hdw_hprofs s _ _ _ _
@[simp] theorem istat_tkeys (s : State) (b i n : Nat) : (s.istat b i n).tkeys = s.tkeys := hdw_tkeys s _ _ _ _
@[simp] theorem istat_pgrps (s : State) (b i n : Nat) : (s.istat b i n).pgrps = s.pgrps := hdw_pgrps s _ _ _ _
@[simp] theorem istat_stbls (s : State) (b i n : Nat) : (s.istat b i n).stbls = s.stbls := hdw_stbls s _ _ _ _
@[simp] theorem istat_vports (s : State) (b i n : Nat) : (s.istat b i n).vports = s.vports := hdw_vports s _ _ _ _
@[simp] theorem istat_paces (s : State) (b i n : Nat) : (s.istat b i n).paces = s.paces := hdw_paces s _ _ _ _
@[simp] theorem istat_txq (s : State) (b i n : Nat) : (s.istat b i n).txq = s.txq := hdw_txq s _ _ _ _
@[simp] theorem istat_tables (s : State) (b i n : Nat) : (s.istat b i n).tables = s.tables := hdw_tables s _ _ _ _
@[simp] theorem istat_flushing (s : State) (b i n : Nat) : (s.istat b i n).flushing = s.flushing := hdw_flushing s _ _ _ _
@[simp] theorem istat_scanning (s : State) (b i n : Nat) : (s.istat b i n).scanning = s.scanning := hdw_scanning s _ _ _ _
@[simp] theorem istat_scanPos (s : State) (b i n : Nat) : (s.istat b i n).scanPos = s.scanPos := hdw_scanPos s _ _ _ _
@[simp] theorem istat_tableRetry (s : State) (b i n : Nat) : (s.istat b i n).tableRetry = s.tableRetry := hdw_tableRetry s _ _ _ _
@[simp] theorem istat_scanAt (s : State) (b i n : Nat) : (s.istat b i n).scanAt = s.scanAt := hdw_scanAt s _ _ _ _
@[simp] theorem istat_learnQ (s : State) (b i n : Nat) : (s.istat b i n).learnQ = s.learnQ := hdw_learnQ s _ _ _ _
@[simp] theorem istat_nrOvr (s : State) (b i n : Nat) : (s.istat b i n).nrOvr = s.nrOvr := hdw_nrOvr s _ _ _ _
@[simp] theorem istat_removeQ (s : State) (b i n : Nat) : (s.istat b i n).removeQ = s.removeQ := hdw_removeQ s _ _ _ _
@[simp] theorem istat_qps (s : State) (b i n : Nat) : (s.istat b i n).qps = s.qps := hdw_qps s _ _ _ _
@[simp] theorem istat_ctxs (s : State) (b i n : Nat) : (s.istat b i n).ctxs = s.ctxs := hdw_ctxs s _ _ _ _
@[simp] theorem istat_quotas (s : State) (b i n : Nat) : (s.istat b i n).quotas = s.quotas := hdw_quotas s _ _ _ _
@[simp] theorem istat_hand (s : State) (b i n : Nat) : (s.istat b i n).hand = s.hand := hdw_hand s _ _ _ _
@[simp] theorem istat_lastCharge (s : State) (b i n : Nat) : (s.istat b i n).lastCharge = s.lastCharge := hdw_lastCharge s _ _ _ _
@[simp] theorem istat_chargeRetry (s : State) (b i n : Nat) : (s.istat b i n).chargeRetry = s.chargeRetry := hdw_chargeRetry s _ _ _ _
@[simp] theorem istat_ctls (s : State) (b i n : Nat) : (s.istat b i n).ctls = s.ctls := hdw_ctls s _ _ _ _
@[simp] theorem istat_nss (s : State) (b i n : Nat) : (s.istat b i n).nss = s.nss := hdw_nss s _ _ _ _
@[simp] theorem istat_bkqs (s : State) (b i n : Nat) : (s.istat b i n).bkqs = s.bkqs := hdw_bkqs s _ _ _ _
@[simp] theorem istat_nvCmds (s : State) (b i n : Nat) : (s.istat b i n).nvCmds = s.nvCmds := hdw_nvCmds s _ _ _ _
@[simp] theorem istat_nextToken (s : State) (b i n : Nat) : (s.istat b i n).nextToken = s.nextToken := hdw_nextToken s _ _ _ _
@[simp] theorem istat_engines (s : State) (b i n : Nat) : (s.istat b i n).engines = s.engines := hdw_engines s _ _ _ _
@[simp] theorem istat_slots (s : State) (b i n : Nat) : (s.istat b i n).slots = s.slots := hdw_slots s _ _ _ _
@[simp] theorem istat_cached (s : State) (b i n : Nat) : (s.istat b i n).cached = s.cached := hdw_cached s _ _ _ _
@[simp] theorem istat_keyStage (s : State) (b i n : Nat) : (s.istat b i n).keyStage = s.keyStage := hdw_keyStage s _ _ _ _
@[simp] theorem istat_sas (s : State) (b i n : Nat) : (s.istat b i n).sas = s.sas := hdw_sas s _ _ _ _
@[simp] theorem istat_macStat (s : State) (b i n : Nat) : (s.istat b i n).macStat = s.macStat := hdw_macStat s _ _ _ _
@[simp] theorem istat_harts (s : State) (b i n : Nat) : (s.istat b i n).harts = s.harts := hdw_harts s _ _ _ _
@[simp] theorem istat_workqs (s : State) (b i n : Nat) : (s.istat b i n).workqs = s.workqs := hdw_workqs s _ _ _ _
@[simp] theorem istat_heldBy (s : State) (b i n : Nat) : (s.istat b i n).heldBy = s.heldBy := hdw_heldBy s _ _ _ _
@[simp] theorem istat_weights (s : State) (b i n : Nat) : (s.istat b i n).weights = s.weights := hdw_weights s _ _ _ _
@[simp] theorem istat_deficits (s : State) (b i n : Nat) : (s.istat b i n).deficits = s.deficits := hdw_deficits s _ _ _ _
@[simp] theorem istat_cells (s : State) (b i n : Nat) : (s.istat b i n).cells = s.cells := hdw_cells s _ _ _ _
@[simp] theorem istat_tests (s : State) (b i n : Nat) : (s.istat b i n).tests = s.tests := hdw_tests s _ _ _ _
@[simp] theorem istat_drainAt (s : State) (b i n : Nat) : (s.istat b i n).drainAt = s.drainAt := hdw_drainAt s _ _ _ _
@[simp] theorem istat_canaries (s : State) (b i n : Nat) : (s.istat b i n).canaries = s.canaries := hdw_canaries s _ _ _ _
@[simp] theorem istat_canNext (s : State) (b i n : Nat) : (s.istat b i n).canNext = s.canNext := hdw_canNext s _ _ _ _
@[simp] theorem istat_canMiss (s : State) (b i n : Nat) : (s.istat b i n).canMiss = s.canMiss := hdw_canMiss s _ _ _ _
@[simp] theorem istat_memctl (s : State) (b i n : Nat) : (s.istat b i n).memctl = s.memctl := hdw_memctl s _ _ _ _
@[simp] theorem istat_regions (s : State) (b i n : Nat) : (s.istat b i n).regions = s.regions := hdw_regions s _ _ _ _
@[simp] theorem istat_panic (s : State) (b i n : Nat) : (s.istat b i n).panic = s.panic := hdw_panic s _ _ _ _
@[simp] theorem istat_tenants (s : State) (b i n : Nat) : (s.istat b i n).tenants = s.tenants := hdw_tenants s _ _ _ _
@[simp] theorem istat_drains (s : State) (b i n : Nat) : (s.istat b i n).drains = s.drains := hdw_drains s _ _ _ _
@[simp] theorem istat_lateReads (s : State) (b i n : Nat) : (s.istat b i n).lateReads = s.lateReads := hdw_lateReads s _ _ _ _
@[simp] theorem istat_met (s : State) (b i n : Nat) : (s.istat b i n).met = s.met := hdw_met s _ _ _ _
@[simp] theorem istat_twin (s : State) (b i n : Nat) : (s.istat b i n).twin = s.twin := hdw_twin s _ _ _ _
@[simp] theorem istat_boot (s : State) (b i n : Nat) : (s.istat b i n).boot = s.boot := hdw_boot s _ _ _ _
@[simp] theorem istat_dax (s : State) (b i n : Nat) : (s.istat b i n).dax = s.dax := hdw_dax s _ _ _ _
@[simp] theorem istat_flt (s : State) (b i n : Nat) : (s.istat b i n).flt = s.flt := hdw_flt s _ _ _ _
@[simp] theorem istat_pwr (s : State) (b i n : Nat) : (s.istat b i n).pwr = s.pwr := hdw_pwr s _ _ _ _

/-! ## bumpStat -/

@[simp] theorem bumpStat_pending (s : State) (r : RegId) (i n : Nat) : (s.bumpStat r i n).pending = s.pending := wr64_pending s _ _ _ _
@[simp] theorem bumpStat_now (s : State) (r : RegId) (i n : Nat) : (s.bumpStat r i n).now = s.now := wr64_now s _ _ _ _
@[simp] theorem bumpStat_bref (s : State) (r : RegId) (i n : Nat) : (s.bumpStat r i n).bref = s.bref := wr64_bref s _ _ _ _
@[simp] theorem bumpStat_free (s : State) (r : RegId) (i n : Nat) : (s.bumpStat r i n).free = s.free := wr64_free s _ _ _ _
@[simp] theorem bumpStat_out (s : State) (r : RegId) (i n : Nat) : (s.bumpStat r i n).out = s.out := wr64_out s _ _ _ _
@[simp] theorem bumpStat_mem (s : State) (r : RegId) (i n : Nat) : (s.bumpStat r i n).mem = s.mem := wr64_mem s _ _ _ _
@[simp] theorem bumpStat_latches (s : State) (r : RegId) (i n : Nat) : (s.bumpStat r i n).latches = s.latches := wr64_latches s _ _ _ _
@[simp] theorem bumpStat_stages (s : State) (r : RegId) (i n : Nat) : (s.bumpStat r i n).stages = s.stages := wr64_stages s _ _ _ _
@[simp] theorem bumpStat_snaps (s : State) (r : RegId) (i n : Nat) : (s.bumpStat r i n).snaps = s.snaps := wr64_snaps s _ _ _ _
@[simp] theorem bumpStat_running (s : State) (r : RegId) (i n : Nat) : (s.bumpStat r i n).running = s.running := wr64_running s _ _ _ _
@[simp] theorem bumpStat_typePend (s : State) (r : RegId) (i n : Nat) : (s.bumpStat r i n).typePend = s.typePend := wr64_typePend s _ _ _ _
@[simp] theorem bumpStat_pgState (s : State) (r : RegId) (i n : Nat) : (s.bumpStat r i n).pgState = s.pgState := wr64_pgState s _ _ _ _
@[simp] theorem bumpStat_faulted (s : State) (r : RegId) (i n : Nat) : (s.bumpStat r i n).faulted = s.faulted := wr64_faulted s _ _ _ _
@[simp] theorem bumpStat_degraded (s : State) (r : RegId) (i n : Nat) : (s.bumpStat r i n).degraded = s.degraded := wr64_degraded s _ _ _ _
@[simp] theorem bumpStat_resetting (s : State) (r : RegId) (i n : Nat) : (s.bumpStat r i n).resetting = s.resetting := wr64_resetting s _ _ _ _
@[simp] theorem bumpStat_clk (s : State) (r : RegId) (i n : Nat) : (s.bumpStat r i n).clk = s.clk := wr64_clk s _ _ _ _
@[simp] theorem bumpStat_cal (s : State) (r : RegId) (i n : Nat) : (s.bumpStat r i n).cal = s.cal := wr64_cal s _ _ _ _
@[simp] theorem bumpStat_hports (s : State) (r : RegId) (i n : Nat) : (s.bumpStat r i n).hports = s.hports := wr64_hports s _ _ _ _
@[simp] theorem bumpStat_funcs (s : State) (r : RegId) (i n : Nat) : (s.bumpStat r i n).funcs = s.funcs := wr64_funcs s _ _ _ _
@[simp] theorem bumpStat_octUp (s : State) (r : RegId) (i n : Nat) : (s.bumpStat r i n).octUp = s.octUp := wr64_octUp s _ _ _ _
@[simp] theorem bumpStat_emacStat (s : State) (r : RegId) (i n : Nat) : (s.bumpStat r i n).emacStat = s.emacStat := wr64_emacStat s _ _ _ _
@[simp] theorem bumpStat_windows (s : State) (r : RegId) (i n : Nat) : (s.bumpStat r i n).windows = s.windows := wr64_windows s _ _ _ _
@[simp] theorem bumpStat_queues (s : State) (r : RegId) (i n : Nat) : (s.bumpStat r i n).queues = s.queues := wr64_queues s _ _ _ _
@[simp] theorem bumpStat_rings (s : State) (r : RegId) (i n : Nat) : (s.bumpStat r i n).rings = s.rings := wr64_rings s _ _ _ _
@[simp] theorem bumpStat_dma (s : State) (r : RegId) (i n : Nat) : (s.bumpStat r i n).dma = s.dma := wr64_dma s _ _ _ _
@[simp] theorem bumpStat_nodes (s : State) (r : RegId) (i n : Nat) : (s.bumpStat r i n).nodes = s.nodes := wr64_nodes s _ _ _ _
@[simp] theorem bumpStat_banks (s : State) (r : RegId) (i n : Nat) : (s.bumpStat r i n).banks = s.banks := wr64_banks s _ _ _ _
@[simp] theorem bumpStat_portProf (s : State) (r : RegId) (i n : Nat) : (s.bumpStat r i n).portProf = s.portProf := wr64_portProf s _ _ _ _
@[simp] theorem bumpStat_malCnt (s : State) (r : RegId) (i n : Nat) : (s.bumpStat r i n).malCnt = s.malCnt := wr64_malCnt s _ _ _ _
@[simp] theorem bumpStat_frags (s : State) (r : RegId) (i n : Nat) : (s.bumpStat r i n).frags = s.frags := wr64_frags s _ _ _ _
@[simp] theorem bumpStat_keyProf (s : State) (r : RegId) (i n : Nat) : (s.bumpStat r i n).keyProf = s.keyProf := wr64_keyProf s _ _ _ _
@[simp] theorem bumpStat_ranges (s : State) (r : RegId) (i n : Nat) : (s.bumpStat r i n).ranges = s.ranges := wr64_ranges s _ _ _ _
@[simp] theorem bumpStat_arecs (s : State) (r : RegId) (i n : Nat) : (s.bumpStat r i n).arecs = s.arecs := wr64_arecs s _ _ _ _
@[simp] theorem bumpStat_tmpls (s : State) (r : RegId) (i n : Nat) : (s.bumpStat r i n).tmpls = s.tmpls := wr64_tmpls s _ _ _ _
@[simp] theorem bumpStat_hprofs (s : State) (r : RegId) (i n : Nat) : (s.bumpStat r i n).hprofs = s.hprofs := wr64_hprofs s _ _ _ _
@[simp] theorem bumpStat_tkeys (s : State) (r : RegId) (i n : Nat) : (s.bumpStat r i n).tkeys = s.tkeys := wr64_tkeys s _ _ _ _
@[simp] theorem bumpStat_pgrps (s : State) (r : RegId) (i n : Nat) : (s.bumpStat r i n).pgrps = s.pgrps := wr64_pgrps s _ _ _ _
@[simp] theorem bumpStat_stbls (s : State) (r : RegId) (i n : Nat) : (s.bumpStat r i n).stbls = s.stbls := wr64_stbls s _ _ _ _
@[simp] theorem bumpStat_vports (s : State) (r : RegId) (i n : Nat) : (s.bumpStat r i n).vports = s.vports := wr64_vports s _ _ _ _
@[simp] theorem bumpStat_paces (s : State) (r : RegId) (i n : Nat) : (s.bumpStat r i n).paces = s.paces := wr64_paces s _ _ _ _
@[simp] theorem bumpStat_txq (s : State) (r : RegId) (i n : Nat) : (s.bumpStat r i n).txq = s.txq := wr64_txq s _ _ _ _
@[simp] theorem bumpStat_tables (s : State) (r : RegId) (i n : Nat) : (s.bumpStat r i n).tables = s.tables := wr64_tables s _ _ _ _
@[simp] theorem bumpStat_flushing (s : State) (r : RegId) (i n : Nat) : (s.bumpStat r i n).flushing = s.flushing := wr64_flushing s _ _ _ _
@[simp] theorem bumpStat_scanning (s : State) (r : RegId) (i n : Nat) : (s.bumpStat r i n).scanning = s.scanning := wr64_scanning s _ _ _ _
@[simp] theorem bumpStat_scanPos (s : State) (r : RegId) (i n : Nat) : (s.bumpStat r i n).scanPos = s.scanPos := wr64_scanPos s _ _ _ _
@[simp] theorem bumpStat_tableRetry (s : State) (r : RegId) (i n : Nat) : (s.bumpStat r i n).tableRetry = s.tableRetry := wr64_tableRetry s _ _ _ _
@[simp] theorem bumpStat_scanAt (s : State) (r : RegId) (i n : Nat) : (s.bumpStat r i n).scanAt = s.scanAt := wr64_scanAt s _ _ _ _
@[simp] theorem bumpStat_learnQ (s : State) (r : RegId) (i n : Nat) : (s.bumpStat r i n).learnQ = s.learnQ := wr64_learnQ s _ _ _ _
@[simp] theorem bumpStat_nrOvr (s : State) (r : RegId) (i n : Nat) : (s.bumpStat r i n).nrOvr = s.nrOvr := wr64_nrOvr s _ _ _ _
@[simp] theorem bumpStat_removeQ (s : State) (r : RegId) (i n : Nat) : (s.bumpStat r i n).removeQ = s.removeQ := wr64_removeQ s _ _ _ _
@[simp] theorem bumpStat_qps (s : State) (r : RegId) (i n : Nat) : (s.bumpStat r i n).qps = s.qps := wr64_qps s _ _ _ _
@[simp] theorem bumpStat_ctxs (s : State) (r : RegId) (i n : Nat) : (s.bumpStat r i n).ctxs = s.ctxs := wr64_ctxs s _ _ _ _
@[simp] theorem bumpStat_quotas (s : State) (r : RegId) (i n : Nat) : (s.bumpStat r i n).quotas = s.quotas := wr64_quotas s _ _ _ _
@[simp] theorem bumpStat_hand (s : State) (r : RegId) (i n : Nat) : (s.bumpStat r i n).hand = s.hand := wr64_hand s _ _ _ _
@[simp] theorem bumpStat_lastCharge (s : State) (r : RegId) (i n : Nat) : (s.bumpStat r i n).lastCharge = s.lastCharge := wr64_lastCharge s _ _ _ _
@[simp] theorem bumpStat_chargeRetry (s : State) (r : RegId) (i n : Nat) : (s.bumpStat r i n).chargeRetry = s.chargeRetry := wr64_chargeRetry s _ _ _ _
@[simp] theorem bumpStat_ctls (s : State) (r : RegId) (i n : Nat) : (s.bumpStat r i n).ctls = s.ctls := wr64_ctls s _ _ _ _
@[simp] theorem bumpStat_nss (s : State) (r : RegId) (i n : Nat) : (s.bumpStat r i n).nss = s.nss := wr64_nss s _ _ _ _
@[simp] theorem bumpStat_bkqs (s : State) (r : RegId) (i n : Nat) : (s.bumpStat r i n).bkqs = s.bkqs := wr64_bkqs s _ _ _ _
@[simp] theorem bumpStat_nvCmds (s : State) (r : RegId) (i n : Nat) : (s.bumpStat r i n).nvCmds = s.nvCmds := wr64_nvCmds s _ _ _ _
@[simp] theorem bumpStat_nextToken (s : State) (r : RegId) (i n : Nat) : (s.bumpStat r i n).nextToken = s.nextToken := wr64_nextToken s _ _ _ _
@[simp] theorem bumpStat_engines (s : State) (r : RegId) (i n : Nat) : (s.bumpStat r i n).engines = s.engines := wr64_engines s _ _ _ _
@[simp] theorem bumpStat_slots (s : State) (r : RegId) (i n : Nat) : (s.bumpStat r i n).slots = s.slots := wr64_slots s _ _ _ _
@[simp] theorem bumpStat_cached (s : State) (r : RegId) (i n : Nat) : (s.bumpStat r i n).cached = s.cached := wr64_cached s _ _ _ _
@[simp] theorem bumpStat_keyStage (s : State) (r : RegId) (i n : Nat) : (s.bumpStat r i n).keyStage = s.keyStage := wr64_keyStage s _ _ _ _
@[simp] theorem bumpStat_sas (s : State) (r : RegId) (i n : Nat) : (s.bumpStat r i n).sas = s.sas := wr64_sas s _ _ _ _
@[simp] theorem bumpStat_macStat (s : State) (r : RegId) (i n : Nat) : (s.bumpStat r i n).macStat = s.macStat := wr64_macStat s _ _ _ _
@[simp] theorem bumpStat_harts (s : State) (r : RegId) (i n : Nat) : (s.bumpStat r i n).harts = s.harts := wr64_harts s _ _ _ _
@[simp] theorem bumpStat_workqs (s : State) (r : RegId) (i n : Nat) : (s.bumpStat r i n).workqs = s.workqs := wr64_workqs s _ _ _ _
@[simp] theorem bumpStat_heldBy (s : State) (r : RegId) (i n : Nat) : (s.bumpStat r i n).heldBy = s.heldBy := wr64_heldBy s _ _ _ _
@[simp] theorem bumpStat_weights (s : State) (r : RegId) (i n : Nat) : (s.bumpStat r i n).weights = s.weights := wr64_weights s _ _ _ _
@[simp] theorem bumpStat_deficits (s : State) (r : RegId) (i n : Nat) : (s.bumpStat r i n).deficits = s.deficits := wr64_deficits s _ _ _ _
@[simp] theorem bumpStat_cells (s : State) (r : RegId) (i n : Nat) : (s.bumpStat r i n).cells = s.cells := wr64_cells s _ _ _ _
@[simp] theorem bumpStat_tests (s : State) (r : RegId) (i n : Nat) : (s.bumpStat r i n).tests = s.tests := wr64_tests s _ _ _ _
@[simp] theorem bumpStat_drainAt (s : State) (r : RegId) (i n : Nat) : (s.bumpStat r i n).drainAt = s.drainAt := wr64_drainAt s _ _ _ _
@[simp] theorem bumpStat_canaries (s : State) (r : RegId) (i n : Nat) : (s.bumpStat r i n).canaries = s.canaries := wr64_canaries s _ _ _ _
@[simp] theorem bumpStat_canNext (s : State) (r : RegId) (i n : Nat) : (s.bumpStat r i n).canNext = s.canNext := wr64_canNext s _ _ _ _
@[simp] theorem bumpStat_canMiss (s : State) (r : RegId) (i n : Nat) : (s.bumpStat r i n).canMiss = s.canMiss := wr64_canMiss s _ _ _ _
@[simp] theorem bumpStat_memctl (s : State) (r : RegId) (i n : Nat) : (s.bumpStat r i n).memctl = s.memctl := wr64_memctl s _ _ _ _
@[simp] theorem bumpStat_regions (s : State) (r : RegId) (i n : Nat) : (s.bumpStat r i n).regions = s.regions := wr64_regions s _ _ _ _
@[simp] theorem bumpStat_panic (s : State) (r : RegId) (i n : Nat) : (s.bumpStat r i n).panic = s.panic := wr64_panic s _ _ _ _
@[simp] theorem bumpStat_tenants (s : State) (r : RegId) (i n : Nat) : (s.bumpStat r i n).tenants = s.tenants := wr64_tenants s _ _ _ _
@[simp] theorem bumpStat_drains (s : State) (r : RegId) (i n : Nat) : (s.bumpStat r i n).drains = s.drains := wr64_drains s _ _ _ _
@[simp] theorem bumpStat_lateReads (s : State) (r : RegId) (i n : Nat) : (s.bumpStat r i n).lateReads = s.lateReads := wr64_lateReads s _ _ _ _
@[simp] theorem bumpStat_met (s : State) (r : RegId) (i n : Nat) : (s.bumpStat r i n).met = s.met := wr64_met s _ _ _ _
@[simp] theorem bumpStat_twin (s : State) (r : RegId) (i n : Nat) : (s.bumpStat r i n).twin = s.twin := wr64_twin s _ _ _ _
@[simp] theorem bumpStat_boot (s : State) (r : RegId) (i n : Nat) : (s.bumpStat r i n).boot = s.boot := wr64_boot s _ _ _ _
@[simp] theorem bumpStat_dax (s : State) (r : RegId) (i n : Nat) : (s.bumpStat r i n).dax = s.dax := wr64_dax s _ _ _ _
@[simp] theorem bumpStat_flt (s : State) (r : RegId) (i n : Nat) : (s.bumpStat r i n).flt = s.flt := wr64_flt s _ _ _ _
@[simp] theorem bumpStat_pwr (s : State) (r : RegId) (i n : Nat) : (s.bumpStat r i n).pwr = s.pwr := wr64_pwr s _ _ _ _

/-! ## setState -/

@[simp] theorem setState_pending (s : State) (b i v : Nat) : (s.setState b i v).pending = s.pending := rfl
@[simp] theorem setState_now (s : State) (b i v : Nat) : (s.setState b i v).now = s.now := rfl
@[simp] theorem setState_bref (s : State) (b i v : Nat) : (s.setState b i v).bref = s.bref := rfl
@[simp] theorem setState_free (s : State) (b i v : Nat) : (s.setState b i v).free = s.free := rfl
@[simp] theorem setState_out (s : State) (b i v : Nat) : (s.setState b i v).out = s.out := rfl
@[simp] theorem setState_mem (s : State) (b i v : Nat) : (s.setState b i v).mem = s.mem := rfl
@[simp] theorem setState_regs (s : State) (b i v : Nat) : (s.setState b i v).regs = s.regs := rfl
@[simp] theorem setState_latches (s : State) (b i v : Nat) : (s.setState b i v).latches = s.latches := rfl
@[simp] theorem setState_stages (s : State) (b i v : Nat) : (s.setState b i v).stages = s.stages := rfl
@[simp] theorem setState_snaps (s : State) (b i v : Nat) : (s.setState b i v).snaps = s.snaps := rfl
@[simp] theorem setState_running (s : State) (b i v : Nat) : (s.setState b i v).running = s.running := rfl
@[simp] theorem setState_typePend (s : State) (b i v : Nat) : (s.setState b i v).typePend = s.typePend := rfl
@[simp] theorem setState_faulted (s : State) (b i v : Nat) : (s.setState b i v).faulted = s.faulted := rfl
@[simp] theorem setState_degraded (s : State) (b i v : Nat) : (s.setState b i v).degraded = s.degraded := rfl
@[simp] theorem setState_resetting (s : State) (b i v : Nat) : (s.setState b i v).resetting = s.resetting := rfl
@[simp] theorem setState_clk (s : State) (b i v : Nat) : (s.setState b i v).clk = s.clk := rfl
@[simp] theorem setState_cal (s : State) (b i v : Nat) : (s.setState b i v).cal = s.cal := rfl
@[simp] theorem setState_hports (s : State) (b i v : Nat) : (s.setState b i v).hports = s.hports := rfl
@[simp] theorem setState_funcs (s : State) (b i v : Nat) : (s.setState b i v).funcs = s.funcs := rfl
@[simp] theorem setState_octUp (s : State) (b i v : Nat) : (s.setState b i v).octUp = s.octUp := rfl
@[simp] theorem setState_emacStat (s : State) (b i v : Nat) : (s.setState b i v).emacStat = s.emacStat := rfl
@[simp] theorem setState_windows (s : State) (b i v : Nat) : (s.setState b i v).windows = s.windows := rfl
@[simp] theorem setState_queues (s : State) (b i v : Nat) : (s.setState b i v).queues = s.queues := rfl
@[simp] theorem setState_rings (s : State) (b i v : Nat) : (s.setState b i v).rings = s.rings := rfl
@[simp] theorem setState_dma (s : State) (b i v : Nat) : (s.setState b i v).dma = s.dma := rfl
@[simp] theorem setState_nodes (s : State) (b i v : Nat) : (s.setState b i v).nodes = s.nodes := rfl
@[simp] theorem setState_banks (s : State) (b i v : Nat) : (s.setState b i v).banks = s.banks := rfl
@[simp] theorem setState_portProf (s : State) (b i v : Nat) : (s.setState b i v).portProf = s.portProf := rfl
@[simp] theorem setState_malCnt (s : State) (b i v : Nat) : (s.setState b i v).malCnt = s.malCnt := rfl
@[simp] theorem setState_frags (s : State) (b i v : Nat) : (s.setState b i v).frags = s.frags := rfl
@[simp] theorem setState_keyProf (s : State) (b i v : Nat) : (s.setState b i v).keyProf = s.keyProf := rfl
@[simp] theorem setState_ranges (s : State) (b i v : Nat) : (s.setState b i v).ranges = s.ranges := rfl
@[simp] theorem setState_arecs (s : State) (b i v : Nat) : (s.setState b i v).arecs = s.arecs := rfl
@[simp] theorem setState_tmpls (s : State) (b i v : Nat) : (s.setState b i v).tmpls = s.tmpls := rfl
@[simp] theorem setState_hprofs (s : State) (b i v : Nat) : (s.setState b i v).hprofs = s.hprofs := rfl
@[simp] theorem setState_tkeys (s : State) (b i v : Nat) : (s.setState b i v).tkeys = s.tkeys := rfl
@[simp] theorem setState_pgrps (s : State) (b i v : Nat) : (s.setState b i v).pgrps = s.pgrps := rfl
@[simp] theorem setState_stbls (s : State) (b i v : Nat) : (s.setState b i v).stbls = s.stbls := rfl
@[simp] theorem setState_vports (s : State) (b i v : Nat) : (s.setState b i v).vports = s.vports := rfl
@[simp] theorem setState_paces (s : State) (b i v : Nat) : (s.setState b i v).paces = s.paces := rfl
@[simp] theorem setState_txq (s : State) (b i v : Nat) : (s.setState b i v).txq = s.txq := rfl
@[simp] theorem setState_tables (s : State) (b i v : Nat) : (s.setState b i v).tables = s.tables := rfl
@[simp] theorem setState_flushing (s : State) (b i v : Nat) : (s.setState b i v).flushing = s.flushing := rfl
@[simp] theorem setState_scanning (s : State) (b i v : Nat) : (s.setState b i v).scanning = s.scanning := rfl
@[simp] theorem setState_scanPos (s : State) (b i v : Nat) : (s.setState b i v).scanPos = s.scanPos := rfl
@[simp] theorem setState_tableRetry (s : State) (b i v : Nat) : (s.setState b i v).tableRetry = s.tableRetry := rfl
@[simp] theorem setState_scanAt (s : State) (b i v : Nat) : (s.setState b i v).scanAt = s.scanAt := rfl
@[simp] theorem setState_learnQ (s : State) (b i v : Nat) : (s.setState b i v).learnQ = s.learnQ := rfl
@[simp] theorem setState_nrOvr (s : State) (b i v : Nat) : (s.setState b i v).nrOvr = s.nrOvr := rfl
@[simp] theorem setState_removeQ (s : State) (b i v : Nat) : (s.setState b i v).removeQ = s.removeQ := rfl
@[simp] theorem setState_qps (s : State) (b i v : Nat) : (s.setState b i v).qps = s.qps := rfl
@[simp] theorem setState_ctxs (s : State) (b i v : Nat) : (s.setState b i v).ctxs = s.ctxs := rfl
@[simp] theorem setState_quotas (s : State) (b i v : Nat) : (s.setState b i v).quotas = s.quotas := rfl
@[simp] theorem setState_hand (s : State) (b i v : Nat) : (s.setState b i v).hand = s.hand := rfl
@[simp] theorem setState_lastCharge (s : State) (b i v : Nat) : (s.setState b i v).lastCharge = s.lastCharge := rfl
@[simp] theorem setState_chargeRetry (s : State) (b i v : Nat) : (s.setState b i v).chargeRetry = s.chargeRetry := rfl
@[simp] theorem setState_ctls (s : State) (b i v : Nat) : (s.setState b i v).ctls = s.ctls := rfl
@[simp] theorem setState_nss (s : State) (b i v : Nat) : (s.setState b i v).nss = s.nss := rfl
@[simp] theorem setState_bkqs (s : State) (b i v : Nat) : (s.setState b i v).bkqs = s.bkqs := rfl
@[simp] theorem setState_nvCmds (s : State) (b i v : Nat) : (s.setState b i v).nvCmds = s.nvCmds := rfl
@[simp] theorem setState_nextToken (s : State) (b i v : Nat) : (s.setState b i v).nextToken = s.nextToken := rfl
@[simp] theorem setState_engines (s : State) (b i v : Nat) : (s.setState b i v).engines = s.engines := rfl
@[simp] theorem setState_slots (s : State) (b i v : Nat) : (s.setState b i v).slots = s.slots := rfl
@[simp] theorem setState_cached (s : State) (b i v : Nat) : (s.setState b i v).cached = s.cached := rfl
@[simp] theorem setState_keyStage (s : State) (b i v : Nat) : (s.setState b i v).keyStage = s.keyStage := rfl
@[simp] theorem setState_sas (s : State) (b i v : Nat) : (s.setState b i v).sas = s.sas := rfl
@[simp] theorem setState_macStat (s : State) (b i v : Nat) : (s.setState b i v).macStat = s.macStat := rfl
@[simp] theorem setState_harts (s : State) (b i v : Nat) : (s.setState b i v).harts = s.harts := rfl
@[simp] theorem setState_workqs (s : State) (b i v : Nat) : (s.setState b i v).workqs = s.workqs := rfl
@[simp] theorem setState_heldBy (s : State) (b i v : Nat) : (s.setState b i v).heldBy = s.heldBy := rfl
@[simp] theorem setState_weights (s : State) (b i v : Nat) : (s.setState b i v).weights = s.weights := rfl
@[simp] theorem setState_deficits (s : State) (b i v : Nat) : (s.setState b i v).deficits = s.deficits := rfl
@[simp] theorem setState_cells (s : State) (b i v : Nat) : (s.setState b i v).cells = s.cells := rfl
@[simp] theorem setState_tests (s : State) (b i v : Nat) : (s.setState b i v).tests = s.tests := rfl
@[simp] theorem setState_drainAt (s : State) (b i v : Nat) : (s.setState b i v).drainAt = s.drainAt := rfl
@[simp] theorem setState_canaries (s : State) (b i v : Nat) : (s.setState b i v).canaries = s.canaries := rfl
@[simp] theorem setState_canNext (s : State) (b i v : Nat) : (s.setState b i v).canNext = s.canNext := rfl
@[simp] theorem setState_canMiss (s : State) (b i v : Nat) : (s.setState b i v).canMiss = s.canMiss := rfl
@[simp] theorem setState_memctl (s : State) (b i v : Nat) : (s.setState b i v).memctl = s.memctl := rfl
@[simp] theorem setState_regions (s : State) (b i v : Nat) : (s.setState b i v).regions = s.regions := rfl
@[simp] theorem setState_panic (s : State) (b i v : Nat) : (s.setState b i v).panic = s.panic := rfl
@[simp] theorem setState_tenants (s : State) (b i v : Nat) : (s.setState b i v).tenants = s.tenants := rfl
@[simp] theorem setState_drains (s : State) (b i v : Nat) : (s.setState b i v).drains = s.drains := rfl
@[simp] theorem setState_lateReads (s : State) (b i v : Nat) : (s.setState b i v).lateReads = s.lateReads := rfl
@[simp] theorem setState_met (s : State) (b i v : Nat) : (s.setState b i v).met = s.met := rfl
@[simp] theorem setState_twin (s : State) (b i v : Nat) : (s.setState b i v).twin = s.twin := rfl
@[simp] theorem setState_boot (s : State) (b i v : Nat) : (s.setState b i v).boot = s.boot := rfl
@[simp] theorem setState_dax (s : State) (b i v : Nat) : (s.setState b i v).dax = s.dax := rfl
@[simp] theorem setState_flt (s : State) (b i v : Nat) : (s.setState b i v).flt = s.flt := rfl
@[simp] theorem setState_pwr (s : State) (b i v : Nat) : (s.setState b i v).pwr = s.pwr := rfl

/-! ## pass -/

@[simp] theorem pass_pending (s : State) (dt : Nat) : (s.pass dt).pending = s.pending := rfl
@[simp] theorem pass_free (s : State) (dt : Nat) : (s.pass dt).free = s.free := rfl
@[simp] theorem pass_out (s : State) (dt : Nat) : (s.pass dt).out = s.out := rfl
@[simp] theorem pass_mem (s : State) (dt : Nat) : (s.pass dt).mem = s.mem := rfl
@[simp] theorem pass_regs (s : State) (dt : Nat) : (s.pass dt).regs = s.regs := rfl
@[simp] theorem pass_latches (s : State) (dt : Nat) : (s.pass dt).latches = s.latches := rfl
@[simp] theorem pass_stages (s : State) (dt : Nat) : (s.pass dt).stages = s.stages := rfl
@[simp] theorem pass_snaps (s : State) (dt : Nat) : (s.pass dt).snaps = s.snaps := rfl
@[simp] theorem pass_running (s : State) (dt : Nat) : (s.pass dt).running = s.running := rfl
@[simp] theorem pass_typePend (s : State) (dt : Nat) : (s.pass dt).typePend = s.typePend := rfl
@[simp] theorem pass_pgState (s : State) (dt : Nat) : (s.pass dt).pgState = s.pgState := rfl
@[simp] theorem pass_faulted (s : State) (dt : Nat) : (s.pass dt).faulted = s.faulted := rfl
@[simp] theorem pass_degraded (s : State) (dt : Nat) : (s.pass dt).degraded = s.degraded := rfl
@[simp] theorem pass_resetting (s : State) (dt : Nat) : (s.pass dt).resetting = s.resetting := rfl
@[simp] theorem pass_clk (s : State) (dt : Nat) : (s.pass dt).clk = s.clk := rfl
@[simp] theorem pass_cal (s : State) (dt : Nat) : (s.pass dt).cal = s.cal := rfl
@[simp] theorem pass_hports (s : State) (dt : Nat) : (s.pass dt).hports = s.hports := rfl
@[simp] theorem pass_funcs (s : State) (dt : Nat) : (s.pass dt).funcs = s.funcs := rfl
@[simp] theorem pass_octUp (s : State) (dt : Nat) : (s.pass dt).octUp = s.octUp := rfl
@[simp] theorem pass_emacStat (s : State) (dt : Nat) : (s.pass dt).emacStat = s.emacStat := rfl
@[simp] theorem pass_windows (s : State) (dt : Nat) : (s.pass dt).windows = s.windows := rfl
@[simp] theorem pass_queues (s : State) (dt : Nat) : (s.pass dt).queues = s.queues := rfl
@[simp] theorem pass_rings (s : State) (dt : Nat) : (s.pass dt).rings = s.rings := rfl
@[simp] theorem pass_dma (s : State) (dt : Nat) : (s.pass dt).dma = s.dma := rfl
@[simp] theorem pass_nodes (s : State) (dt : Nat) : (s.pass dt).nodes = s.nodes := rfl
@[simp] theorem pass_banks (s : State) (dt : Nat) : (s.pass dt).banks = s.banks := rfl
@[simp] theorem pass_portProf (s : State) (dt : Nat) : (s.pass dt).portProf = s.portProf := rfl
@[simp] theorem pass_malCnt (s : State) (dt : Nat) : (s.pass dt).malCnt = s.malCnt := rfl
@[simp] theorem pass_frags (s : State) (dt : Nat) : (s.pass dt).frags = s.frags := rfl
@[simp] theorem pass_keyProf (s : State) (dt : Nat) : (s.pass dt).keyProf = s.keyProf := rfl
@[simp] theorem pass_ranges (s : State) (dt : Nat) : (s.pass dt).ranges = s.ranges := rfl
@[simp] theorem pass_arecs (s : State) (dt : Nat) : (s.pass dt).arecs = s.arecs := rfl
@[simp] theorem pass_tmpls (s : State) (dt : Nat) : (s.pass dt).tmpls = s.tmpls := rfl
@[simp] theorem pass_hprofs (s : State) (dt : Nat) : (s.pass dt).hprofs = s.hprofs := rfl
@[simp] theorem pass_tkeys (s : State) (dt : Nat) : (s.pass dt).tkeys = s.tkeys := rfl
@[simp] theorem pass_pgrps (s : State) (dt : Nat) : (s.pass dt).pgrps = s.pgrps := rfl
@[simp] theorem pass_stbls (s : State) (dt : Nat) : (s.pass dt).stbls = s.stbls := rfl
@[simp] theorem pass_vports (s : State) (dt : Nat) : (s.pass dt).vports = s.vports := rfl
@[simp] theorem pass_paces (s : State) (dt : Nat) : (s.pass dt).paces = s.paces := rfl
@[simp] theorem pass_txq (s : State) (dt : Nat) : (s.pass dt).txq = s.txq := rfl
@[simp] theorem pass_tables (s : State) (dt : Nat) : (s.pass dt).tables = s.tables := rfl
@[simp] theorem pass_flushing (s : State) (dt : Nat) : (s.pass dt).flushing = s.flushing := rfl
@[simp] theorem pass_scanning (s : State) (dt : Nat) : (s.pass dt).scanning = s.scanning := rfl
@[simp] theorem pass_scanPos (s : State) (dt : Nat) : (s.pass dt).scanPos = s.scanPos := rfl
@[simp] theorem pass_tableRetry (s : State) (dt : Nat) : (s.pass dt).tableRetry = s.tableRetry := rfl
@[simp] theorem pass_scanAt (s : State) (dt : Nat) : (s.pass dt).scanAt = s.scanAt := rfl
@[simp] theorem pass_learnQ (s : State) (dt : Nat) : (s.pass dt).learnQ = s.learnQ := rfl
@[simp] theorem pass_nrOvr (s : State) (dt : Nat) : (s.pass dt).nrOvr = s.nrOvr := rfl
@[simp] theorem pass_removeQ (s : State) (dt : Nat) : (s.pass dt).removeQ = s.removeQ := rfl
@[simp] theorem pass_qps (s : State) (dt : Nat) : (s.pass dt).qps = s.qps := rfl
@[simp] theorem pass_ctxs (s : State) (dt : Nat) : (s.pass dt).ctxs = s.ctxs := rfl
@[simp] theorem pass_quotas (s : State) (dt : Nat) : (s.pass dt).quotas = s.quotas := rfl
@[simp] theorem pass_hand (s : State) (dt : Nat) : (s.pass dt).hand = s.hand := rfl
@[simp] theorem pass_lastCharge (s : State) (dt : Nat) : (s.pass dt).lastCharge = s.lastCharge := rfl
@[simp] theorem pass_chargeRetry (s : State) (dt : Nat) : (s.pass dt).chargeRetry = s.chargeRetry := rfl
@[simp] theorem pass_ctls (s : State) (dt : Nat) : (s.pass dt).ctls = s.ctls := rfl
@[simp] theorem pass_nss (s : State) (dt : Nat) : (s.pass dt).nss = s.nss := rfl
@[simp] theorem pass_bkqs (s : State) (dt : Nat) : (s.pass dt).bkqs = s.bkqs := rfl
@[simp] theorem pass_nvCmds (s : State) (dt : Nat) : (s.pass dt).nvCmds = s.nvCmds := rfl
@[simp] theorem pass_nextToken (s : State) (dt : Nat) : (s.pass dt).nextToken = s.nextToken := rfl
@[simp] theorem pass_engines (s : State) (dt : Nat) : (s.pass dt).engines = s.engines := rfl
@[simp] theorem pass_slots (s : State) (dt : Nat) : (s.pass dt).slots = s.slots := rfl
@[simp] theorem pass_cached (s : State) (dt : Nat) : (s.pass dt).cached = s.cached := rfl
@[simp] theorem pass_keyStage (s : State) (dt : Nat) : (s.pass dt).keyStage = s.keyStage := rfl
@[simp] theorem pass_sas (s : State) (dt : Nat) : (s.pass dt).sas = s.sas := rfl
@[simp] theorem pass_macStat (s : State) (dt : Nat) : (s.pass dt).macStat = s.macStat := rfl
@[simp] theorem pass_harts (s : State) (dt : Nat) : (s.pass dt).harts = s.harts := rfl
@[simp] theorem pass_workqs (s : State) (dt : Nat) : (s.pass dt).workqs = s.workqs := rfl
@[simp] theorem pass_heldBy (s : State) (dt : Nat) : (s.pass dt).heldBy = s.heldBy := rfl
@[simp] theorem pass_weights (s : State) (dt : Nat) : (s.pass dt).weights = s.weights := rfl
@[simp] theorem pass_deficits (s : State) (dt : Nat) : (s.pass dt).deficits = s.deficits := rfl
@[simp] theorem pass_cells (s : State) (dt : Nat) : (s.pass dt).cells = s.cells := rfl
@[simp] theorem pass_tests (s : State) (dt : Nat) : (s.pass dt).tests = s.tests := rfl
@[simp] theorem pass_drainAt (s : State) (dt : Nat) : (s.pass dt).drainAt = s.drainAt := rfl
@[simp] theorem pass_canaries (s : State) (dt : Nat) : (s.pass dt).canaries = s.canaries := rfl
@[simp] theorem pass_canNext (s : State) (dt : Nat) : (s.pass dt).canNext = s.canNext := rfl
@[simp] theorem pass_canMiss (s : State) (dt : Nat) : (s.pass dt).canMiss = s.canMiss := rfl
@[simp] theorem pass_memctl (s : State) (dt : Nat) : (s.pass dt).memctl = s.memctl := rfl
@[simp] theorem pass_regions (s : State) (dt : Nat) : (s.pass dt).regions = s.regions := rfl
@[simp] theorem pass_panic (s : State) (dt : Nat) : (s.pass dt).panic = s.panic := rfl
@[simp] theorem pass_tenants (s : State) (dt : Nat) : (s.pass dt).tenants = s.tenants := rfl
@[simp] theorem pass_drains (s : State) (dt : Nat) : (s.pass dt).drains = s.drains := rfl
@[simp] theorem pass_lateReads (s : State) (dt : Nat) : (s.pass dt).lateReads = s.lateReads := rfl
@[simp] theorem pass_met (s : State) (dt : Nat) : (s.pass dt).met = s.met := rfl
@[simp] theorem pass_twin (s : State) (dt : Nat) : (s.pass dt).twin = s.twin := rfl
@[simp] theorem pass_boot (s : State) (dt : Nat) : (s.pass dt).boot = s.boot := rfl
@[simp] theorem pass_dax (s : State) (dt : Nat) : (s.pass dt).dax = s.dax := rfl
@[simp] theorem pass_flt (s : State) (dt : Nat) : (s.pass dt).flt = s.flt := rfl
@[simp] theorem pass_pwr (s : State) (dt : Nat) : (s.pass dt).pwr = s.pwr := rfl

/-! ## reach -/

@[simp] theorem reach_pending (s : State) (d : Nat) : (s.reach d).pending = s.pending := by unfold reach; split <;> rfl
@[simp] theorem reach_free (s : State) (d : Nat) : (s.reach d).free = s.free := by unfold reach; split <;> rfl
@[simp] theorem reach_out (s : State) (d : Nat) : (s.reach d).out = s.out := by unfold reach; split <;> rfl
@[simp] theorem reach_mem (s : State) (d : Nat) : (s.reach d).mem = s.mem := by unfold reach; split <;> rfl
@[simp] theorem reach_regs (s : State) (d : Nat) : (s.reach d).regs = s.regs := by unfold reach; split <;> rfl
@[simp] theorem reach_latches (s : State) (d : Nat) : (s.reach d).latches = s.latches := by unfold reach; split <;> rfl
@[simp] theorem reach_stages (s : State) (d : Nat) : (s.reach d).stages = s.stages := by unfold reach; split <;> rfl
@[simp] theorem reach_snaps (s : State) (d : Nat) : (s.reach d).snaps = s.snaps := by unfold reach; split <;> rfl
@[simp] theorem reach_running (s : State) (d : Nat) : (s.reach d).running = s.running := by unfold reach; split <;> rfl
@[simp] theorem reach_typePend (s : State) (d : Nat) : (s.reach d).typePend = s.typePend := by unfold reach; split <;> rfl
@[simp] theorem reach_pgState (s : State) (d : Nat) : (s.reach d).pgState = s.pgState := by unfold reach; split <;> rfl
@[simp] theorem reach_faulted (s : State) (d : Nat) : (s.reach d).faulted = s.faulted := by unfold reach; split <;> rfl
@[simp] theorem reach_degraded (s : State) (d : Nat) : (s.reach d).degraded = s.degraded := by unfold reach; split <;> rfl
@[simp] theorem reach_resetting (s : State) (d : Nat) : (s.reach d).resetting = s.resetting := by unfold reach; split <;> rfl
@[simp] theorem reach_clk (s : State) (d : Nat) : (s.reach d).clk = s.clk := by unfold reach; split <;> rfl
@[simp] theorem reach_cal (s : State) (d : Nat) : (s.reach d).cal = s.cal := by unfold reach; split <;> rfl
@[simp] theorem reach_hports (s : State) (d : Nat) : (s.reach d).hports = s.hports := by unfold reach; split <;> rfl
@[simp] theorem reach_funcs (s : State) (d : Nat) : (s.reach d).funcs = s.funcs := by unfold reach; split <;> rfl
@[simp] theorem reach_octUp (s : State) (d : Nat) : (s.reach d).octUp = s.octUp := by unfold reach; split <;> rfl
@[simp] theorem reach_emacStat (s : State) (d : Nat) : (s.reach d).emacStat = s.emacStat := by unfold reach; split <;> rfl
@[simp] theorem reach_windows (s : State) (d : Nat) : (s.reach d).windows = s.windows := by unfold reach; split <;> rfl
@[simp] theorem reach_queues (s : State) (d : Nat) : (s.reach d).queues = s.queues := by unfold reach; split <;> rfl
@[simp] theorem reach_rings (s : State) (d : Nat) : (s.reach d).rings = s.rings := by unfold reach; split <;> rfl
@[simp] theorem reach_dma (s : State) (d : Nat) : (s.reach d).dma = s.dma := by unfold reach; split <;> rfl
@[simp] theorem reach_nodes (s : State) (d : Nat) : (s.reach d).nodes = s.nodes := by unfold reach; split <;> rfl
@[simp] theorem reach_banks (s : State) (d : Nat) : (s.reach d).banks = s.banks := by unfold reach; split <;> rfl
@[simp] theorem reach_portProf (s : State) (d : Nat) : (s.reach d).portProf = s.portProf := by unfold reach; split <;> rfl
@[simp] theorem reach_malCnt (s : State) (d : Nat) : (s.reach d).malCnt = s.malCnt := by unfold reach; split <;> rfl
@[simp] theorem reach_frags (s : State) (d : Nat) : (s.reach d).frags = s.frags := by unfold reach; split <;> rfl
@[simp] theorem reach_keyProf (s : State) (d : Nat) : (s.reach d).keyProf = s.keyProf := by unfold reach; split <;> rfl
@[simp] theorem reach_ranges (s : State) (d : Nat) : (s.reach d).ranges = s.ranges := by unfold reach; split <;> rfl
@[simp] theorem reach_arecs (s : State) (d : Nat) : (s.reach d).arecs = s.arecs := by unfold reach; split <;> rfl
@[simp] theorem reach_tmpls (s : State) (d : Nat) : (s.reach d).tmpls = s.tmpls := by unfold reach; split <;> rfl
@[simp] theorem reach_hprofs (s : State) (d : Nat) : (s.reach d).hprofs = s.hprofs := by unfold reach; split <;> rfl
@[simp] theorem reach_tkeys (s : State) (d : Nat) : (s.reach d).tkeys = s.tkeys := by unfold reach; split <;> rfl
@[simp] theorem reach_pgrps (s : State) (d : Nat) : (s.reach d).pgrps = s.pgrps := by unfold reach; split <;> rfl
@[simp] theorem reach_stbls (s : State) (d : Nat) : (s.reach d).stbls = s.stbls := by unfold reach; split <;> rfl
@[simp] theorem reach_vports (s : State) (d : Nat) : (s.reach d).vports = s.vports := by unfold reach; split <;> rfl
@[simp] theorem reach_paces (s : State) (d : Nat) : (s.reach d).paces = s.paces := by unfold reach; split <;> rfl
@[simp] theorem reach_txq (s : State) (d : Nat) : (s.reach d).txq = s.txq := by unfold reach; split <;> rfl
@[simp] theorem reach_tables (s : State) (d : Nat) : (s.reach d).tables = s.tables := by unfold reach; split <;> rfl
@[simp] theorem reach_flushing (s : State) (d : Nat) : (s.reach d).flushing = s.flushing := by unfold reach; split <;> rfl
@[simp] theorem reach_scanning (s : State) (d : Nat) : (s.reach d).scanning = s.scanning := by unfold reach; split <;> rfl
@[simp] theorem reach_scanPos (s : State) (d : Nat) : (s.reach d).scanPos = s.scanPos := by unfold reach; split <;> rfl
@[simp] theorem reach_tableRetry (s : State) (d : Nat) : (s.reach d).tableRetry = s.tableRetry := by unfold reach; split <;> rfl
@[simp] theorem reach_scanAt (s : State) (d : Nat) : (s.reach d).scanAt = s.scanAt := by unfold reach; split <;> rfl
@[simp] theorem reach_learnQ (s : State) (d : Nat) : (s.reach d).learnQ = s.learnQ := by unfold reach; split <;> rfl
@[simp] theorem reach_nrOvr (s : State) (d : Nat) : (s.reach d).nrOvr = s.nrOvr := by unfold reach; split <;> rfl
@[simp] theorem reach_removeQ (s : State) (d : Nat) : (s.reach d).removeQ = s.removeQ := by unfold reach; split <;> rfl
@[simp] theorem reach_qps (s : State) (d : Nat) : (s.reach d).qps = s.qps := by unfold reach; split <;> rfl
@[simp] theorem reach_ctxs (s : State) (d : Nat) : (s.reach d).ctxs = s.ctxs := by unfold reach; split <;> rfl
@[simp] theorem reach_quotas (s : State) (d : Nat) : (s.reach d).quotas = s.quotas := by unfold reach; split <;> rfl
@[simp] theorem reach_hand (s : State) (d : Nat) : (s.reach d).hand = s.hand := by unfold reach; split <;> rfl
@[simp] theorem reach_lastCharge (s : State) (d : Nat) : (s.reach d).lastCharge = s.lastCharge := by unfold reach; split <;> rfl
@[simp] theorem reach_chargeRetry (s : State) (d : Nat) : (s.reach d).chargeRetry = s.chargeRetry := by unfold reach; split <;> rfl
@[simp] theorem reach_ctls (s : State) (d : Nat) : (s.reach d).ctls = s.ctls := by unfold reach; split <;> rfl
@[simp] theorem reach_nss (s : State) (d : Nat) : (s.reach d).nss = s.nss := by unfold reach; split <;> rfl
@[simp] theorem reach_bkqs (s : State) (d : Nat) : (s.reach d).bkqs = s.bkqs := by unfold reach; split <;> rfl
@[simp] theorem reach_nvCmds (s : State) (d : Nat) : (s.reach d).nvCmds = s.nvCmds := by unfold reach; split <;> rfl
@[simp] theorem reach_nextToken (s : State) (d : Nat) : (s.reach d).nextToken = s.nextToken := by unfold reach; split <;> rfl
@[simp] theorem reach_engines (s : State) (d : Nat) : (s.reach d).engines = s.engines := by unfold reach; split <;> rfl
@[simp] theorem reach_slots (s : State) (d : Nat) : (s.reach d).slots = s.slots := by unfold reach; split <;> rfl
@[simp] theorem reach_cached (s : State) (d : Nat) : (s.reach d).cached = s.cached := by unfold reach; split <;> rfl
@[simp] theorem reach_keyStage (s : State) (d : Nat) : (s.reach d).keyStage = s.keyStage := by unfold reach; split <;> rfl
@[simp] theorem reach_sas (s : State) (d : Nat) : (s.reach d).sas = s.sas := by unfold reach; split <;> rfl
@[simp] theorem reach_macStat (s : State) (d : Nat) : (s.reach d).macStat = s.macStat := by unfold reach; split <;> rfl
@[simp] theorem reach_harts (s : State) (d : Nat) : (s.reach d).harts = s.harts := by unfold reach; split <;> rfl
@[simp] theorem reach_workqs (s : State) (d : Nat) : (s.reach d).workqs = s.workqs := by unfold reach; split <;> rfl
@[simp] theorem reach_heldBy (s : State) (d : Nat) : (s.reach d).heldBy = s.heldBy := by unfold reach; split <;> rfl
@[simp] theorem reach_weights (s : State) (d : Nat) : (s.reach d).weights = s.weights := by unfold reach; split <;> rfl
@[simp] theorem reach_deficits (s : State) (d : Nat) : (s.reach d).deficits = s.deficits := by unfold reach; split <;> rfl
@[simp] theorem reach_cells (s : State) (d : Nat) : (s.reach d).cells = s.cells := by unfold reach; split <;> rfl
@[simp] theorem reach_tests (s : State) (d : Nat) : (s.reach d).tests = s.tests := by unfold reach; split <;> rfl
@[simp] theorem reach_drainAt (s : State) (d : Nat) : (s.reach d).drainAt = s.drainAt := by unfold reach; split <;> rfl
@[simp] theorem reach_canaries (s : State) (d : Nat) : (s.reach d).canaries = s.canaries := by unfold reach; split <;> rfl
@[simp] theorem reach_canNext (s : State) (d : Nat) : (s.reach d).canNext = s.canNext := by unfold reach; split <;> rfl
@[simp] theorem reach_canMiss (s : State) (d : Nat) : (s.reach d).canMiss = s.canMiss := by unfold reach; split <;> rfl
@[simp] theorem reach_memctl (s : State) (d : Nat) : (s.reach d).memctl = s.memctl := by unfold reach; split <;> rfl
@[simp] theorem reach_regions (s : State) (d : Nat) : (s.reach d).regions = s.regions := by unfold reach; split <;> rfl
@[simp] theorem reach_panic (s : State) (d : Nat) : (s.reach d).panic = s.panic := by unfold reach; split <;> rfl
@[simp] theorem reach_tenants (s : State) (d : Nat) : (s.reach d).tenants = s.tenants := by unfold reach; split <;> rfl
@[simp] theorem reach_drains (s : State) (d : Nat) : (s.reach d).drains = s.drains := by unfold reach; split <;> rfl
@[simp] theorem reach_lateReads (s : State) (d : Nat) : (s.reach d).lateReads = s.lateReads := by unfold reach; split <;> rfl
@[simp] theorem reach_met (s : State) (d : Nat) : (s.reach d).met = s.met := by unfold reach; split <;> rfl
@[simp] theorem reach_twin (s : State) (d : Nat) : (s.reach d).twin = s.twin := by unfold reach; split <;> rfl
@[simp] theorem reach_boot (s : State) (d : Nat) : (s.reach d).boot = s.boot := by unfold reach; split <;> rfl
@[simp] theorem reach_dax (s : State) (d : Nat) : (s.reach d).dax = s.dax := by unfold reach; split <;> rfl
@[simp] theorem reach_flt (s : State) (d : Nat) : (s.reach d).flt = s.flt := by unfold reach; split <;> rfl
@[simp] theorem reach_pwr (s : State) (d : Nat) : (s.reach d).pwr = s.pwr := by unfold reach; split <;> rfl

/-! ## bumpErr -/

@[simp] theorem bumpErr_pending (s : State) (b i n k : Nat) : (s.bumpErr b i n k).pending = s.pending := by
  simp only [bumpErr, apply_ite State.pending, istat_pending, hdw_pending, ite_self]
@[simp] theorem bumpErr_now (s : State) (b i n k : Nat) : (s.bumpErr b i n k).now = s.now := by
  simp only [bumpErr, apply_ite State.now, istat_now, hdw_now, ite_self]
@[simp] theorem bumpErr_bref (s : State) (b i n k : Nat) : (s.bumpErr b i n k).bref = s.bref := by
  simp only [bumpErr, apply_ite State.bref, istat_bref, hdw_bref, ite_self]
@[simp] theorem bumpErr_free (s : State) (b i n k : Nat) : (s.bumpErr b i n k).free = s.free := by
  simp only [bumpErr, apply_ite State.free, istat_free, hdw_free, ite_self]
@[simp] theorem bumpErr_out (s : State) (b i n k : Nat) : (s.bumpErr b i n k).out = s.out := by
  simp only [bumpErr, apply_ite State.out, istat_out, hdw_out, ite_self]
@[simp] theorem bumpErr_mem (s : State) (b i n k : Nat) : (s.bumpErr b i n k).mem = s.mem := by
  simp only [bumpErr, apply_ite State.mem, istat_mem, hdw_mem, ite_self]
@[simp] theorem bumpErr_latches (s : State) (b i n k : Nat) : (s.bumpErr b i n k).latches = s.latches := by
  simp only [bumpErr, apply_ite State.latches, istat_latches, hdw_latches, ite_self]
@[simp] theorem bumpErr_stages (s : State) (b i n k : Nat) : (s.bumpErr b i n k).stages = s.stages := by
  simp only [bumpErr, apply_ite State.stages, istat_stages, hdw_stages, ite_self]
@[simp] theorem bumpErr_snaps (s : State) (b i n k : Nat) : (s.bumpErr b i n k).snaps = s.snaps := by
  simp only [bumpErr, apply_ite State.snaps, istat_snaps, hdw_snaps, ite_self]
@[simp] theorem bumpErr_running (s : State) (b i n k : Nat) : (s.bumpErr b i n k).running = s.running := by
  simp only [bumpErr, apply_ite State.running, istat_running, hdw_running, ite_self]
@[simp] theorem bumpErr_typePend (s : State) (b i n k : Nat) : (s.bumpErr b i n k).typePend = s.typePend := by
  simp only [bumpErr, apply_ite State.typePend, istat_typePend, hdw_typePend, ite_self]
@[simp] theorem bumpErr_pgState (s : State) (b i n k : Nat) : (s.bumpErr b i n k).pgState = s.pgState := by
  simp only [bumpErr, apply_ite State.pgState, istat_pgState, hdw_pgState, ite_self]
@[simp] theorem bumpErr_faulted (s : State) (b i n k : Nat) : (s.bumpErr b i n k).faulted = s.faulted := by
  simp only [bumpErr, apply_ite State.faulted, istat_faulted, hdw_faulted, ite_self]
@[simp] theorem bumpErr_degraded (s : State) (b i n k : Nat) : (s.bumpErr b i n k).degraded = s.degraded := by
  simp only [bumpErr, apply_ite State.degraded, istat_degraded, hdw_degraded, ite_self]
@[simp] theorem bumpErr_resetting (s : State) (b i n k : Nat) : (s.bumpErr b i n k).resetting = s.resetting := by
  simp only [bumpErr, apply_ite State.resetting, istat_resetting, hdw_resetting, ite_self]
@[simp] theorem bumpErr_clk (s : State) (b i n k : Nat) : (s.bumpErr b i n k).clk = s.clk := by
  simp only [bumpErr, apply_ite State.clk, istat_clk, hdw_clk, ite_self]
@[simp] theorem bumpErr_cal (s : State) (b i n k : Nat) : (s.bumpErr b i n k).cal = s.cal := by
  simp only [bumpErr, apply_ite State.cal, istat_cal, hdw_cal, ite_self]
@[simp] theorem bumpErr_hports (s : State) (b i n k : Nat) : (s.bumpErr b i n k).hports = s.hports := by
  simp only [bumpErr, apply_ite State.hports, istat_hports, hdw_hports, ite_self]
@[simp] theorem bumpErr_funcs (s : State) (b i n k : Nat) : (s.bumpErr b i n k).funcs = s.funcs := by
  simp only [bumpErr, apply_ite State.funcs, istat_funcs, hdw_funcs, ite_self]
@[simp] theorem bumpErr_octUp (s : State) (b i n k : Nat) : (s.bumpErr b i n k).octUp = s.octUp := by
  simp only [bumpErr, apply_ite State.octUp, istat_octUp, hdw_octUp, ite_self]
@[simp] theorem bumpErr_emacStat (s : State) (b i n k : Nat) : (s.bumpErr b i n k).emacStat = s.emacStat := by
  simp only [bumpErr, apply_ite State.emacStat, istat_emacStat, hdw_emacStat, ite_self]
@[simp] theorem bumpErr_windows (s : State) (b i n k : Nat) : (s.bumpErr b i n k).windows = s.windows := by
  simp only [bumpErr, apply_ite State.windows, istat_windows, hdw_windows, ite_self]
@[simp] theorem bumpErr_queues (s : State) (b i n k : Nat) : (s.bumpErr b i n k).queues = s.queues := by
  simp only [bumpErr, apply_ite State.queues, istat_queues, hdw_queues, ite_self]
@[simp] theorem bumpErr_rings (s : State) (b i n k : Nat) : (s.bumpErr b i n k).rings = s.rings := by
  simp only [bumpErr, apply_ite State.rings, istat_rings, hdw_rings, ite_self]
@[simp] theorem bumpErr_dma (s : State) (b i n k : Nat) : (s.bumpErr b i n k).dma = s.dma := by
  simp only [bumpErr, apply_ite State.dma, istat_dma, hdw_dma, ite_self]
@[simp] theorem bumpErr_nodes (s : State) (b i n k : Nat) : (s.bumpErr b i n k).nodes = s.nodes := by
  simp only [bumpErr, apply_ite State.nodes, istat_nodes, hdw_nodes, ite_self]
@[simp] theorem bumpErr_banks (s : State) (b i n k : Nat) : (s.bumpErr b i n k).banks = s.banks := by
  simp only [bumpErr, apply_ite State.banks, istat_banks, hdw_banks, ite_self]
@[simp] theorem bumpErr_portProf (s : State) (b i n k : Nat) : (s.bumpErr b i n k).portProf = s.portProf := by
  simp only [bumpErr, apply_ite State.portProf, istat_portProf, hdw_portProf, ite_self]
@[simp] theorem bumpErr_malCnt (s : State) (b i n k : Nat) : (s.bumpErr b i n k).malCnt = s.malCnt := by
  simp only [bumpErr, apply_ite State.malCnt, istat_malCnt, hdw_malCnt, ite_self]
@[simp] theorem bumpErr_frags (s : State) (b i n k : Nat) : (s.bumpErr b i n k).frags = s.frags := by
  simp only [bumpErr, apply_ite State.frags, istat_frags, hdw_frags, ite_self]
@[simp] theorem bumpErr_keyProf (s : State) (b i n k : Nat) : (s.bumpErr b i n k).keyProf = s.keyProf := by
  simp only [bumpErr, apply_ite State.keyProf, istat_keyProf, hdw_keyProf, ite_self]
@[simp] theorem bumpErr_ranges (s : State) (b i n k : Nat) : (s.bumpErr b i n k).ranges = s.ranges := by
  simp only [bumpErr, apply_ite State.ranges, istat_ranges, hdw_ranges, ite_self]
@[simp] theorem bumpErr_arecs (s : State) (b i n k : Nat) : (s.bumpErr b i n k).arecs = s.arecs := by
  simp only [bumpErr, apply_ite State.arecs, istat_arecs, hdw_arecs, ite_self]
@[simp] theorem bumpErr_tmpls (s : State) (b i n k : Nat) : (s.bumpErr b i n k).tmpls = s.tmpls := by
  simp only [bumpErr, apply_ite State.tmpls, istat_tmpls, hdw_tmpls, ite_self]
@[simp] theorem bumpErr_hprofs (s : State) (b i n k : Nat) : (s.bumpErr b i n k).hprofs = s.hprofs := by
  simp only [bumpErr, apply_ite State.hprofs, istat_hprofs, hdw_hprofs, ite_self]
@[simp] theorem bumpErr_tkeys (s : State) (b i n k : Nat) : (s.bumpErr b i n k).tkeys = s.tkeys := by
  simp only [bumpErr, apply_ite State.tkeys, istat_tkeys, hdw_tkeys, ite_self]
@[simp] theorem bumpErr_pgrps (s : State) (b i n k : Nat) : (s.bumpErr b i n k).pgrps = s.pgrps := by
  simp only [bumpErr, apply_ite State.pgrps, istat_pgrps, hdw_pgrps, ite_self]
@[simp] theorem bumpErr_stbls (s : State) (b i n k : Nat) : (s.bumpErr b i n k).stbls = s.stbls := by
  simp only [bumpErr, apply_ite State.stbls, istat_stbls, hdw_stbls, ite_self]
@[simp] theorem bumpErr_vports (s : State) (b i n k : Nat) : (s.bumpErr b i n k).vports = s.vports := by
  simp only [bumpErr, apply_ite State.vports, istat_vports, hdw_vports, ite_self]
@[simp] theorem bumpErr_paces (s : State) (b i n k : Nat) : (s.bumpErr b i n k).paces = s.paces := by
  simp only [bumpErr, apply_ite State.paces, istat_paces, hdw_paces, ite_self]
@[simp] theorem bumpErr_txq (s : State) (b i n k : Nat) : (s.bumpErr b i n k).txq = s.txq := by
  simp only [bumpErr, apply_ite State.txq, istat_txq, hdw_txq, ite_self]
@[simp] theorem bumpErr_tables (s : State) (b i n k : Nat) : (s.bumpErr b i n k).tables = s.tables := by
  simp only [bumpErr, apply_ite State.tables, istat_tables, hdw_tables, ite_self]
@[simp] theorem bumpErr_flushing (s : State) (b i n k : Nat) : (s.bumpErr b i n k).flushing = s.flushing := by
  simp only [bumpErr, apply_ite State.flushing, istat_flushing, hdw_flushing, ite_self]
@[simp] theorem bumpErr_scanning (s : State) (b i n k : Nat) : (s.bumpErr b i n k).scanning = s.scanning := by
  simp only [bumpErr, apply_ite State.scanning, istat_scanning, hdw_scanning, ite_self]
@[simp] theorem bumpErr_scanPos (s : State) (b i n k : Nat) : (s.bumpErr b i n k).scanPos = s.scanPos := by
  simp only [bumpErr, apply_ite State.scanPos, istat_scanPos, hdw_scanPos, ite_self]
@[simp] theorem bumpErr_tableRetry (s : State) (b i n k : Nat) : (s.bumpErr b i n k).tableRetry = s.tableRetry := by
  simp only [bumpErr, apply_ite State.tableRetry, istat_tableRetry, hdw_tableRetry, ite_self]
@[simp] theorem bumpErr_scanAt (s : State) (b i n k : Nat) : (s.bumpErr b i n k).scanAt = s.scanAt := by
  simp only [bumpErr, apply_ite State.scanAt, istat_scanAt, hdw_scanAt, ite_self]
@[simp] theorem bumpErr_learnQ (s : State) (b i n k : Nat) : (s.bumpErr b i n k).learnQ = s.learnQ := by
  simp only [bumpErr, apply_ite State.learnQ, istat_learnQ, hdw_learnQ, ite_self]
@[simp] theorem bumpErr_nrOvr (s : State) (b i n k : Nat) : (s.bumpErr b i n k).nrOvr = s.nrOvr := by
  simp only [bumpErr, apply_ite State.nrOvr, istat_nrOvr, hdw_nrOvr, ite_self]
@[simp] theorem bumpErr_removeQ (s : State) (b i n k : Nat) : (s.bumpErr b i n k).removeQ = s.removeQ := by
  simp only [bumpErr, apply_ite State.removeQ, istat_removeQ, hdw_removeQ, ite_self]
@[simp] theorem bumpErr_qps (s : State) (b i n k : Nat) : (s.bumpErr b i n k).qps = s.qps := by
  simp only [bumpErr, apply_ite State.qps, istat_qps, hdw_qps, ite_self]
@[simp] theorem bumpErr_ctxs (s : State) (b i n k : Nat) : (s.bumpErr b i n k).ctxs = s.ctxs := by
  simp only [bumpErr, apply_ite State.ctxs, istat_ctxs, hdw_ctxs, ite_self]
@[simp] theorem bumpErr_quotas (s : State) (b i n k : Nat) : (s.bumpErr b i n k).quotas = s.quotas := by
  simp only [bumpErr, apply_ite State.quotas, istat_quotas, hdw_quotas, ite_self]
@[simp] theorem bumpErr_hand (s : State) (b i n k : Nat) : (s.bumpErr b i n k).hand = s.hand := by
  simp only [bumpErr, apply_ite State.hand, istat_hand, hdw_hand, ite_self]
@[simp] theorem bumpErr_lastCharge (s : State) (b i n k : Nat) : (s.bumpErr b i n k).lastCharge = s.lastCharge := by
  simp only [bumpErr, apply_ite State.lastCharge, istat_lastCharge, hdw_lastCharge, ite_self]
@[simp] theorem bumpErr_chargeRetry (s : State) (b i n k : Nat) : (s.bumpErr b i n k).chargeRetry = s.chargeRetry := by
  simp only [bumpErr, apply_ite State.chargeRetry, istat_chargeRetry, hdw_chargeRetry, ite_self]
@[simp] theorem bumpErr_ctls (s : State) (b i n k : Nat) : (s.bumpErr b i n k).ctls = s.ctls := by
  simp only [bumpErr, apply_ite State.ctls, istat_ctls, hdw_ctls, ite_self]
@[simp] theorem bumpErr_nss (s : State) (b i n k : Nat) : (s.bumpErr b i n k).nss = s.nss := by
  simp only [bumpErr, apply_ite State.nss, istat_nss, hdw_nss, ite_self]
@[simp] theorem bumpErr_bkqs (s : State) (b i n k : Nat) : (s.bumpErr b i n k).bkqs = s.bkqs := by
  simp only [bumpErr, apply_ite State.bkqs, istat_bkqs, hdw_bkqs, ite_self]
@[simp] theorem bumpErr_nvCmds (s : State) (b i n k : Nat) : (s.bumpErr b i n k).nvCmds = s.nvCmds := by
  simp only [bumpErr, apply_ite State.nvCmds, istat_nvCmds, hdw_nvCmds, ite_self]
@[simp] theorem bumpErr_nextToken (s : State) (b i n k : Nat) : (s.bumpErr b i n k).nextToken = s.nextToken := by
  simp only [bumpErr, apply_ite State.nextToken, istat_nextToken, hdw_nextToken, ite_self]
@[simp] theorem bumpErr_engines (s : State) (b i n k : Nat) : (s.bumpErr b i n k).engines = s.engines := by
  simp only [bumpErr, apply_ite State.engines, istat_engines, hdw_engines, ite_self]
@[simp] theorem bumpErr_slots (s : State) (b i n k : Nat) : (s.bumpErr b i n k).slots = s.slots := by
  simp only [bumpErr, apply_ite State.slots, istat_slots, hdw_slots, ite_self]
@[simp] theorem bumpErr_cached (s : State) (b i n k : Nat) : (s.bumpErr b i n k).cached = s.cached := by
  simp only [bumpErr, apply_ite State.cached, istat_cached, hdw_cached, ite_self]
@[simp] theorem bumpErr_keyStage (s : State) (b i n k : Nat) : (s.bumpErr b i n k).keyStage = s.keyStage := by
  simp only [bumpErr, apply_ite State.keyStage, istat_keyStage, hdw_keyStage, ite_self]
@[simp] theorem bumpErr_sas (s : State) (b i n k : Nat) : (s.bumpErr b i n k).sas = s.sas := by
  simp only [bumpErr, apply_ite State.sas, istat_sas, hdw_sas, ite_self]
@[simp] theorem bumpErr_macStat (s : State) (b i n k : Nat) : (s.bumpErr b i n k).macStat = s.macStat := by
  simp only [bumpErr, apply_ite State.macStat, istat_macStat, hdw_macStat, ite_self]
@[simp] theorem bumpErr_harts (s : State) (b i n k : Nat) : (s.bumpErr b i n k).harts = s.harts := by
  simp only [bumpErr, apply_ite State.harts, istat_harts, hdw_harts, ite_self]
@[simp] theorem bumpErr_workqs (s : State) (b i n k : Nat) : (s.bumpErr b i n k).workqs = s.workqs := by
  simp only [bumpErr, apply_ite State.workqs, istat_workqs, hdw_workqs, ite_self]
@[simp] theorem bumpErr_heldBy (s : State) (b i n k : Nat) : (s.bumpErr b i n k).heldBy = s.heldBy := by
  simp only [bumpErr, apply_ite State.heldBy, istat_heldBy, hdw_heldBy, ite_self]
@[simp] theorem bumpErr_weights (s : State) (b i n k : Nat) : (s.bumpErr b i n k).weights = s.weights := by
  simp only [bumpErr, apply_ite State.weights, istat_weights, hdw_weights, ite_self]
@[simp] theorem bumpErr_deficits (s : State) (b i n k : Nat) : (s.bumpErr b i n k).deficits = s.deficits := by
  simp only [bumpErr, apply_ite State.deficits, istat_deficits, hdw_deficits, ite_self]
@[simp] theorem bumpErr_cells (s : State) (b i n k : Nat) : (s.bumpErr b i n k).cells = s.cells := by
  simp only [bumpErr, apply_ite State.cells, istat_cells, hdw_cells, ite_self]
@[simp] theorem bumpErr_tests (s : State) (b i n k : Nat) : (s.bumpErr b i n k).tests = s.tests := by
  simp only [bumpErr, apply_ite State.tests, istat_tests, hdw_tests, ite_self]
@[simp] theorem bumpErr_drainAt (s : State) (b i n k : Nat) : (s.bumpErr b i n k).drainAt = s.drainAt := by
  simp only [bumpErr, apply_ite State.drainAt, istat_drainAt, hdw_drainAt, ite_self]
@[simp] theorem bumpErr_canaries (s : State) (b i n k : Nat) : (s.bumpErr b i n k).canaries = s.canaries := by
  simp only [bumpErr, apply_ite State.canaries, istat_canaries, hdw_canaries, ite_self]
@[simp] theorem bumpErr_canNext (s : State) (b i n k : Nat) : (s.bumpErr b i n k).canNext = s.canNext := by
  simp only [bumpErr, apply_ite State.canNext, istat_canNext, hdw_canNext, ite_self]
@[simp] theorem bumpErr_canMiss (s : State) (b i n k : Nat) : (s.bumpErr b i n k).canMiss = s.canMiss := by
  simp only [bumpErr, apply_ite State.canMiss, istat_canMiss, hdw_canMiss, ite_self]
@[simp] theorem bumpErr_memctl (s : State) (b i n k : Nat) : (s.bumpErr b i n k).memctl = s.memctl := by
  simp only [bumpErr, apply_ite State.memctl, istat_memctl, hdw_memctl, ite_self]
@[simp] theorem bumpErr_regions (s : State) (b i n k : Nat) : (s.bumpErr b i n k).regions = s.regions := by
  simp only [bumpErr, apply_ite State.regions, istat_regions, hdw_regions, ite_self]
@[simp] theorem bumpErr_panic (s : State) (b i n k : Nat) : (s.bumpErr b i n k).panic = s.panic := by
  simp only [bumpErr, apply_ite State.panic, istat_panic, hdw_panic, ite_self]
@[simp] theorem bumpErr_tenants (s : State) (b i n k : Nat) : (s.bumpErr b i n k).tenants = s.tenants := by
  simp only [bumpErr, apply_ite State.tenants, istat_tenants, hdw_tenants, ite_self]
@[simp] theorem bumpErr_drains (s : State) (b i n k : Nat) : (s.bumpErr b i n k).drains = s.drains := by
  simp only [bumpErr, apply_ite State.drains, istat_drains, hdw_drains, ite_self]
@[simp] theorem bumpErr_lateReads (s : State) (b i n k : Nat) : (s.bumpErr b i n k).lateReads = s.lateReads := by
  simp only [bumpErr, apply_ite State.lateReads, istat_lateReads, hdw_lateReads, ite_self]
@[simp] theorem bumpErr_met (s : State) (b i n k : Nat) : (s.bumpErr b i n k).met = s.met := by
  simp only [bumpErr, apply_ite State.met, istat_met, hdw_met, ite_self]
@[simp] theorem bumpErr_twin (s : State) (b i n k : Nat) : (s.bumpErr b i n k).twin = s.twin := by
  simp only [bumpErr, apply_ite State.twin, istat_twin, hdw_twin, ite_self]
@[simp] theorem bumpErr_boot (s : State) (b i n k : Nat) : (s.bumpErr b i n k).boot = s.boot := by
  simp only [bumpErr, apply_ite State.boot, istat_boot, hdw_boot, ite_self]
@[simp] theorem bumpErr_dax (s : State) (b i n k : Nat) : (s.bumpErr b i n k).dax = s.dax := by
  simp only [bumpErr, apply_ite State.dax, istat_dax, hdw_dax, ite_self]
@[simp] theorem bumpErr_flt (s : State) (b i n k : Nat) : (s.bumpErr b i n k).flt = s.flt := by
  simp only [bumpErr, apply_ite State.flt, istat_flt, hdw_flt, ite_self]
@[simp] theorem bumpErr_pwr (s : State) (b i n k : Nat) : (s.bumpErr b i n k).pwr = s.pwr := by
  simp only [bumpErr, apply_ite State.pwr, istat_pwr, hdw_pwr, ite_self]

/-! ## raiseMax -/

@[simp] theorem raiseMax_pending (s : State) (r : RegId) (i v : Nat) : (s.raiseMax r i v).pending = s.pending := by
  simp only [raiseMax, apply_ite State.pending, wr_pending, ite_self]
@[simp] theorem raiseMax_now (s : State) (r : RegId) (i v : Nat) : (s.raiseMax r i v).now = s.now := by
  simp only [raiseMax, apply_ite State.now, wr_now, ite_self]
@[simp] theorem raiseMax_bref (s : State) (r : RegId) (i v : Nat) : (s.raiseMax r i v).bref = s.bref := by
  simp only [raiseMax, apply_ite State.bref, wr_bref, ite_self]
@[simp] theorem raiseMax_free (s : State) (r : RegId) (i v : Nat) : (s.raiseMax r i v).free = s.free := by
  simp only [raiseMax, apply_ite State.free, wr_free, ite_self]
@[simp] theorem raiseMax_out (s : State) (r : RegId) (i v : Nat) : (s.raiseMax r i v).out = s.out := by
  simp only [raiseMax, apply_ite State.out, wr_out, ite_self]
@[simp] theorem raiseMax_mem (s : State) (r : RegId) (i v : Nat) : (s.raiseMax r i v).mem = s.mem := by
  simp only [raiseMax, apply_ite State.mem, wr_mem, ite_self]
@[simp] theorem raiseMax_latches (s : State) (r : RegId) (i v : Nat) : (s.raiseMax r i v).latches = s.latches := by
  simp only [raiseMax, apply_ite State.latches, wr_latches, ite_self]
@[simp] theorem raiseMax_stages (s : State) (r : RegId) (i v : Nat) : (s.raiseMax r i v).stages = s.stages := by
  simp only [raiseMax, apply_ite State.stages, wr_stages, ite_self]
@[simp] theorem raiseMax_snaps (s : State) (r : RegId) (i v : Nat) : (s.raiseMax r i v).snaps = s.snaps := by
  simp only [raiseMax, apply_ite State.snaps, wr_snaps, ite_self]
@[simp] theorem raiseMax_running (s : State) (r : RegId) (i v : Nat) : (s.raiseMax r i v).running = s.running := by
  simp only [raiseMax, apply_ite State.running, wr_running, ite_self]
@[simp] theorem raiseMax_typePend (s : State) (r : RegId) (i v : Nat) : (s.raiseMax r i v).typePend = s.typePend := by
  simp only [raiseMax, apply_ite State.typePend, wr_typePend, ite_self]
@[simp] theorem raiseMax_pgState (s : State) (r : RegId) (i v : Nat) : (s.raiseMax r i v).pgState = s.pgState := by
  simp only [raiseMax, apply_ite State.pgState, wr_pgState, ite_self]
@[simp] theorem raiseMax_faulted (s : State) (r : RegId) (i v : Nat) : (s.raiseMax r i v).faulted = s.faulted := by
  simp only [raiseMax, apply_ite State.faulted, wr_faulted, ite_self]
@[simp] theorem raiseMax_degraded (s : State) (r : RegId) (i v : Nat) : (s.raiseMax r i v).degraded = s.degraded := by
  simp only [raiseMax, apply_ite State.degraded, wr_degraded, ite_self]
@[simp] theorem raiseMax_resetting (s : State) (r : RegId) (i v : Nat) : (s.raiseMax r i v).resetting = s.resetting := by
  simp only [raiseMax, apply_ite State.resetting, wr_resetting, ite_self]
@[simp] theorem raiseMax_clk (s : State) (r : RegId) (i v : Nat) : (s.raiseMax r i v).clk = s.clk := by
  simp only [raiseMax, apply_ite State.clk, wr_clk, ite_self]
@[simp] theorem raiseMax_cal (s : State) (r : RegId) (i v : Nat) : (s.raiseMax r i v).cal = s.cal := by
  simp only [raiseMax, apply_ite State.cal, wr_cal, ite_self]
@[simp] theorem raiseMax_hports (s : State) (r : RegId) (i v : Nat) : (s.raiseMax r i v).hports = s.hports := by
  simp only [raiseMax, apply_ite State.hports, wr_hports, ite_self]
@[simp] theorem raiseMax_funcs (s : State) (r : RegId) (i v : Nat) : (s.raiseMax r i v).funcs = s.funcs := by
  simp only [raiseMax, apply_ite State.funcs, wr_funcs, ite_self]
@[simp] theorem raiseMax_octUp (s : State) (r : RegId) (i v : Nat) : (s.raiseMax r i v).octUp = s.octUp := by
  simp only [raiseMax, apply_ite State.octUp, wr_octUp, ite_self]
@[simp] theorem raiseMax_emacStat (s : State) (r : RegId) (i v : Nat) : (s.raiseMax r i v).emacStat = s.emacStat := by
  simp only [raiseMax, apply_ite State.emacStat, wr_emacStat, ite_self]
@[simp] theorem raiseMax_windows (s : State) (r : RegId) (i v : Nat) : (s.raiseMax r i v).windows = s.windows := by
  simp only [raiseMax, apply_ite State.windows, wr_windows, ite_self]
@[simp] theorem raiseMax_queues (s : State) (r : RegId) (i v : Nat) : (s.raiseMax r i v).queues = s.queues := by
  simp only [raiseMax, apply_ite State.queues, wr_queues, ite_self]
@[simp] theorem raiseMax_rings (s : State) (r : RegId) (i v : Nat) : (s.raiseMax r i v).rings = s.rings := by
  simp only [raiseMax, apply_ite State.rings, wr_rings, ite_self]
@[simp] theorem raiseMax_dma (s : State) (r : RegId) (i v : Nat) : (s.raiseMax r i v).dma = s.dma := by
  simp only [raiseMax, apply_ite State.dma, wr_dma, ite_self]
@[simp] theorem raiseMax_nodes (s : State) (r : RegId) (i v : Nat) : (s.raiseMax r i v).nodes = s.nodes := by
  simp only [raiseMax, apply_ite State.nodes, wr_nodes, ite_self]
@[simp] theorem raiseMax_banks (s : State) (r : RegId) (i v : Nat) : (s.raiseMax r i v).banks = s.banks := by
  simp only [raiseMax, apply_ite State.banks, wr_banks, ite_self]
@[simp] theorem raiseMax_portProf (s : State) (r : RegId) (i v : Nat) : (s.raiseMax r i v).portProf = s.portProf := by
  simp only [raiseMax, apply_ite State.portProf, wr_portProf, ite_self]
@[simp] theorem raiseMax_malCnt (s : State) (r : RegId) (i v : Nat) : (s.raiseMax r i v).malCnt = s.malCnt := by
  simp only [raiseMax, apply_ite State.malCnt, wr_malCnt, ite_self]
@[simp] theorem raiseMax_frags (s : State) (r : RegId) (i v : Nat) : (s.raiseMax r i v).frags = s.frags := by
  simp only [raiseMax, apply_ite State.frags, wr_frags, ite_self]
@[simp] theorem raiseMax_keyProf (s : State) (r : RegId) (i v : Nat) : (s.raiseMax r i v).keyProf = s.keyProf := by
  simp only [raiseMax, apply_ite State.keyProf, wr_keyProf, ite_self]
@[simp] theorem raiseMax_ranges (s : State) (r : RegId) (i v : Nat) : (s.raiseMax r i v).ranges = s.ranges := by
  simp only [raiseMax, apply_ite State.ranges, wr_ranges, ite_self]
@[simp] theorem raiseMax_arecs (s : State) (r : RegId) (i v : Nat) : (s.raiseMax r i v).arecs = s.arecs := by
  simp only [raiseMax, apply_ite State.arecs, wr_arecs, ite_self]
@[simp] theorem raiseMax_tmpls (s : State) (r : RegId) (i v : Nat) : (s.raiseMax r i v).tmpls = s.tmpls := by
  simp only [raiseMax, apply_ite State.tmpls, wr_tmpls, ite_self]
@[simp] theorem raiseMax_hprofs (s : State) (r : RegId) (i v : Nat) : (s.raiseMax r i v).hprofs = s.hprofs := by
  simp only [raiseMax, apply_ite State.hprofs, wr_hprofs, ite_self]
@[simp] theorem raiseMax_tkeys (s : State) (r : RegId) (i v : Nat) : (s.raiseMax r i v).tkeys = s.tkeys := by
  simp only [raiseMax, apply_ite State.tkeys, wr_tkeys, ite_self]
@[simp] theorem raiseMax_pgrps (s : State) (r : RegId) (i v : Nat) : (s.raiseMax r i v).pgrps = s.pgrps := by
  simp only [raiseMax, apply_ite State.pgrps, wr_pgrps, ite_self]
@[simp] theorem raiseMax_stbls (s : State) (r : RegId) (i v : Nat) : (s.raiseMax r i v).stbls = s.stbls := by
  simp only [raiseMax, apply_ite State.stbls, wr_stbls, ite_self]
@[simp] theorem raiseMax_vports (s : State) (r : RegId) (i v : Nat) : (s.raiseMax r i v).vports = s.vports := by
  simp only [raiseMax, apply_ite State.vports, wr_vports, ite_self]
@[simp] theorem raiseMax_paces (s : State) (r : RegId) (i v : Nat) : (s.raiseMax r i v).paces = s.paces := by
  simp only [raiseMax, apply_ite State.paces, wr_paces, ite_self]
@[simp] theorem raiseMax_txq (s : State) (r : RegId) (i v : Nat) : (s.raiseMax r i v).txq = s.txq := by
  simp only [raiseMax, apply_ite State.txq, wr_txq, ite_self]
@[simp] theorem raiseMax_tables (s : State) (r : RegId) (i v : Nat) : (s.raiseMax r i v).tables = s.tables := by
  simp only [raiseMax, apply_ite State.tables, wr_tables, ite_self]
@[simp] theorem raiseMax_flushing (s : State) (r : RegId) (i v : Nat) : (s.raiseMax r i v).flushing = s.flushing := by
  simp only [raiseMax, apply_ite State.flushing, wr_flushing, ite_self]
@[simp] theorem raiseMax_scanning (s : State) (r : RegId) (i v : Nat) : (s.raiseMax r i v).scanning = s.scanning := by
  simp only [raiseMax, apply_ite State.scanning, wr_scanning, ite_self]
@[simp] theorem raiseMax_scanPos (s : State) (r : RegId) (i v : Nat) : (s.raiseMax r i v).scanPos = s.scanPos := by
  simp only [raiseMax, apply_ite State.scanPos, wr_scanPos, ite_self]
@[simp] theorem raiseMax_tableRetry (s : State) (r : RegId) (i v : Nat) : (s.raiseMax r i v).tableRetry = s.tableRetry := by
  simp only [raiseMax, apply_ite State.tableRetry, wr_tableRetry, ite_self]
@[simp] theorem raiseMax_scanAt (s : State) (r : RegId) (i v : Nat) : (s.raiseMax r i v).scanAt = s.scanAt := by
  simp only [raiseMax, apply_ite State.scanAt, wr_scanAt, ite_self]
@[simp] theorem raiseMax_learnQ (s : State) (r : RegId) (i v : Nat) : (s.raiseMax r i v).learnQ = s.learnQ := by
  simp only [raiseMax, apply_ite State.learnQ, wr_learnQ, ite_self]
@[simp] theorem raiseMax_nrOvr (s : State) (r : RegId) (i v : Nat) : (s.raiseMax r i v).nrOvr = s.nrOvr := by
  simp only [raiseMax, apply_ite State.nrOvr, wr_nrOvr, ite_self]
@[simp] theorem raiseMax_removeQ (s : State) (r : RegId) (i v : Nat) : (s.raiseMax r i v).removeQ = s.removeQ := by
  simp only [raiseMax, apply_ite State.removeQ, wr_removeQ, ite_self]
@[simp] theorem raiseMax_qps (s : State) (r : RegId) (i v : Nat) : (s.raiseMax r i v).qps = s.qps := by
  simp only [raiseMax, apply_ite State.qps, wr_qps, ite_self]
@[simp] theorem raiseMax_ctxs (s : State) (r : RegId) (i v : Nat) : (s.raiseMax r i v).ctxs = s.ctxs := by
  simp only [raiseMax, apply_ite State.ctxs, wr_ctxs, ite_self]
@[simp] theorem raiseMax_quotas (s : State) (r : RegId) (i v : Nat) : (s.raiseMax r i v).quotas = s.quotas := by
  simp only [raiseMax, apply_ite State.quotas, wr_quotas, ite_self]
@[simp] theorem raiseMax_hand (s : State) (r : RegId) (i v : Nat) : (s.raiseMax r i v).hand = s.hand := by
  simp only [raiseMax, apply_ite State.hand, wr_hand, ite_self]
@[simp] theorem raiseMax_lastCharge (s : State) (r : RegId) (i v : Nat) : (s.raiseMax r i v).lastCharge = s.lastCharge := by
  simp only [raiseMax, apply_ite State.lastCharge, wr_lastCharge, ite_self]
@[simp] theorem raiseMax_chargeRetry (s : State) (r : RegId) (i v : Nat) : (s.raiseMax r i v).chargeRetry = s.chargeRetry := by
  simp only [raiseMax, apply_ite State.chargeRetry, wr_chargeRetry, ite_self]
@[simp] theorem raiseMax_ctls (s : State) (r : RegId) (i v : Nat) : (s.raiseMax r i v).ctls = s.ctls := by
  simp only [raiseMax, apply_ite State.ctls, wr_ctls, ite_self]
@[simp] theorem raiseMax_nss (s : State) (r : RegId) (i v : Nat) : (s.raiseMax r i v).nss = s.nss := by
  simp only [raiseMax, apply_ite State.nss, wr_nss, ite_self]
@[simp] theorem raiseMax_bkqs (s : State) (r : RegId) (i v : Nat) : (s.raiseMax r i v).bkqs = s.bkqs := by
  simp only [raiseMax, apply_ite State.bkqs, wr_bkqs, ite_self]
@[simp] theorem raiseMax_nvCmds (s : State) (r : RegId) (i v : Nat) : (s.raiseMax r i v).nvCmds = s.nvCmds := by
  simp only [raiseMax, apply_ite State.nvCmds, wr_nvCmds, ite_self]
@[simp] theorem raiseMax_nextToken (s : State) (r : RegId) (i v : Nat) : (s.raiseMax r i v).nextToken = s.nextToken := by
  simp only [raiseMax, apply_ite State.nextToken, wr_nextToken, ite_self]
@[simp] theorem raiseMax_engines (s : State) (r : RegId) (i v : Nat) : (s.raiseMax r i v).engines = s.engines := by
  simp only [raiseMax, apply_ite State.engines, wr_engines, ite_self]
@[simp] theorem raiseMax_slots (s : State) (r : RegId) (i v : Nat) : (s.raiseMax r i v).slots = s.slots := by
  simp only [raiseMax, apply_ite State.slots, wr_slots, ite_self]
@[simp] theorem raiseMax_cached (s : State) (r : RegId) (i v : Nat) : (s.raiseMax r i v).cached = s.cached := by
  simp only [raiseMax, apply_ite State.cached, wr_cached, ite_self]
@[simp] theorem raiseMax_keyStage (s : State) (r : RegId) (i v : Nat) : (s.raiseMax r i v).keyStage = s.keyStage := by
  simp only [raiseMax, apply_ite State.keyStage, wr_keyStage, ite_self]
@[simp] theorem raiseMax_sas (s : State) (r : RegId) (i v : Nat) : (s.raiseMax r i v).sas = s.sas := by
  simp only [raiseMax, apply_ite State.sas, wr_sas, ite_self]
@[simp] theorem raiseMax_macStat (s : State) (r : RegId) (i v : Nat) : (s.raiseMax r i v).macStat = s.macStat := by
  simp only [raiseMax, apply_ite State.macStat, wr_macStat, ite_self]
@[simp] theorem raiseMax_harts (s : State) (r : RegId) (i v : Nat) : (s.raiseMax r i v).harts = s.harts := by
  simp only [raiseMax, apply_ite State.harts, wr_harts, ite_self]
@[simp] theorem raiseMax_workqs (s : State) (r : RegId) (i v : Nat) : (s.raiseMax r i v).workqs = s.workqs := by
  simp only [raiseMax, apply_ite State.workqs, wr_workqs, ite_self]
@[simp] theorem raiseMax_heldBy (s : State) (r : RegId) (i v : Nat) : (s.raiseMax r i v).heldBy = s.heldBy := by
  simp only [raiseMax, apply_ite State.heldBy, wr_heldBy, ite_self]
@[simp] theorem raiseMax_weights (s : State) (r : RegId) (i v : Nat) : (s.raiseMax r i v).weights = s.weights := by
  simp only [raiseMax, apply_ite State.weights, wr_weights, ite_self]
@[simp] theorem raiseMax_deficits (s : State) (r : RegId) (i v : Nat) : (s.raiseMax r i v).deficits = s.deficits := by
  simp only [raiseMax, apply_ite State.deficits, wr_deficits, ite_self]
@[simp] theorem raiseMax_cells (s : State) (r : RegId) (i v : Nat) : (s.raiseMax r i v).cells = s.cells := by
  simp only [raiseMax, apply_ite State.cells, wr_cells, ite_self]
@[simp] theorem raiseMax_tests (s : State) (r : RegId) (i v : Nat) : (s.raiseMax r i v).tests = s.tests := by
  simp only [raiseMax, apply_ite State.tests, wr_tests, ite_self]
@[simp] theorem raiseMax_drainAt (s : State) (r : RegId) (i v : Nat) : (s.raiseMax r i v).drainAt = s.drainAt := by
  simp only [raiseMax, apply_ite State.drainAt, wr_drainAt, ite_self]
@[simp] theorem raiseMax_canaries (s : State) (r : RegId) (i v : Nat) : (s.raiseMax r i v).canaries = s.canaries := by
  simp only [raiseMax, apply_ite State.canaries, wr_canaries, ite_self]
@[simp] theorem raiseMax_canNext (s : State) (r : RegId) (i v : Nat) : (s.raiseMax r i v).canNext = s.canNext := by
  simp only [raiseMax, apply_ite State.canNext, wr_canNext, ite_self]
@[simp] theorem raiseMax_canMiss (s : State) (r : RegId) (i v : Nat) : (s.raiseMax r i v).canMiss = s.canMiss := by
  simp only [raiseMax, apply_ite State.canMiss, wr_canMiss, ite_self]
@[simp] theorem raiseMax_memctl (s : State) (r : RegId) (i v : Nat) : (s.raiseMax r i v).memctl = s.memctl := by
  simp only [raiseMax, apply_ite State.memctl, wr_memctl, ite_self]
@[simp] theorem raiseMax_regions (s : State) (r : RegId) (i v : Nat) : (s.raiseMax r i v).regions = s.regions := by
  simp only [raiseMax, apply_ite State.regions, wr_regions, ite_self]
@[simp] theorem raiseMax_panic (s : State) (r : RegId) (i v : Nat) : (s.raiseMax r i v).panic = s.panic := by
  simp only [raiseMax, apply_ite State.panic, wr_panic, ite_self]
@[simp] theorem raiseMax_tenants (s : State) (r : RegId) (i v : Nat) : (s.raiseMax r i v).tenants = s.tenants := by
  simp only [raiseMax, apply_ite State.tenants, wr_tenants, ite_self]
@[simp] theorem raiseMax_drains (s : State) (r : RegId) (i v : Nat) : (s.raiseMax r i v).drains = s.drains := by
  simp only [raiseMax, apply_ite State.drains, wr_drains, ite_self]
@[simp] theorem raiseMax_lateReads (s : State) (r : RegId) (i v : Nat) : (s.raiseMax r i v).lateReads = s.lateReads := by
  simp only [raiseMax, apply_ite State.lateReads, wr_lateReads, ite_self]
@[simp] theorem raiseMax_met (s : State) (r : RegId) (i v : Nat) : (s.raiseMax r i v).met = s.met := by
  simp only [raiseMax, apply_ite State.met, wr_met, ite_self]
@[simp] theorem raiseMax_twin (s : State) (r : RegId) (i v : Nat) : (s.raiseMax r i v).twin = s.twin := by
  simp only [raiseMax, apply_ite State.twin, wr_twin, ite_self]
@[simp] theorem raiseMax_boot (s : State) (r : RegId) (i v : Nat) : (s.raiseMax r i v).boot = s.boot := by
  simp only [raiseMax, apply_ite State.boot, wr_boot, ite_self]
@[simp] theorem raiseMax_dax (s : State) (r : RegId) (i v : Nat) : (s.raiseMax r i v).dax = s.dax := by
  simp only [raiseMax, apply_ite State.dax, wr_dax, ite_self]
@[simp] theorem raiseMax_flt (s : State) (r : RegId) (i v : Nat) : (s.raiseMax r i v).flt = s.flt := by
  simp only [raiseMax, apply_ite State.flt, wr_flt, ite_self]
@[simp] theorem raiseMax_pwr (s : State) (r : RegId) (i v : Nat) : (s.raiseMax r i v).pwr = s.pwr := by
  simp only [raiseMax, apply_ite State.pwr, wr_pwr, ite_self]

end Sys2Proof.Machine.State
end

