-- ==== Sys2Proof/Laws/Flags.lean ====
section
/-! SUPPORT. What settling may change, and what the judgement of accesses and commands may answer: one lemma for each
shared operation. -/

namespace Sys2Proof.Machine

/-! ## What a delivery and settling leave -/

namespace State

theorem still_running (s : State) : s.still.running = s.running := rfl
theorem still_setTenants (s : State) (m : Tbl Tenant) : ({ s with tenants := m } : State).still = s.still := rfl
theorem still_setTypePend (s : State) (l : List Nat) : ({ s with typePend := l } : State).still = s.still := rfl

@[simp] theorem still_emit (s : State) (o : Out) : (s.emit o).still = s.still := rfl
@[simp] theorem still_emits (s : State) (os : List Out) : (s.emits os).still = s.still := rfl
@[simp] theorem still_memPut (s : State) (a : Nat) (bs : List Byte) : (s.memPut a bs).still = s.still := rfl
@[simp] theorem still_memPutQ (s : State) (a : Nat) (d : List Dword) : (s.memPutQ a d).still = s.still := rfl
@[simp] theorem still_wrA (s : State) (a : Nat) (v : Word) : (s.wrA a v).still = s.still := rfl
@[simp] theorem still_wr (s : State) (r : RegId) (i v k : Nat) : (s.wr r i v k).still = s.still := still_wrA s _ _
@[simp] theorem still_hdw (s : State) (b i o v : Nat) : (s.hdw b i o v).still = s.still := still_wr s _ _ _ _
@[simp] theorem still_istat (s : State) (b i n : Nat) : (s.istat b i n).still = s.still := still_hdw s _ _ _ _
@[simp] theorem still_wr64 (s : State) (r : RegId) (i v k : Nat) : (s.wr64 r i v k).still = s.still :=
  (still_wr _ _ _ _ _).trans (still_wr _ _ _ _ _)
@[simp] theorem still_bumpStat (s : State) (r : RegId) (i n : Nat) : (s.bumpStat r i n).still = s.still :=
  still_wr64 s _ _ _ _
@[simp] theorem still_bumpErr (s : State) (b i n k : Nat) : (s.bumpErr b i n k).still = s.still := by
  simp only [bumpErr, apply_ite State.still, still_istat, still_hdw, ite_self]
@[simp] theorem still_raiseMax (s : State) (r : RegId) (i v : Nat) : (s.raiseMax r i v).still = s.still := by
  simp only [raiseMax, apply_ite State.still, still_wr, ite_self]

end State

open State

/-- A fold of operations that leave the rest leaves it. -/
theorem still_foldl {α : Type} (f : State → α → State) (h : ∀ s a, (f s a).still = s.still) (l : List α) (s : State) :
    (l.foldl f s).still = s.still := by
  induction l generalizing s with
  | nil => rfl
  | cons a t ih => exact (ih _).trans (h _ _)

@[simp] theorem still_flushComb (s : State) (i : Nat) : (flushComb s i).still = s.still := by
  unfold flushComb
  apply still_foldl
  intro u a
  rfl

@[simp] theorem still_foldLate (s : State) (i x : Nat) : (foldLate s i x).still = s.still :=
  (still_setTenants (((s.bumpStat METER.LATE_FOLD i).bumpErr blkMETER i 0).istat blkMETER i 0) _).trans
    ((still_istat _ _ _ _).trans ((still_bumpErr _ _ _ _ _).trans (still_bumpStat _ _ _ _)))

@[simp] theorem still_combine (s : State) (i k n : Nat) : (combine s i k n).still = s.still := rfl

@[simp] theorem still_charge (s : State) (i x k n t : Nat) : (charge s i x k n t).still = s.still := by
  simp only [charge, apply_ite State.still, still_combine, still_flushComb, still_foldLate, still_bumpStat, ite_self]

@[simp] theorem still_setX (s : State) (hart rd : Nat) (v : Dword) : (setX s hart rd v).still = s.still := by
  unfold setX; split <;> rfl

@[simp] theorem still_hartResult (s : State) (hart rd : Nat) (v : Dword) : (hartResult s hart rd v).still = s.still :=
  still_setX s hart rd v

theorem still_drrPick (s : State) (xs : List Nat) (x : Nat) (t : State) (h : drrPick s xs = some (x, t)) :
    t.still = s.still := by
  unfold drrPick at h
  split at h
  · cases h; rfl
  · split at h
    · cases h
    · simp only [Option.map_eq_some_iff] at h
      obtain ⟨a, -, e⟩ := h
      cases e; rfl

theorem still_chooseItem (s : State) (hart : Nat) (g n i : Nat) (t : State) (h : chooseItem s hart = some (g, n, i, t)) :
    t.still = s.still := by
  unfold chooseItem at h
  simp only at h
  split at h
  · cases h
  · split at h
    · cases h
    · rename_i hd
      split at h
      · cases h
      · simp only [Option.map_eq_some_iff] at h
        obtain ⟨a, -, e⟩ := h
        cases e
        exact still_drrPick _ _ _ _ hd

@[simp] theorem still_giveItem (s : State) (hart addr rd : Nat) : (giveItem s hart addr rd).1.still = s.still := by
  unfold giveItem
  split
  · rfl
  · split
    · rfl
    · rename_i g n i t hc
      have ht := still_chooseItem _ _ _ _ _ _ hc
      simp only
      split
      · exact ht
      · simp only [still_hartResult, still_charge, still_bumpStat, still_memPutQ]
        exact ht

@[simp] theorem still_dispatchWaiting (s : State) : (dispatchWaiting s).still = s.still := by
  unfold dispatchWaiting
  apply still_foldl
  intro s p
  split
  · exact still_giveItem _ _ _ _
  · rfl

@[simp] theorem still_noteItems (s : State) : (noteItems s).still = s.still := by
  unfold noteItems
  simp only
  split <;> simp

@[simp] theorem still_enqueueItem (s : State) (it : Item) : (enqueueItem s it).still = s.still := rfl

/-- Putting a work item on a queue changes nothing but what `State.still` leaves out. -/
@[simp] theorem still_putItem (s : State) (it : Item) (d t : Bool) : (putItem s it d t).1.still = s.still := by
  unfold putItem
  extract_lets q code
  split
  · exact (still_istat _ _ _ _).trans ((still_bumpErr _ _ _ _ _).trans (still_bumpStat _ _ _ _))
  · exact (still_dispatchWaiting _).trans ((still_noteItems _).trans (still_enqueueItem _ _))

@[simp] theorem still_deliver (s : State) (g ty x tag aux b2 b3 : Nat) : (deliver s g ty x tag aux b2 b3).1.still = s.still :=
  still_putItem s _ _ _

@[simp] theorem still_routeMsix (s : State) (w v : Nat) : (routeMsix s w v).still = s.still := by
  unfold routeMsix
  split
  · split <;> simp
  · rfl

@[simp] theorem still_sendRoute (s : State) (t : Nat) : (sendRoute s t).still = s.still := by
  unfold sendRoute
  simp only
  split
  · rfl
  · split <;> simp

@[simp] theorem still_gather (s : State) : (gather s).still = s.still := by
  unfold gather
  exact (still_foldl _ still_sendRoute _ _).trans rfl

@[simp] theorem still_wires (s : State) : (wires s).still = s.still := by
  unfold wires still
  simp only [Tbl.mapV, List.map_map]
  rfl

@[simp] theorem still_dropPps (s : State) : (dropPps s).still = s.still := by
  unfold dropPps; split <;> rfl

@[simp] theorem still_driveTref (s : State) : (driveTref s).still = s.still := by
  unfold driveTref; split <;> rfl

@[simp] theorem still_refOutputs (s : State) : (refOutputs s).still = s.still :=
  (still_driveTref _).trans (still_dropPps s)

@[simp] theorem still_driveFault (s : State) (a : Bool) : (driveFault s a).still = s.still := by
  unfold driveFault; split <;> rfl

/-! ## What settling reaches (R38, R63, R97, R434) -/

theorem driveFault_regs (s : State) (a : Bool) : (driveFault s a).regs = s.regs := by unfold driveFault; split <;> rfl
theorem driveFault_typePend (s : State) (a : Bool) : (driveFault s a).typePend = s.typePend := by
  unfold driveFault; split <;> rfl
theorem driveFault_hports (s : State) (a : Bool) : (driveFault s a).hports = s.hports := by
  unfold driveFault; split <;> rfl
theorem driveFault_shown (s : State) (a : Bool) : (driveFault s a).flt.pinShown = a := by
  unfold driveFault; split
  · assumption
  · rfl

/-! ## Accesses and commands (R48, R55, R56, R66, R94, R470) -/

/-- What a write that a requester makes to a page comes to: refused with its count, or its effect. -/
theorem pageWrite_cases (who : Requester) (blk inst : Nat) (k : State → State) (s : State) :
    (∃ p, cfInReset s who = some p ∧ pageWrite who blk inst k s = s.bumpErr blkHPORT p 4 1) ∨
    (pageCount blk ≤ inst ∧ pageWrite who blk inst k s = bumpUnpop s) ∨
    (mayWrite s who blk = false ∧ pageWrite who blk inst k s = s.bumpErr blk inst 28) ∨
    (cfInReset s who = none ∧ inst < pageCount blk ∧ mayWrite s who blk = true ∧ pageWrite who blk inst k s = k s) := by
  unfold pageWrite throughCf
  cases h : cfInReset s who with
  | some p => exact .inl ⟨p, rfl, rfl⟩
  | none =>
    by_cases h1 : pageCount blk ≤ inst
    · exact .inr (.inl ⟨h1, by simp [h1]⟩)
    · cases h2 : mayWrite s who blk
      · exact .inr (.inr (.inl ⟨rfl, by simp [h1, h2]⟩))
      · exact .inr (.inr (.inr ⟨rfl, by omega, rfl, by simp [h1, h2]⟩))

/-- A write of a locked field counts; an unlocked one has its effect (R8, R55). -/
theorem unlocked_cases (blk inst : Nat) (k : State → State) (s : State) :
    (s.locked blk inst = true ∧ unlocked blk inst k s = s.bumpErr blk inst 30) ∨
    (s.locked blk inst = false ∧ unlocked blk inst k s = k s) := by
  unfold unlocked
  cases h : s.locked blk inst <;> simp

/-- Reserved argument bits end a command with 0x03 and leave the state (R470). -/
theorem ckArgs_cases (c : CmdCtx) (s : State) (m0 m1 : Nat) (k : CmdRes) :
    ckArgs c s m0 m1 k = .fail s 0x03 ∨ (c.a0 &&& m0 = c.a0 ∧ c.a1 &&& m1 = c.a1 ∧ ckArgs c s m0 m1 k = k) := by
  unfold ckArgs
  by_cases h : c.a0 &&& m0 ≠ c.a0 ∨ c.a1 &&& m1 ≠ c.a1
  · exact .inl (by rw [if_pos h])
  · have h' := h
    simp only [not_or, ne_eq, Decidable.not_not] at h'
    exact .inr ⟨h'.1, h'.2, by rw [if_neg h]⟩

/-- Showing a command's result writes registers only. -/
@[simp] theorem still_showResult (s : State) (p : Nat) (r : Running) (res : Nat) (ret : Option (List Dword)) :
    (showResult s p r res ret).still = s.still := by
  unfold showResult
  simp only [still_istat, still_hdw]
  split
  · exact still_foldl _ (fun u i => still_hdw u _ _ _ _) _ _
  · rfl

/-- A command that ends leaves no command running on its page (R56, R57). -/
theorem endCommand_running (s : State) (p res : Nat) (ret : Option (List Dword)) (r : Running)
    (h : Tbl.get? s.running p = some r) : (endCommand s p res ret).running = Tbl.del s.running p := by
  unfold endCommand
  simp only [h]
  rw [← still_running, still_showResult, still_running]

end Sys2Proof.Machine
end

