-- ==== Sys2Proof/Laws/Tables.lean ====
section
/-! SUPPORT. Tables by number, device memory and registers: a read after a write, other keys, canonical form. -/

namespace Sys2Proof

/-! ## Tables -/

@[simp] theorem Tbl.get?_nil {α : Type} (k : Nat) : Tbl.get? ([] : List (Nat × α)) k = none := rfl

@[simp] theorem Tbl.get?_put_self {α : Type} (t : List (Nat × α)) (k : Nat) (v : α) :
    Tbl.get? (Tbl.put t k v) k = some v := by
  induction t with
  | nil => simp [Tbl.put, Tbl.get?]
  | cons p t ih =>
    simp only [Tbl.put]
    split
    · simp [Tbl.get?]
    · split
      · simp [Tbl.get?]
      · rename_i h1 h2
        simp [Tbl.get?, Ne.symm h2, ih]

theorem Tbl.get?_put_other {α : Type} (t : List (Nat × α)) {k j : Nat} (v : α) (h : j ≠ k) :
    Tbl.get? (Tbl.put t k v) j = Tbl.get? t j := by
  induction t with
  | nil => simp [Tbl.put, Tbl.get?, Ne.symm h]
  | cons p t ih =>
    simp only [Tbl.put]
    split
    · simp [Tbl.get?, Ne.symm h]
    · split
      · rename_i h1 h2
        subst h2
        simp [Tbl.get?, Ne.symm h]
      · simp only [Tbl.get?, ih]

@[simp] theorem Tbl.get?_del_self {α : Type} (t : List (Nat × α)) (k : Nat) : Tbl.get? (Tbl.del t k) k = none := by
  induction t with
  | nil => rfl
  | cons p t ih =>
    unfold Tbl.del at ih ⊢
    by_cases hp : p.1 = k
    · simpa [List.filter_cons, hp] using ih
    · simpa [List.filter_cons, hp, Tbl.get?] using ih

theorem Tbl.get?_del_other {α : Type} (t : List (Nat × α)) {k j : Nat} (h : j ≠ k) :
    Tbl.get? (Tbl.del t k) j = Tbl.get? t j := by
  induction t with
  | nil => rfl
  | cons p t ih =>
    unfold Tbl.del at ih ⊢
    by_cases hp : p.1 = k
    · have hj : p.1 ≠ j := fun e => h (e.symm.trans hp)
      simpa [List.filter_cons, hp, Tbl.get?, hj, Ne.symm h] using ih
    · simp only [List.filter_cons, hp, ne_eq, not_false_eq_true, decide_true, if_true, Tbl.get?] at ih ⊢
      rw [ih]

/-- Every key of a table with one entry put comes from the table or is the new one. -/
theorem Tbl.mem_put {α : Type} (t : List (Nat × α)) (k : Nat) (v : α) (q : Nat × α) (hq : q ∈ Tbl.put t k v) :
    q = (k, v) ∨ q ∈ t := by
  induction t with
  | nil => exact .inl (by simpa [Tbl.put] using hq)
  | cons p t ih =>
    simp only [Tbl.put] at hq
    split at hq
    · simpa using hq
    · split at hq
      · rcases List.mem_cons.1 hq with h | h
        · exact .inl h
        · exact .inr (List.mem_cons_of_mem _ h)
      · rcases List.mem_cons.1 hq with h | h
        · exact .inr (h ▸ List.mem_cons_self)
        · rcases ih h with h | h
          · exact .inl h
          · exact .inr (List.mem_cons_of_mem _ h)

theorem Tbl.wf_put {α : Type} (t : List (Nat × α)) (k : Nat) (v : α) (h : Tbl.wf t) : Tbl.wf (Tbl.put t k v) := by
  induction t with
  | nil => simp [Tbl.put, Tbl.wf]
  | cons p t ih =>
    have hp := h
    simp only [Tbl.wf, List.map_cons, List.pairwise_cons] at hp
    obtain ⟨hlt, ht⟩ := hp
    simp only [Tbl.put]
    split
    · rename_i hk
      simp only [Tbl.wf, List.map_cons, List.pairwise_cons]
      refine ⟨?_, hlt, ht⟩
      intro a ha
      rcases List.mem_cons.1 ha with h | h
      · exact h ▸ hk
      · exact Nat.lt_trans hk (hlt a h)
    · split
      · rename_i h1 h2
        subst h2
        simpa only [Tbl.wf, List.map_cons, List.pairwise_cons] using ⟨hlt, ht⟩
      · rename_i h1 h2
        simp only [Tbl.wf, List.map_cons, List.pairwise_cons]
        refine ⟨?_, ih ht⟩
        intro a ha
        obtain ⟨q, hq, rfl⟩ := List.mem_map.1 ha
        rcases Tbl.mem_put t k v q hq with h | h
        · subst h; show p.1 < k; omega
        · exact hlt q.1 (List.mem_map_of_mem h)

theorem Tbl.wf_del {α : Type} (t : List (Nat × α)) (k : Nat) (h : Tbl.wf t) : Tbl.wf (Tbl.del t k) :=
  List.Pairwise.sublist (List.Sublist.map _ (List.filter_sublist)) h

namespace Machine

/-! ## Memory (R344) -/

@[simp] theorem Memory.read_write_self (m : List Host.Cell) (a : Nat) (b : Byte) : Memory.read (Memory.write m a b) a = b := by
  unfold Memory.read Memory.write Tbl.getD
  split
  · rename_i h; simp [h]
  · simp

theorem Memory.read_write_other (m : List Host.Cell) {a j : Nat} (b : Byte) (h : j ≠ a) :
    Memory.read (Memory.write m a b) j = Memory.read m j := by
  unfold Memory.read Memory.write Tbl.getD
  split
  · rw [Tbl.get?_del_other m h]
  · rw [Tbl.get?_put_other m b h]

theorem Memory.wf_write (m : List Host.Cell) (a : Nat) (b : Byte) (h : Memory.wf m) : Memory.wf (Memory.write m a b) := by
  unfold Memory.write
  split
  · exact ⟨Tbl.wf_del m a h.1, fun c hc => h.2 c (List.mem_filter.1 hc).1⟩
  · rename_i hb
    refine ⟨Tbl.wf_put m a b h.1, fun c hc => ?_⟩
    rcases Tbl.mem_put m a b c hc with e | e
    · exact e ▸ hb
    · exact h.2 c e

theorem Memory.wf_writeBytes (bs : List Byte) (m : List Host.Cell) (a : Nat) (h : Memory.wf m) :
    Memory.wf (Memory.writeBytes m a bs) := by
  induction bs generalizing m a with
  | nil => exact h
  | cons b t ih => exact ih _ _ (Memory.wf_write m a b h)

theorem Memory.read_writeBytes_outside (bs : List Byte) (m : List Host.Cell) (a j : Nat) (h : j < a ∨ a + bs.length ≤ j) :
    Memory.read (Memory.writeBytes m a bs) j = Memory.read m j := by
  induction bs generalizing m a with
  | nil => rfl
  | cons b t ih =>
    simp only [List.length_cons] at h
    rw [Memory.writeBytes, ih _ _ (by omega), Memory.read_write_other m b (by omega)]

theorem Memory.read_writeBytes_inside (bs : List Byte) (m : List Host.Cell) (a i : Nat) (h : i < bs.length) :
    Memory.read (Memory.writeBytes m a bs) (a + i) = bs[i] := by
  induction bs generalizing m a i with
  | nil => exact absurd h (by simp)
  | cons b t ih =>
    rw [Memory.writeBytes]
    cases i with
    | zero => rw [Memory.read_writeBytes_outside _ _ _ _ (by omega)]; simp
    | succ i =>
      have h' : i < t.length := by simpa using h
      have e : a + (i + 1) = a + 1 + i := by omega
      rw [e, ih _ _ _ h']; simp

/-- A read back of the bytes written. -/
theorem Memory.readBytes_writeBytes (bs : List Byte) (m : List Host.Cell) (a : Nat) :
    Memory.readBytes (Memory.writeBytes m a bs) a bs.length = bs := by
  apply List.ext_getElem
  · simp [Memory.readBytes]
  · intro i h1 h2
    simp only [Memory.readBytes, List.getElem_map, List.getElem_range]
    exact Memory.read_writeBytes_inside bs m a i h2

/-! ## Registers (R47) -/

namespace State

@[simp] theorem rdA_wrA_self (s : State) (a : Nat) (v : Word) : (s.wrA a v).rdA a = v := by
  unfold rdA wrA
  split
  · rename_i h; simp [h]
  · simp

theorem rdA_wrA_other (s : State) {a b : Nat} (v : Word) (h : b ≠ a) : (s.wrA a v).rdA b = s.rdA b := by
  unfold rdA wrA
  split
  · simp only [Tbl.get?_del_other _ h]
  · simp only [Tbl.get?_put_other _ v h]

/-- A register reads as what was last written to it, as 32 bits. -/
theorem rd_wr_self (s : State) (r : RegId) (i v k : Nat) : (s.wr r i v k).rd r i k = v % 4294967296 := by
  simp [rd, wr, w32]

theorem rd_wr_other (s : State) (r q : RegId) (i j v k l : Nat) (h : addr q j (4 * l) ≠ addr r i (4 * k)) :
    (s.wr r i v k).rd q j l = s.rd q j l := by
  simp only [rd, wr, rdA_wrA_other _ _ h]

theorem hd_hdw_self (s : State) (b i o v : Nat) : (s.hdw b i o v).hd b i o = v % 4294967296 := rd_wr_self s (b, o) i v 0

/-- The registers keep their canonical form. -/
theorem wf_wrA (s : State) (a : Nat) (v : Word) (h : Tbl.wf s.regs) : Tbl.wf (s.wrA a v).regs := by
  unfold wrA
  split
  · exact Tbl.wf_del _ _ h
  · exact Tbl.wf_put _ _ _ h

@[simp] theorem stateOf_setState_self (s : State) (b i v : Nat) : (s.setState b i v).stateOf b i = v := by
  simp [stateOf, setState]

/-- Memory operations of State keep the canonical form. -/
theorem wf_memPut (s : State) (a : Nat) (bs : List Byte) (h : Memory.wf s.mem) : Memory.wf (s.memPut a bs).mem :=
  Memory.wf_writeBytes bs s.mem a h
theorem wf_memPutQ (s : State) (a : Nat) (d : List Dword) (h : Memory.wf s.mem) : Memory.wf (s.memPutQ a d).mem :=
  Memory.wf_writeBytes _ s.mem a h
theorem wf_reset : Memory.wf State.reset.mem := by simp [State.reset, Memory.wf, Tbl.wf]

/-! ## Time (R24, log 9) -/

theorem ns_reach (s : State) (d : Nat) : (s.reach d).ns = max s.ns d := by
  unfold reach
  split
  · rename_i h; simp [ns] at h ⊢; omega
  · rename_i h; omega

/-- Rack Time reaches a deadline: it is at least that, and never goes back. -/
theorem reach_ge (s : State) (d : Nat) : d ≤ (s.reach d).ns ∧ s.ns ≤ (s.reach d).ns := by
  rw [ns_reach]; omega

theorem reach_due (s : State) (d : Nat) (h : d ≤ s.ns) : s.reach d = s := by
  unfold reach; rw [if_neg (by omega)]

end State

end Machine

end Sys2Proof
end

