-- ==== Sys2Proof/Laws/Pages.lean ====
section
/-! SUPPORT. A write and a command that reach their page: what the shared judgements answer then. -/

namespace Sys2Proof.Machine

/-- A write that reaches its page has its effect (R48, R66, R94). -/
theorem pageWrite_reaches {s : State} {who : Requester} {blk inst : Nat} (k : State → State)
    (h : WriteReaches s who blk inst) : pageWrite who blk inst k s = k s := by
  obtain ⟨h1, h2, h3⟩ := h
  unfold pageWrite throughCf
  simp only [h1, h3, if_neg (Nat.not_le.mpr h2), Bool.not_true, Bool.false_eq_true, if_false]

/-- A write to the BAR0 of a function that answers has its effect (R91, R94 to R96, R99). -/
theorem barWrite_answers {s : State} {port sel : Nat} (k : State → State) (h : FuncAnswers s port sel) :
    barWrite port sel k s = k s := by
  unfold FuncAnswers funcLive at h
  simp only [Bool.and_eq_true, beq_iff_eq, Bool.not_eq_true'] at h
  obtain ⟨⟨⟨⟨h1, h2⟩, h3⟩, h4⟩, h5⟩ := h
  unfold barWrite
  simp only [h1, h2, h3, h4, h5]
  rfl

/-- A configuration write that finds its function has its effect (R89). -/
theorem configWrite_finds {s : State} {port sel : Nat} (k : State → State) (h : ConfigFinds s port sel) :
    configWrite port sel k s = k s := by
  unfold configWrite
  simp only [h.1, h.2, if_true]

/-! ## A command that begins -/

/-- Two states agree on a set of registers. -/
def SameRegs (P : Nat → Prop) (s t : State) : Prop := ∀ b, P b → t.rdA b = s.rdA b

theorem SameRegs.hdw {P : Nat → Prop} {s t : State} (h : SameRegs P s t) (blk inst off v : Nat)
    (n : ∀ b, P b → b % 4096 ≠ off) (ho : off < 4096) : SameRegs P s (t.hdw blk inst off v) := by
  intro b hb
  rw [← h b hb]
  apply State.rdA_wrA_other
  intro e
  apply n b hb
  rw [e]
  simp only [State.addr]
  omega

/-- What a command's arguments and PG_CMD do not touch: PG_CTRL and every register from 0x80 on. -/
def Untouched (b : Nat) : Prop := b % 4096 = 8 ∨ 0x80 ≤ b % 4096

theorem Untouched.ne {b off : Nat} (h : Untouched b) (h1 : 8 < off) (h2 : off < 0x80) : b % 4096 ≠ off := by
  unfold Untouched at h; omega

theorem SameRegs.putArg {s u : State} (h : SameRegs Untouched s u) (blk inst off : Nat) (o : Option Word) (h1 : 8 < off)
    (h2 : off < 0x80) : SameRegs Untouched s (Machine.putArg blk inst off o u) := by
  cases o
  · exact h
  · exact h.hdw _ _ _ _ (fun b hb => hb.ne h1 h2) (by omega)

theorem SameRegs.putData {s u : State} (h : SameRegs Untouched s u) (blk inst : Nat) (d : List Dword) :
    SameRegs Untouched s (Machine.putData blk inst d u) := by
  have many : ∀ (l : List Nat) (u : State), (∀ i ∈ l, i < 16) → SameRegs Untouched s u →
      SameRegs Untouched s (l.foldl (fun (s : State) (i : Nat) =>
        s.hdw blk inst (0x40 + 4 * i) (qw d (i / 2) / 2 ^ (32 * (i % 2)))) u) := by
    intro l
    induction l with
    | nil => intro u _ h; exact h
    | cons a t ih =>
      intro u hl h
      have ha : a < 16 := hl a (by simp)
      rw [List.foldl_cons]
      exact ih _ (fun i hi => hl i (by simp [hi])) (h.hdw _ _ _ _ (fun b hb => hb.ne (by omega) (by omega)) (by omega))
  unfold Machine.putData
  apply many _ _ _ h
  intro i hi
  simp only [List.mem_range] at hi
  omega

theorem setRunning_rdA (s : State) (m : Tbl Running) (a : Nat) : ({ s with running := m } : State).rdA a = s.rdA a := rfl
theorem setRunning_faulted (s : State) (m : Tbl Running) : ({ s with running := m } : State).faulted = s.faulted := rfl

theorem SameRegs.runCommand {P : Nat → Prop} {s u : State} (h : SameRegs P s u) (r : Running) (blk inst op : Nat)
    (n : ∀ b, P b → b % 4096 ≠ 0x24) : SameRegs P s (Machine.runCommand r blk inst op u) := by
  have h1 := h.hdw blk inst 0x24 (r.tag.toNat * 65536 + op * 256) n (by omega)
  intro b hb
  unfold Machine.runCommand
  exact (setRunning_rdA _ _ _).trans (h1 b hb)

theorem putCmd_regs (c : CmdIn) (blk inst op : Nat) (s : State) :
    SameRegs Untouched s (putCmd c blk inst op (latchArgs c blk inst s)) := by
  have h0 : SameRegs Untouched s s := fun _ _ => rfl
  have h1 : SameRegs Untouched s (latchArgs c blk inst s) :=
    ((h0.putArg blk inst 0x28 c.arg0 (by omega) (by omega)).putArg blk inst 0x2C c.arg1 (by omega) (by omega)).putData
      blk inst c.data
  unfold putCmd
  exact h1.hdw blk inst 0x20 _ (fun b hb => hb.ne (by omega) (by omega)) (by omega)

theorem begun_regs (c : CmdIn) (blk inst op : Nat) (s : State) : SameRegs Untouched s (begun c blk inst op s) := by
  unfold begun beginCommand
  exact (putCmd_regs c blk inst op s).runCommand _ blk inst op (fun b hb => hb.ne (by omega) (by omega))

theorem putArg_faulted (blk inst off : Nat) (o : Option Word) (s : State) : (putArg blk inst off o s).faulted = s.faulted := by
  cases o
  · rfl
  · exact State.hdw_faulted _ _ _ _ _

theorem putData_faulted (blk inst : Nat) (d : List Dword) (s : State) : (putData blk inst d s).faulted = s.faulted := by
  unfold putData
  generalize List.range _ = l
  induction l generalizing s with
  | nil => rfl
  | cons a t ih => rw [List.foldl_cons, ih, State.hdw_faulted]

theorem runCommand_faulted (r : Running) (blk inst op : Nat) (s : State) : (runCommand r blk inst op s).faulted = s.faulted :=
  (setRunning_faulted _ _).trans (State.hdw_faulted _ _ _ _ _)

theorem putCmd_faulted (c : CmdIn) (blk inst op : Nat) (s : State) : (putCmd c blk inst op s).faulted = s.faulted :=
  State.hdw_faulted _ _ _ _ _

theorem begun_faulted (c : CmdIn) (blk inst op : Nat) (s : State) : (begun c blk inst op s).faulted = s.faulted := by
  unfold begun beginCommand latchArgs
  rw [runCommand_faulted, putCmd_faulted, putData_faulted, putArg_faulted, putArg_faulted]

theorem pageActive_regs {s t : State} (h : SameRegs Untouched s t) (blk inst : Nat) :
    pageActive t blk inst = pageActive s blk inst := by
  have p : ∀ o, t.rd OCTET.PERS_ACTIVE o = s.rd OCTET.PERS_ACTIVE o := by
    intro o
    unfold State.rd
    rw [h]
    right
    simp only [State.addr]
    omega
  have p1 : ∀ o, persOf t o = persOf s o := fun o => by unfold persOf; rw [p]
  have p2 : ∀ o, hsplitOf t o = hsplitOf s o := fun o => by unfold hsplitOf; rw [p]
  have p3 : ∀ i, portUsed t i = portUsed s i := fun i => by unfold portUsed; simp only [p1, p2]
  unfold pageActive
  simp only [p1, p3]

theorem enabled_regs {s t : State} (h : SameRegs Untouched s t) (blk inst : Nat) : t.enabled blk inst = s.enabled blk inst := by
  unfold State.enabled State.hd State.rd
  rw [h]
  left
  simp only [State.addr]
  omega

/-- Serving is judged alike before and after the command's words are written. -/
theorem begun_serves {c : CmdIn} {blk inst op : Nat} {s : State} (h : Serves s blk inst) :
    Serves (begun c blk inst op s) blk inst :=
  ⟨(enabled_regs (begun_regs c blk inst op s) blk inst).trans h.1,
   (pageActive_regs (begun_regs c blk inst op s) blk inst).trans h.2.1, (begun_faulted c blk inst op s).symm ▸ h.2.2⟩

/-- The command that begins is the one running on its page. -/
theorem begun_running (c : CmdIn) (blk inst op : Nat) (s : State) :
    Tbl.get? (begun c blk inst op s).running (State.pk blk inst) =
      some (latchedCmd c blk inst op (putCmd c blk inst op (latchArgs c blk inst s))) := by
  unfold begun beginCommand runCommand
  simp only [Tbl.get?_put_self]

/-- What a page command comes to on a page that takes and serves it (R52, R56, R57, R66, R470). -/
theorem pageCommand_runs {blk op : Nat} (eff : CmdCtx → State → CmdRes) {c : CmdIn} {s : State}
    (ht : TakesCommand s c.who blk c.inst.toNat) (hs : Serves s blk c.inst.toNat) (hp : PlainCommand c)
    (hd : c.defer = false) (hw : blk = blkTWIN → c.inst.toNat = 0) :
    pageCommand blk op eff c s = conclude (eff (begunCtx c blk c.inst.toNat op s) (begun c blk c.inst.toNat op s))
      (State.pk blk c.inst.toNat) := by
  obtain ⟨⟨h1, h2, h3⟩, h4⟩ := ht
  obtain ⟨g1, g2, g3⟩ := begun_serves (c := c) (op := op) hs
  have hr := begun_running c blk c.inst.toNat op s
  have hb : (blk == blkTWIN && c.inst.toNat != 0) = false := by
    by_cases e : blk = blkTWIN
    · simp [hw e]
    · simp [e]
  have hj : judge (latchedCmd c blk c.inst.toNat op (putCmd c blk c.inst.toNat op (latchArgs c blk c.inst.toNat s))) blk
      c.inst.toNat eff (begun c blk c.inst.toNat op s) =
      eff (begunCtx c blk c.inst.toNat op s) (begun c blk c.inst.toNat op s) := by
    have hq : (c.hi.toNat % 256 != 0 || c.hi.toNat / 65536 != 0) = false := by
      have h' := hp.2
      simp [hp.1, Nat.div_eq_of_lt h']
    unfold judge
    rw [if_neg (by simp only [latchedCmd, hq]; exact Bool.false_ne_true), if_neg (by rw [hb]; exact Bool.false_ne_true),
      if_neg (by rw [g3]; simp), if_neg (by rw [g1, g2]; simp)]
    rfl
  unfold pageCommand throughCf
  simp only [h1, h3, if_neg (Nat.not_le.mpr h2), Bool.not_true, Bool.false_eq_true, if_false, h4, hd]
  change finish blk c.inst.toNat eff (begun c blk c.inst.toNat op s) = _
  unfold finish
  rw [hr]
  simp only
  rw [if_neg (by simp [latchedCmd]), hj]

/-- Each row that writes PG_CMD is a page command with an effect of its own. -/
theorem pageRow_exec {s : State} {i : Instr} {blk op : Nat} {c : CmdIn} (h : pageRow s i = some (blk, op, c)) :
    ∃ eff, exec i s = .next (settle (pageCommand blk op eff c s)) := by
  cases i <;> first | (cases h; exact ⟨_, rfl⟩) | (simp only [pageRow, reduceCtorEq] at h)

end Sys2Proof.Machine
end

