-- ==== Sys2Proof/Laws/Step.lean ====
section
/-! SUPPORT. What every step answers: each command ends by settling, and a step that goes on has settled. -/

namespace Sys2Proof.Machine

/-- Every command answers a next state, with interrupts and outputs settled. -/
theorem exec_settled (i : Instr) (s : State) : ∃ u, exec i s = .next (settle u) := by
  cases i <;> exact ⟨_, rfl⟩

/-- A step that answers a next state has settled it. -/
theorem step_settled {s t : State} (h : step s = .next t) : ∃ u, t = settle u := by
  unfold step at h
  split at h
  · rename_i c rest hq
    obtain ⟨u, hu⟩ := exec_settled c { s with pending := rest }
    exact ⟨u, (Host.Outcome.next.inj (hu.symm.trans h)).symm⟩
  · unfold idle at h
    split at h
    · cases h
    · exact ⟨_, (Host.Outcome.next.inj h).symm⟩

end Sys2Proof.Machine
end

