-- ==== Sys2Proof/Tests/Slice0.lean ====
section
/-! SUPPORT. The model's own tests: ill-formed operands refused, small runs from the manual's own numbers, and for every
statement with hypotheses a state and operands that meet them. -/

namespace Sys2Proof.Tests

open Sys2Proof Sys2Proof.Machine

set_option maxRecDepth 100000

/-! ## Small states -/

/-- The block after reset. -/
def rst : State := State.reset
/-- A page enabled. -/
def on (s : State) (blk inst : Nat) : State := s.hdw blk inst 0x08 1
/-- An octet with a personality, calibrated. -/
def oct (s : State) (o pers : Nat) : State := (s.wr OCTET.PERS_ACTIVE o pers).setState blkOCTET o 3
/-- Host port 0 attached, its link in L0, its PF0 and PF1 ready. -/
def host : State :=
  { (oct rst 0 1).setState blkHPORT 0 4 with
    hports := [(0, { quar := 1, l0 := true, gen := 5, width := 16, pf1 := true, cf := 1, bar4 := 30 })] }
/-- A command as it is written, from control port A. -/
def cmd (inst : BitVec 9) : CmdIn :=
  { who := .ctrlA, inst := inst, hi := 0x100, arg0 := some 0, arg1 := some 0, data := [], env := [], defer := false }
/-- A command that runs on a page. -/
def run (blk inst op : Nat) (a0 : Word) (wait : Bool) (s : State) : State :=
  let r : Running := { who := .ctrlA, tag := 1, op := BitVec.ofNat 8 op, rsvd := false, arg0 := a0, arg1 := 0, data := [],
                       env := [], start := 0, wait := wait, res := 0, ret := none }
  { s with running := Tbl.put s.running (State.pk blk inst) r }
/-- An event on a calendar slice. -/
def due (n blk kind cookie d : Nat) (s : State) :
    State := { s with cal := Tbl.put s.cal n { chip := [⟨d, blk, kind, cookie⟩] } }

/-! ## Witnesses: registers, commands, time -/

theorem witness_RegisterRowsRun_page : WriteReaches rst .ctrlA 2 0 ∧ (0x00400110#29).toNat / 2097152 = 2 ∧
    (0x00400110#29).toNat / 4096 % 512 = 0 ∧ (0x00400110#29).toNat % 4 = 0 ∧ (0x00400110#29).toNat % 4096 ≠ 0x20 := by decide
theorem witness_RegisterRowsRun_ring : FuncAnswers host 0 0 ∧ (0xF0C#16).toNat % 4 = 0 ∧ ringFn 0 = true := by decide
theorem witness_RegisterRowsRun_ctl : FuncAnswers host 0 1 ∧ (0x14#16).toNat % 4 = 0 ∧ ringFn 1 = false := by decide
theorem witness_RegisterRowsRun_read : cfInReset rst .ctrlA = none ∧ 0 < pageCount 2 ∧
    mayRead rst .ctrlA 2 = true := by decide
theorem witness_RegisterRowsRun_enable : enableFixed blkDMA = false ∧ WriteReaches rst .ctrlA blkDMA 255 ∧
    rst.enabled blkDMA 255 = false := by decide
theorem witness_RegisterRowsRun_reset : 31 < pageCount blkPARSE ∧ ¬ 32 < pageCount blkPARSE := by decide
theorem witness_RegisterRowsRun_rearm : WriteReaches (rst.istat blkRTIME 0 3) .ctrlA blkHUB 0 ∧
    (pendingTypes ((rst.istat blkRTIME 0 3).hdw blkRTIME 0 0x14 8).regs).contains 2 = true := by decide
theorem witness_RegisterRowsRun_route : WriteReaches rst .ctrlA blkHUB 0 ∧ rst.locked blkHUB 0 = false ∧
    bits 0xA0000000 29 28 = 2 := by decide
theorem witness_RegisterRowsRun_mgmt : WriteReaches (rst.wr HUB.ACCESS 0 0xFF blkMGMT) .mgmt blkMGMT 0 ∧
    bit (0x90400104#32).toNat 31 = true ∧ (0x90400104#32).toNat % 2 ^ 29 / 2097152 = blkMGMT := by decide
theorem witness_RegisterRowsRun_mgmtRead : cfInReset rst .mgmt = none ∧ mayRead rst .mgmt blkMGMT = true := by decide
theorem witness_CommandEndRowsRun_end : (pageEffect blkRTIME 2).isSome = true ∧
    (Tbl.get? (run blkRTIME 0 2 0 false rst).running (State.pk blkRTIME 0)).map (fun r => r.wait) = some false := by decide
theorem witness_CommandEndRowsRun_limit : (Tbl.get? (run blkDMA 255 3 0 true rst).running (State.pk blkDMA 255)).isSome =
    true ∧
    255 < pageCount blkDMA ∧ blkDMA ≠ blkQMGR ∧ blkDMA ≠ blkTWIN := by decide
theorem witness_TimeRowsRun_writes : WriteReaches rst .ctrlB blkRTIME 0 ∧ (59#32).toNat ≤ 59 ∧
    rst.clk.armed = false := by decide
def ptpOk : State := { rst with clk := { rst.clk with ptp := { ok := true, since := 5, last := 7 } } }
theorem witness_TimeRowsRun_ptp : ptpOk.clk.ptp.ok = true := by decide
def ppsOk : State := { rst with clk := { rst.clk with pps := { ok := true, since := 0, last := 1 } } }
theorem witness_TimeRowsRun_pps : ppsOk.clk.trefOk = true ∧ ppsOk.clk.pps.last ≠ 0 ∧
    ppsOk.bref + 1200000001 ≤ ppsOk.clk.pps.last + 1200000000 ∧ ppsOk.clk.pps.ok = true := by decide
def twoSources : State :=
  { rst.wr RTIME.SRC_CTRL 0 0x739 with clk := { rst.clk with source := some .twin, ptp := { ok := true }, twin := { ok := true, last := 1 } } }
theorem witness_TimeRowsRun_qual : twoSources.clk.source = some .twin ∧ qualified twoSources .ptp = true ∧
    (ranking twoSources).idxOf .ptp < (ranking twoSources).idxOf .twin ∧
    bestSource (reachBref twoSources ((qualOf twoSources.clk .ptp).since + twoSources.rd RTIME.QUAL_TIME * 1000000000)) =
      some .ptp := by decide
theorem witness_TimeRowsRun_step : ({ rst.clk with stepPending := some 5 } : Clock).stepPending.isSome = true := by decide
def minuteLate : State := { rst with now := 61000000000 * 65536, clk := { rst.clk with armed := true, lastSealed := 0 } }
theorem witness_TimeRowsRun_minute : minuteLate.clk.armed = true ∧
    minuteLate.clk.lastSealed < minuteOf minuteLate minuteLate.ns ∧
    rst.clk.armed = false := by decide
theorem witness_TimeRowsRun_cal : (waitingCmd (run blkRTIME 0 1 9 true rst) blkRTIME 0 0x01).isSome = true := by decide
theorem witness_TimeRowsRun_ppsOut : ppsDriven ((rst.wr RTIME.PPS_CTRL 0 0x24).reach 1000000000) = true ∧
    (((rst.wr RTIME.PPS_CTRL 0 0x24).ns : Int) - signed 32 ((rst.wr RTIME.PPS_CTRL 0 0x24).rd RTIME.PPS_OUT_OFFSET)) / 1000000000 *
      1000000000 + signed 32 ((rst.wr RTIME.PPS_CTRL 0 0x24).rd RTIME.PPS_OUT_OFFSET) + 1000000000 = 1000000000 ∧
    ({ rst.clk with ppsOut := true } : Clock).ppsOut = true := by decide
theorem witness_CalendarRowsRun_fire : (due 63 blkQMGR 1 5 2000 rst).calNext 63 = some ⟨2000, blkQMGR, 1, 5⟩ := by decide
theorem witness_CalendarRowsRun_cascade : (due 0 blkQMGR 1 5 (2 ^ 21) rst).calNext 0 = some ⟨2 ^ 21, blkQMGR, 1, 5⟩ ∧
    calLevel (due 0 blkQMGR 1 5 (2 ^ 21) rst).ns (2 ^ 21) ≠ 0 ∧
    ((due 0 blkQMGR 1 5 (2 ^ 21) rst).reach (2 ^ 20)).rd CAL.SPILL_HI 0 ≥ 1 := by decide
def fullSlice : State := (due 0 blkQMGR 1 5 (2 ^ 21) rst).wr CAL.SPILL_HI 0 0
theorem witness_CalendarRowsRun_spill : fullSlice.calNext 0 = some ⟨2 ^ 21, blkQMGR, 1, 5⟩ ∧
    calLevel fullSlice.ns (2 ^ 21) ≠ 0 ∧ ((fullSlice.reach (2 ^ 20)).slice 0).chip.length > fullSlice.rd CAL.SPILL_HI 0 ∧
    (fullSlice.reach (2 ^ 20)).rd CAL.SPILL_HI 0 = 0 := by decide
def spilled : State := { rst with cal := [(5, { spill := [⟨2 ^ 22, blkQMGR, 1, 5⟩] })] }
theorem witness_CalendarRowsRun_back : State.calFirst (spilled.slice 5).spill = some ⟨2 ^ 22, blkQMGR, 1, 5⟩ ∧
    ((spilled.reach ((2 ^ 22 / 2 ^ 20 - 1) * 2 ^ 20)).slice 5).chip.length < 65536 := by decide

/-! ## Witnesses: attachment, functions, windows -/

def octCal : State := (rst.wr OCTET.PERS_ACTIVE 7 1).setState blkOCTET 7 2
theorem witness_AttachmentRowsRun_cal : octCal.stateOf blkOCTET 7 = 2 ∧
    ((run blkOCTET 7 3 0 true rst).setState blkOCTET 7 1).stateOf blkOCTET 7 = 1 ∧
    Waits (run blkOCTET 7 3 0 true rst) blkOCTET 7 0x03 := by decide
theorem witness_AttachmentRowsRun_up : 3 ≤ (oct rst 9 2).stateOf blkOCTET 9 ∧ persOf (oct rst 9 2) 9 = 2 ∧
    0 < dports (oct rst 9 2) 9 ∧ persOf (oct rst 9 3) 9 = 3 ∧
    (ethPorts ((oct rst 9 3).wr EMAC.MODE 9 1) 9).contains 0 = true ∧
    persOf (oct rst 14 4) 14 = 4 ∧ (Tbl.getD (oct rst 9 2).octUp 9 []).contains 0 = false := by decide
def portUp (pers : Nat) : State := { oct rst 14 pers with octUp := [(14, [0])] }
theorem witness_AttachmentRowsRun_down : (Tbl.getD (portUp 2).octUp 14 []).contains 0 = true ∧ persOf (portUp 2) 14 ≠ 1 ∧
    persOf (octPortDown (portUp 2) 14 0) 14 = 2 ∧ persOf (octPortDown (portUp 3) 14 0) 14 = 3 ∧
    persOf (octPortDown (portUp 4) 14 0) 14 = 4 := by decide
theorem witness_AttachmentRowsRun_present : pinPort (setHprsnt (oct rst 0 1) 0 true) 0 = some 0 := by decide
def debounced (pin : Bool) : State :=
  { oct rst 0 1 with hports := [(0, { debounce := some 500 })], pwr := { rst.pwr with hprsnt := if pin then [0] else [] } }
theorem witness_AttachmentRowsRun_debounce : pinPort (debounced true) 0 = some 0 ∧
    (hportOf (debounced true) 0).debounce = some 500 ∧
    presentPin (setHport ((debounced false).reach 500) 0 { hportOf ((debounced false).reach 500) 0 with debounce := none }) 0 =
      false ∧
    presentPin (setHport ((debounced true).reach 500) 0 { hportOf ((debounced true).reach 500) 0 with debounce := none }) 0 =
      true ∧
    octetsReady (setHport ((debounced true).reach 500) 0 { hportOf ((debounced true).reach 500) 0 with debounce := none }) 0 =
      true := by decide
def linkIn (q : Nat) : State := { host with hports := [(0, { quar := q, l0 := true, gen := 5, width := 16 })] }
theorem witness_AttachmentRowsRun_leave : portUsed (linkIn 2) 0 = true ∧ (hportOf (linkIn 2) 0).l0 = true ∧
    (hportOf (hostLink (linkIn 2) 0 false) 0).quar ≠ 1 ∧ (hostLink (linkIn 2) 0 false).stateOf blkHPORT 0 ≠ 5 ∧
    (hportOf (hostLink (linkIn 1) 0 false) 0).quar = 1 ∧ (hportOf (hostLink (linkIn 3) 0 false) 0).quar = 3 := by decide
theorem witness_AttachmentRowsRun_perst : perstLow (hostLink { linkIn 1 with pwr := { rst.pwr with perst := [0] } } 0 false) 0 =
    false := by decide
def graced : State := { host with hports := [(0, { quar := 1, grace := some 900 })] }
theorem witness_AttachmentRowsRun_grace : (hportOf graced 0).grace = some 900 := by decide
/-- Host port 0 may train: its page enabled, PERST_N high, quarantine state `q`; x4 when `h` is 1. -/
def train (h q : Nat) : State :=
  { on (oct rst 0 (1 + 16 * h)) blkHPORT 0 with hports := [(0, { quar := q })], pwr := { rst.pwr with perst := [0] } }
def trained (h q : Nat) : State :=
  hostLink (setHport (train h q) 0 { hportOf (train h q) 0 with gen := 6, width := 4, flit := true, grace := none }) 0 true
theorem witness_AttachmentRowsRun_trained : portUsed (train 1 2) 0 = true ∧ mayTrain (train 1 2) 0 = true ∧
    perstLow (train 1 2) 0 = false ∧ (hportOf (trained 1 2) 0).quar ≠ 1 ∧ (hportOf (trained 1 2) 0).quar ≠ 3 ∧
    pinServed (trained 1 2) 0 = false ∧ (hportOf (trained 0 3) 0).quar = 3 ∧ perstLow (train 0 3) 0 = false ∧
    (hportOf (trained 0 1) 0).quar = 1 ∧ (hportOf (train 0 1) 0).grace = none ∧
    (trained 0 1).stateOf blkHPORT 0 ≠ 4 := by decide
theorem witness_AttachmentRowsRun_assert : pinPort (setPerst (train 0 2) 0 false) 0 = some 0 ∧
    (hportOf (setPerst (train 0 2) 0 false) 0).quar ≠ 1 ∧ (hportOf (setPerst (train 0 1) 0 false) 0).quar = 1 := by decide
theorem witness_AttachmentRowsRun_deassert : pinPort (setPerst ((train 0 1).setState blkHPORT 0 5) 0 true) 0 = some 0 ∧
    (setPerst ((train 0 1).setState blkHPORT 0 5) 0 true).stateOf blkHPORT 0 = 5 ∧
    (hportOf (setPerst ((train 0 1).setState blkHPORT 0 5) 0 true) 0).l0 = false := by decide
def quarantined : State := due 32 blkOCTET 1 0 700 { oct rst 0 1 with hports := [(0, { quar := 2 })] }
theorem witness_AttachmentRowsRun_quarantine : Due quarantined blkOCTET 1 0 32 ⟨700, blkOCTET, 1, 0⟩ ∧
    (hportOf (quarantined.fireEvent 32 ⟨700, blkOCTET, 1, 0⟩) 0).quar = 2 := by decide
theorem witness_AttachmentRowsRun_retry : (hportOf { rst with hports := [(5, { quarRetry := some (900, 400) })] } 5).quarRetry =
    some (900, 400) := by decide
def eth : State := { oct rst 9 3 with octUp := [(9, [0])] }
theorem witness_AttachmentRowsRun_frames : linkUp (eth.pass 3) 72 = true ∧ (List.replicate 59 (0 : Byte)).length + 4 < 64 ∧
    60 ≤ (List.replicate 60 (0 : Byte)).length ∧
    (List.replicate 60 (0 : Byte)).length ≤ (emacCount (emacCount (eth.pass 3) 72 0 1) 72 1 60).rd EMAC.MAX_FRAME 9 ∧
    isPause (List.replicate 60 (0 : Byte)) = false := by decide
theorem witness_AttachmentRowsRun_inMacsec : (macsecRx (emacCount (emacCount (eth.pass 3) 72 0 1) 72 1 60) 72
    (List.replicate 60 (0 : Byte))).2 = some (List.replicate 60 (0 : Byte)) := by decide
/-- A D octet at position 12 whose port 3's inbound window 3 opens the first 8 KiB of HBM. -/
def dev : State :=
  { ((oct rst 12 2).wr64 DPORT.IW 12 0x1000000000 60).wr64 DPORT.IW 12 0x1000001000 62 with octUp := [(12, [3])] }
theorem witness_AttachmentRowsRun_inbound : persOf dev 12 = 2 ∧ (Tbl.getD dev.octUp 12 []).contains 3 = true ∧ 3 < 4 ∧
    (inbound dev 12 3 3).1 ≤ (0x1000001FFE#64).toNat ∧ (0x1000001FFE#64).toNat + 2 ≤ (inbound dev 12 3 3).2 + 1 ∧
    devAny dev (0x1000001FFE#64).toNat 2 = 0 := by decide
theorem witness_FunctionRowsRun_config : configMeets host 0 = 2 ∧ selOfRid 1 = some 1 ∧ funcPresent host 0 1 = true ∧
    (funcOf host 0 1).inReset = false := by decide
def d3 : State := setFunc host 0 2 { funcOf host 0 2 with d3 := true }
theorem witness_FunctionRowsRun_power : ConfigFinds host 0 2 ∧ (funcOf host 0 2).d3 = false ∧ ConfigFinds d3 0 2 ∧
    (funcOf d3 0 2).d3 = true ∧ (funcOf d3 0 2).inReset = false ∧ flrRuns host 0 0 = false := by decide
theorem witness_FunctionRowsRun_hot : (hportOf host 0).quar = 1 ∧ (hportOf host 0).l0 = true ∧
    host.stateOf blkHPORT 0 ≠ 5 := by decide
def flr : State := setFunc host 0 1 { funcOf host 0 1 with inReset := true }
theorem witness_FunctionRowsRun_flr : (funcOf flr 0 1).inReset = true ∧ (funcOf flr 0 1).subsumed = false ∧
    (hportOf flr 0).inReset = false := by decide
theorem witness_FunctionRowsRun_drain :
    ({ host with drains := [⟨0, 1, false, 0, true⟩] } : State).drains.any
      (fun d => d.port == 0 && d.sel == 1 && d.running) = true := by decide
theorem witness_FunctionRowsRun_ready : (hportOf ({ train 0 1 with hports := [(0, { quar := 1, l0 := true })] }.setState blkHPORT 0 3) 0).l0 =
      true ∧
    mayTrain ({ train 0 1 with hports := [(0, { quar := 1, l0 := true })] }.setState blkHPORT 0 3) 0 = true ∧
    perstLow ({ train 0 1 with hports := [(0, { quar := 1, l0 := true })] }.setState blkHPORT 0 3) 0 = false := by decide
def reading (stage : Nat) (r : Bool) : State := { host with dma := [(255, { stage := stage, reading := r })] }
theorem witness_FunctionRowsRun_timeout : (dmaOf (reading 0 true) 255).reading = true ∧
    (dmaOf (reading 3 false) 255).stage = 3 ∧
    (dmaOf (reading 3 false) 255).reading = false := by decide
/-- Queue 5 of PF0 on port 0, with its kind, reading, and an item. -/
def ringed (kind : Nat) (r : Bool) : State :=
  { host with queues := [(qkey (.fn 0 0 5), { kind := kind, log2 := 6, base := 0x1000, bind := 0, ering := 0,
                                              devmem := false, handle := 9, owner := 3, reading := r, items := [⟨0, 1,
                                              [[]], [], none, 0, false, false, none, 0, 0, 0, 0, 1, 0, 0, 0, false,
                                              []⟩] })] }
theorem witness_FunctionRowsRun_queue : (Tbl.get? (timedOut (ringed 0 true) 0 0).queues (qkey (.fn 0 0 5))).map (fun x => x.reading) =
      some true ∧
    (Tbl.get? (timedOut (ringed 0 false) 0 0).queues (qkey (.fn 0 0 5))).map (fun x => x.reading) = some false := by decide
/-- A window entry of port 0 that forwards to port 0 itself. -/
def windowed (e : List Dword) : State :=
  { on host blkWINDOW 0 with windows := [(0, { epochs := [(0, [(0, e)])], tlps := [⟨7, 0, 0, false⟩] })] }
theorem witness_WindowRowsRun_completion : ((winOf (windowed []) 0).tlps.find? (fun t => t.id == 7)).isSome =
    true := by decide
/-- A VALID entry from port 0 to port 0, readable and writable, of 2 pages at 0. -/
def winEntry : List Dword := [0xE000000000000000, 2, 0x10003, 0]
theorem witness_WindowRowsRun_tlp : FuncAnswers (windowed winEntry) 0 0 ∧
    (0x1FFF#64).toNat < 2 ^ (hportOf (windowed winEntry) 0).bar4 ∧
    (hportOf (windowed winEntry) 0).bar4 ≠ 0 ∧ accepts (windowed winEntry) blkWINDOW 0 = true ∧
    winAt ((winOf (windowed winEntry) 0).epochs.headD (0, [])).2 0 (0x1FFF#64).toNat = some (0, winEntry) ∧
    targetReady (windowed winEntry) (winTarget winEntry) = true ∧
    (0x1FFF#64).toNat + 1 ≤ winStart winEntry + winBytes winEntry ∧
    bit (qw winEntry 0) 62 = true ∧ bit (qw winEntry 0) 61 = true := by decide

/-! ## Witnesses: rings, DMA, pipelines, tables -/

/-- Event ring 15 of PF0 on port 0. -/
def evented (ep cons : Word) : State :=
  { host with rings := [(ekey 0 0 15, { base := 0x2000, log2 := 4, vector := 3, ep := ep, cons := cons })] }
theorem witness_RingRowsRun_events : FuncAnswers (evented 5 2) 0 0 ∧
    (Tbl.get? (evented 5 2).rings (ekey 0 0 15)).isSome = true ∧ ((5 : Word) - 2).toNat ≤ ((5 : Word) - 2).toNat ∧
    bit (1#32).toNat 0 = true ∧ (5 : Word) ≠ 2 ∧ (Tbl.get? (evented 2 2).rings (ekey 0 0 15)).map (fun r => r.ep == r.cons) =
      some true := by decide
def stopped : State := { host with queues := [(qkey (.fn 0 0 5), { kind := 0, log2 := 6, base := 0, bind := 0, ering := 0, devmem := false, handle := 9, owner := 3, state := 2 })] }
def stoppedSel : State := setFunc stopped 0 0 { funcOf stopped 0 0 with qcSel := 5 }
theorem witness_RingRowsRun_resume : FuncAnswers stoppedSel 0 0 ∧
    resumeBad stoppedSel (fkey 0 0 * 4096 + (funcOf stoppedSel 0 0).qcSel.toNat % 4096) (BitVec.ofNat 16 (0#32).toNat) =
    0 := by decide
theorem witness_RingRowsRun_prov : WriteReaches (oct rst 0 1) .ctrlA blkQMGR 127 := by decide
theorem witness_RingRowsRun_slots : (Tbl.get? (ringed 0 true).queues (qkey (.fn 0 0 5))).map (fun x => x.reading) =
    some true := by decide
theorem witness_RingRowsRun_hold : Due (due 0 blkQMGR 1 (qkey (.fn 0 0 5)) 900 rst) blkQMGR 1 (qkey (.fn 0 0 5)) 0
    ⟨900, blkQMGR, 1, qkey (.fn 0 0 5)⟩ := by decide
theorem witness_RingRowsRun_payload : (Tbl.get? (ringed 0 false).queues (qkey (.fn 0 0 5))).map
      (fun x => decide (ownReads x + qpReads (ringed 0 false) x ≠ 0)) = some true ∧
    (Tbl.get? (ringed 2 false).queues (qkey (.fn 0 0 5))).map (fun x => decide (ownReads x + qpReads (ringed 2 false) x ≠ 0)) =
      some true ∧
    (sendPayload (ringed 2 false) (qkey (.fn 0 0 5)) (some [1])).2 = true := by decide
/-- QP 0 with a READ to answer, its responses sent from queue 5. -/
def reads3 : State :=
  { ringed 3 false with qps := [(0, { attr := [], handle := 0, reads := [(1, 2, 3, 4)] })] }
theorem witness_RingRowsRun_read : (Tbl.get? reads3.queues (qkey (.fn 0 0 5))).map
    (fun x => decide (ownReads x + qpReads reads3 x ≠ 0)) = some true := by decide
def sending : State := { ringed 0 false with txq := [(1023, [([1, 2], none), ([3], some (qkey (.fn 0 0 5), 0))])] }
theorem witness_RingRowsRun_sent : Tbl.getD sending.txq 1023 [] = [([1, 2], none), ([3], some (qkey (.fn 0 0 5), 0))] ∧
    wantsStamp (frameOut sending 1023 [1, 2] [([3], some (qkey (.fn 0 0 5), 0))]) none = false := by decide
def stamped : State :=
  { host with txq := [(1023, [([3], some (qkey (.fn 0 0 5), 0))])],
              queues := [(qkey (.fn 0 0 5),
              { kind := 0, log2 := 6, base := 0, bind := 0, ering := 0, devmem := false, handle := 9, owner := 3,
                items := [⟨0, 1, [[0x4000000000000]], [], none, 0, false, false, none, 0, 0, 0, 0, 1, 0, 0, 0, false,
                []⟩] })] }
theorem witness_RingRowsRun_stamp : wantsStamp (frameOut stamped 1023 [3] []) (some (qkey (.fn 0 0 5), 0)) =
    true := by decide
def dma (d : Dma) : State := { rst.setState blkDMA 255 1 with dma := [(255, d)] }
theorem witness_DmaRowsRun_bell : WriteReaches (dma { log2 := 4, d := 3 }) .ctrlA blkDMA 255 ∧
    dmaState (dma { log2 := 4, d := 3 }) 255 ≠ 0 ∧ (16#32).toNat < 65536 ∧
    ((BitVec.ofNat 16 (16#32).toNat) - (dmaOf (dma { log2 := 4, d := 3 }) 255).c).toNat ≤ 2 ^ 4 ∧
    (BitVec.ofNat 16 (16#32).toNat) ≠ (dmaOf (dma { log2 := 4, d := 3 }) 255).d ∧
    ((dmaOf (dma { log2 := 4, d := 3 }) 255).d - (dmaOf (dma { log2 := 4, d := 3 }) 255).c).toNat ≤
      ((BitVec.ofNat 16 (16#32).toNat) - (dmaOf (dma { log2 := 4, d := 3 }) 255).c).toNat := by decide
theorem witness_DmaRowsRun_read : 128 ≤ dSrcSpace [0, 0, 0, 0x80] ∧ dSrcSpace [0, 0, 0, 0x7F] < 128 ∧
    (dmaOf (dma { stage := 1, work := [[0, 0, 0, 0x80]] }) 255).stage = 1 := by decide
theorem witness_DmaRowsRun_complete : (dmaOf (dma { stage := 2 }) 255).stage = 2 ∧
    dBarrier (dmaOf (dma { stage := 2 }) 255).desc = false ∧
    dBarrier (dmaOf (dma { stage := 2, work := [[0x1000000000000]], wrote := [(3, 64)] }) 255).desc = true ∧
    (dmaOf (dma { stage := 2, work := [[0x1000000000000]], wrote := [(3, 64)] }) 255).status = 0 := by decide
theorem witness_DmaRowsRun_flush : (dmaOf (dma { stage := 3, flushing := [3] }) 255).flushing.length ≤ 1 ∧
    1 < (dmaOf (dma { stage := 3, flushing := [3, 4] }) 255).flushing.length := by decide
theorem witness_DmaRowsRun_window : (dma { stage := 4, window := 1 }).ns / 1000 + 1 =
    (dmaOf (dma { stage := 4, window := 1 }) 255).window ∧
    (dmaOf (dma { stage := 5, window := 1 }) 255).stage = 5 := by decide
theorem witness_PipelineRowsRun_copy : (waitingCmd (run blkPARSE 31 3 7 true rst) blkPARSE 31 0x03).map
    (fun r => r.arg0.toNat % 8) = some 7 := by decide
def fragd (kind d : Nat) : State := due 2 blkFRAG kind 9 d { rst with frags := [(9, { owner := 1, key := [] })] }
theorem witness_PipelineRowsRun_frag : Due (fragd 1 800) blkFRAG 1 9 2 ⟨800, blkFRAG, 1, 9⟩ ∧
    (Tbl.get? ((fragd 1 800).fireEvent 2 ⟨800, blkFRAG, 1, 9⟩).frags 9).isSome = true ∧
    Due (fragd 2 (10 ^ 12)) blkFRAG 2 9 2 ⟨10 ^ 12, blkFRAG, 2, 9⟩ ∧
    0 + ((fragd 2 (10 ^ 12)).fireEvent 2 ⟨10 ^ 12, blkFRAG, 2, 9⟩).rd FRAG.FRAG_LIFE * 1000 ≤
      ((fragd 2 (10 ^ 12)).fireEvent 2 ⟨10 ^ 12, blkFRAG, 2, 9⟩).ns := by decide
def pkt : Pkt := { bytes := [], inPort := 0, inHost := 0, owner := 0, stamp := 0, trace := false, tsOk := false }
def paced : State := due 31 blkCLASS 1 255 800 { rst with paces := [(31 * 256 + 255, { held := [(700, pkt, {})] })] }
theorem witness_PipelineRowsRun_pace : paced.pendingEvent 31 blkCLASS 1 255 = some ⟨800, blkCLASS, 1, 255⟩ ∧
    (paceOf (paced.fireEvent 31 ⟨800, blkCLASS, 1, 255⟩) 31 255).held = [(700, pkt, {})] := by decide
/-- A bad MAC entry of table 0 at position 4095, its shadow in HBM all zeros with the last word `w`. -/
def badEntry (w : Nat) : State :=
  { ((rst.wr HTBL.SCRUB_CTRL 0 1).wr64 HTBL.SHADOW_BASE 0 0x1000000000).memPutQ 0x100003FFC0 [0, 0, 0, 0, 0, 0, 0, dw (w * 2 ^ 32)] with tables := [(tkey 0 4095, { data := [], owner := 0, bad := true })] }
theorem witness_TableRowsRun_repair : shadowAt (badEntry 1510671665) 0 4095 = 0x100003FFC0 ∧
    (entryAt (badEntry 1510671665) 0 4095).map (fun e => e.bad) = some true ∧
    bit ((badEntry 1510671665).rd HTBL.SCRUB_CTRL) 0 = true := by decide
theorem witness_TableRowsRun_crc : (crc32c 0xFFFFFFFF ((qwBytes [0, 0, 0, 0, 0, 0, 0, 0]).take 60)).toNat = 1510671665 ∧
    qb [0, 0, 0, 0, 0, 0, 0, dw (1510671665 * 2 ^ 32)] 7 63 32 = 1510671665 ∧
    qb [0, 0, 0, 0, 0, 0, 0, 0] 7 63 32 ≠ (crc32c 0xFFFFFFFF ((qwBytes [0, 0, 0, 0, 0, 0, 0, 0]).take 60)).toNat := by decide
theorem witness_TableRowsRun_shadow : (badEntry 1510671665).memGetQ 0x100003FFC0 8 =
    [0, 0, 0, 0, 0, 0, 0, dw (1510671665 * 2 ^ 32)] ∧
    (badEntry 0).memGetQ 0x100003FFC0 8 = [0, 0, 0, 0, 0, 0, 0, 0] := by decide
theorem witness_TableRowsRun_scans : Due (due 33 blkFLOW 1 0 900 rst) blkFLOW 1 0 33 ⟨900, blkFLOW, 1, 0⟩ ∧
    Due (due 32 blkLEARN 1 0 900 rst) blkLEARN 1 0 32 ⟨900, blkLEARN, 1, 0⟩ := by decide
theorem witness_TableRowsRun_pass : ({ rst with scanning := true, flushing := [4, 5], scanPos := 2 } :
    State).flushing.take 2 ≠ [] ∧
    ({ rst with scanning := true, flushing := [4], scanPos := 0 } : State).flushing.take 0 = [] := by decide
def oldFlow : State :=
  { rst.wr FLOW.AGE_LIMIT 0 1 1 with now := 10 ^ 12 * 65536, removeQ := [77],
                                     tables := [(tkey 7 77, { data := [], owner := 0, ageClass := 1 })] }
theorem witness_TableRowsRun_removal : oldFlow.removeQ.contains 77 = true ∧
    (entryAt { oldFlow with removeQ := setDel oldFlow.removeQ 77 } 7 77).map (fun e => e.valid &&
      flowExpired { oldFlow with removeQ := setDel oldFlow.removeQ 77 } e oldFlow.ns) = some true := by decide
theorem witness_TableRowsRun_queues : Tbl.get? ({ rst with tableRetry := [(1, 50)] } : State).tableRetry (b2n true) =
    some 50 ∧
    ({ rst with learnQ := [⟨[1], 2, 3⟩] } : State).learnQ = ⟨[1], 2, 3⟩ :: [] := by decide
theorem witness_TableRowsRun_cons : WriteReaches (rst.wr LEARN.NR_PROD 0 7) .ctrlA blkLEARN 0 ∧
    (rst.wr LEARN.NR_PROD 0 7).nrOvr = false ∧ ((7#32).toNat + 2 ^ 32 - (rst.wr LEARN.NR_PROD 0 7).rd LEARN.NR_CONS) % 2 ^ 32 ≤
      ((rst.wr LEARN.NR_PROD 0 7).rd LEARN.NR_PROD + 2 ^ 32 - (rst.wr LEARN.NR_PROD 0 7).rd LEARN.NR_CONS) % 2 ^ 32 :=
      by decide

/-! ## Witnesses: RDMA, contexts, storage, ciphers -/

/-- QP 0 of PF0 on port 0, its fields in qword 0 zero, with a send queue 5 that holds one work request of 2 PSNs. -/
def wr (op : Nat) : WorkItem := { idx := 4, slots := 1, entries := [[dw (op + 4096 * 65536)]], psn0 := 7, npsn := 2 }
def sq (op : Nat) : Queue :=
  { kind := 2, log2 := 6, base := 0, bind := 0, ering := 0, devmem := false, handle := 9, owner := 3, items := [wr op] }
def qp (q : Qp) (op : Nat) : State := { host with qps := [(0, q)], queues := [(qkey (.fn 0 0 5), sq op)] }
def packet : RdmaPkt :=
  { port := 0, sel := 0, qpn := 0, opcode := 4, psn := 0, ackReq := false, se := false, msg := 0, offset := 0, rseq := 0,
    va := 0, rkey := 0, dmaLen := 0, imm := 0, a := 0, b := 0, payload := [], ce := false, icrcOk := true, vers := 0,
    local_ := true }
def rts : Qp := { state := 3, attr := [0, 0, 0, 0], handle := 0, rnr := 0 }
def loop : Qp := { rts with attr := [0, 0x2000000, 0, 0] }
theorem witness_RdmaRowsRun_request : (Tbl.get? (qp loop 0x10).qps packet.qpn.toNat) = some loop ∧
    packet.port.val = Qp'.port loop ∧ packet.sel.toNat = Qp'.func loop ∧ packet.local_ = Qp'.islocal loop ∧
    packet.opcode.toNat / 32 = 0 := by decide
theorem witness_RdmaRowsRun_wire : Qp'.islocal rts = false ∧ packet.icrcOk = true ∧
    vportAgrees { qp rts 0x10 with vports := [(vportKey (pipeOfPort (qp rts 0x10) 0) 0 1023, [0x1000, 0])] } rts =
    true := by decide
theorem witness_RdmaRowsRun_ack : (Tbl.get? (qp rts 0x10).qps 0) = some rts ∧ rts.state = 3 ∧ rts.srSend = false ∧
    (Tbl.get? (ackCum ((qp rts 0x10).bumpStat RDMA.RX (engOf 0)) 0 8).qps 0).map (fun q => q.srSend) = some false ∧
    rts.rnrWait = none ∧ qb rts.attr 1 37 35 ≠ 7 ∧ qb rts.attr 1 37 35 ≤ rnrCount (qp rts 0x10) 0 rts 8 := by decide
def patient : Qp := { rts with attr := [0, 0x3800000000, 0, 10] }
theorem witness_RdmaRowsRun_rnr : qb patient.attr 1 37 35 = 7 ∧
    (qpSchedule (ackCum ((qp patient 0x10).bumpStat RDMA.RX (engOf 0)) 0 16777215) 0 2
      ((ackCum ((qp patient 0x10).bumpStat RDMA.RX (engOf 0)) 0 16777215).ns + qb patient.attr 3 15 0 * 1000)).2 =
      true := by decide
theorem witness_RdmaRowsRun_read : ringOf (qp rts 0x14) 0 2 = some (qkey (.fn 0 0 5)) ∧ wrOp (wr 0x14) = 0x14 ∧
    (sq 0x14).items.find? (fun i => wrOp i == 0x14 && i.fate.isNone && wrCovers 8 i) = some (wr 0x14) ∧
    (wr 0x14).rgot.contains 8 = false ∧ (wr 0x14).placed = (0#32).toNat ∧
    (wr 0x14).placed + 4095 < wrLen (wr 0x14) := by decide
theorem witness_RdmaRowsRun_atomic :
    (sq 0x15).items.find? (fun i => isRead i && wrOp i != 0x14 && i.fate.isNone && wrCovers 7 i) = some (wr 0x15) ∧
    ringOf (qp rts 0x15) 0 2 = some (qkey (.fn 0 0 5)) := by decide
theorem witness_RdmaRowsRun_timers : Due (due 31 blkRDMA 1 31 900 rst) blkRDMA 1 31 31 ⟨900, blkRDMA, 1, 31⟩ ∧
    Due (due 31 blkRDMA 2 31 900 rst) blkRDMA 2 31 31 ⟨900, blkRDMA, 2, 31⟩ := by decide
theorem witness_RdmaRowsRun_retry : ({ rts with timerRetry := true, timer := some 9 } : Qp).timerRetry = true ∧
    ({ rts with timerRetry := true, timer := some 9 } : Qp).rnrWait = none := by decide
def atomQp : Qp := { rts with attr := [0, 0x80000000, 0, 0], atoms := [(7, 1, 64, 1, 5, 6)] }
theorem witness_RdmaRowsRun_host : atomQp.atoms.find? (fun a => a.1 == 7 && decide (a.2.2.2.1 < 2)) =
    some (7, 1, 64, 1, 5, 6) ∧
    bit (qw atomQp.attr 1) 31 = true := by decide
def ctx (c : Ctx) : State := { host with ctxs := [(33554431, c)] }
def c0 : Ctx := { unit := 0x30, cls := 2, owner := 3, port := 0 }
theorem witness_ContextRowsRun_demand : (Tbl.get? (ctx c0).ctxs (33554431#25).toNat) = some c0 ∧ c0.state = 3 ∧
    c0.waitSlot = false ∧ c0.lock = none ∧ ({ c0 with state := 1 } : Ctx).waitSlot = false ∧
    ({ c0 with state := 4, destroyDue := true } : Ctx).hb = false := by decide
def backed (v : Bool) (n : Word) : State :=
  setFunc (host.wr LEVAIN.HB_EN 0 1) 0 0 { funcOf host 0 0 with hbValid := v, hbPages := n }
theorem witness_ContextRowsRun_backing : FuncAnswers (backed false 0x100000) 0 0 ∧
    (funcOf (backed false 0x100000) 0 0).hbValid = false ∧ hbEnabled (backed false 0x100000) 0 = true ∧
    (funcOf (backed false 0x100000) 0 0).hbBaseLo.toNat % 4096 = 0 ∧
    (funcOf (backed false 0x100000) 0 0).hbPages.toNat ≤ 0x100000 ∧ (funcOf (backed true 1) 0 0).hbValid = true ∧
    (backed true 1).ctxs.filter (fun x => x.2.hb && x.2.port == 0) = [] ∧ FuncAnswers (backed true 1) 0 0 := by decide
theorem witness_ContextRowsRun_drained : (hportOf { rst with hports := [(127, { hbDrain := true })] } 127).hbDrain =
    true := by decide
def parked : State := due 0 blkLEVAIN 1 33554431 900 (ctx { c0 with rparked := [packet] })
theorem witness_ContextRowsRun_park : Due parked blkLEVAIN 1 33554431 0 ⟨900, blkLEVAIN, 1, 33554431⟩ ∧
    (Tbl.get? (parked.fireEvent 0 ⟨900, blkLEVAIN, 1, 33554431⟩).ctxs 33554431).map
      (fun c => c.parked.length + c.rparked.length) = some 1 := by decide
theorem witness_ContextRowsRun_charge : (due 34 blkLEVAIN 2 0 900 rst).pendingEvent 34 blkLEVAIN 2 0 =
      some ⟨900, blkLEVAIN, 2, 0⟩ ∧ ({ rst with chargeRetry := some 9 } : State).chargeRetry = some 9 := by decide
def nvq : NvQ := { base := 0, size := 4, handle := 33554431 }
def ctl : NvCtl := { port := 0, sel := 1, owner := 3, maxq := 2, mqes := 4, pin := 0, weight := 1, state := 1,
                     sqs := [(1, nvq)], cqs := [(1, nvq)] }
def nvme : State := { ctx c0 with ctls := [(1023, ctl)] }
theorem witness_NvmeRowsRun_bells : FuncAnswers nvme 0 1 ∧ ctlOf nvme 0 1 = some (1023, ctl) ∧ ctl.sq? 1 = some nvq ∧
    ctl.cq? 1 = some nvq ∧ (3#32).toNat < nvq.size ∧ ringDist 4 0 0 ≤ ringDist 4 0 3 ∧ ringDist 4 0 0 ≤ ringDist 4 0 0 ∧
    bits (0x4000#32).toNat 15 14 ≠ 0 ∧ bits (1#32).toNat 15 14 = 0 := by decide
def readyCtl : NvCtl := { ctl with sqs := [(1, { nvq with tail := 3, cq := 1 })] }
theorem witness_NvmeRowsRun_turn : ((Tbl.get? ({ nvme with ctls := [(1023, readyCtl)] } :
    State).ctls 1023).bind arbitrate).map
    Prod.fst = some 1 := by decide
def nvcmd (phase pieces : Nat) : NvCmd :=
  { token := 5, ctl := 1023, sq := 1, slot := 0, cid := 0, op := 1, nsid := 1, ns := 4095, ranges := [(0, 7)], sqe := [],
    phase := phase, pieces := pieces }
def storing (phase pieces st : Nat) : State :=
  { nvme with nvCmds := [nvcmd phase pieces], nss := [(4095, { data := [], state := st })] }
theorem witness_NvmeRowsRun_lock : (storing 0 0 1).nvCmds.find? (fun c => c.token == 5) = some (nvcmd 0 0) ∧
    blocked (storing 0 0 1) (nvcmd 0 0) = false ∧ (Tbl.get? (storing 0 0 1).nss 4095).map (fun n => n.state) = some 1 ∧
    (Tbl.get? (storing 0 0 0).nss 4095).map (fun n => n.state) ≠ some 1 ∧ (nvcmd 1 2).phase = 1 ∧
    2 ≤ (nvcmd 1 2).pieces := by decide
theorem witness_NvmeRowsRun_timers : Due (due 35 blkNVME 1 5 900 (storing 1 1 0)) blkNVME 1 5 35 ⟨900, blkNVME, 1, 5⟩ ∧
    ((due 35 blkNVME 1 5 900 (storing 1 1 0)).fireEvent 35 ⟨900, blkNVME, 1, 5⟩).nvCmds.find? (fun c => c.token == 5) =
      some (nvcmd 1 1) ∧ Due (due 35 blkNVME 2 8191 900 rst) blkNVME 2 8191 35 ⟨900, blkNVME, 2, 8191⟩ ∧
    Due (due 35 blkNVME 3 1023 900 rst) blkNVME 3 1023 35 ⟨900, blkNVME, 3, 1023⟩ := by decide
theorem witness_NvmeRowsRun_retry : ({ nvcmd 1 1 with timeoutRetry := some 40, timeout := some 50 } :
    NvCmd).timeoutRetry = some 40 := by decide
def job : Job := { qws := [0, 0, 0, 0], prio := 0, slot := 1048575 }
def engine (g : Engine) : State := { rst with engines := [(15, g)] }
theorem witness_CipherRowsRun_done : (engineOf (engine { run := some job }) 15).run = some job ∧
    (engine { run := some job }).faulted.contains (State.pk blkCIPHER 15) = false ∧ job.pipe = none ∧
    ({ job with pipe := some 31 } : Job).pipe.isSome = true := by decide
theorem witness_CipherRowsRun_fetch : (engine { queue := [{ job with fetching := true }] }).engines.any
    (fun g => g.2.queue.any (fun j => j.fetching && j.slot == (1048575#20).toNat)) = true ∧ rst.engines = [] := by decide

/-! ## Witnesses: harts, memory, meters -/

def hart : State := { rst with harts := [(1023, { running := true, kctrl := 3 })], cells := [(64, 2)],
                               tenants := [(3, { state := 1 })] }
def kw (mode : Fin 3) (a b : Dword) : KwIn :=
  { hart := 1023, mode := mode, rd := 31, rs1 := a, rs2 := b, pmpNo := false, badEnc := false, dt := 1, csrs := [] }
theorem witness_KweganRowsRun_hart : (hartOf (kwBefore (kw 2 0 0) hart) 1023).running = true ∧
    (kw 0 0 0).badEnc = false ∧ (kw 0 0 0).mode.val = 0 ∧
    bit (hartOf (kwBefore (kw 2 0 0) hart) 1023).kctrl.toNat ((kw 2 0 0).mode.val - 1) = true ∧
    (kw 1 0x1000 0).rs1.toNat % 32 = 0 := by decide
def fed : State := { hart with
  harts := [(1023, { running := true, ksub := [0x80000000] })]
  workqs := [(31, { cfg := 0x1201F, items := [[0, 0, 0, 0]] })] }
theorem witness_KweganRowsRun_get : (giveItem (chargeOut (endItem (kwBefore (kw 0 0 0) hart) 1023) 1023) 1023 0x1000 31).2 = false ∧
    (giveItem (chargeOut (endItem (kwBefore (kw 0 0 0) fed) 1023) 1023) 1023 0x1000 31).2 = true := by decide
theorem witness_KweganRowsRun_cells : ((allocCells (kwBefore (kw 0 0 0) hart) 39).map Prod.fst).isSome = true ∧
    (Tbl.get? (kwBefore (kw 0 0 0) hart).cells 64).isSome = true ∧
    (locksOf (ctx { c0 with lock := some (1023, 0) }) 1023).contains ((33554431#64).toNat % 2 ^ 25) = true := by decide
theorem witness_KweganRowsRun_timer : ((kwBefore (kw 0 0 0) (due 63 blkPROOFER 1 9 900 hart)).pendingEvent (32 + tileOf 1023) blkPROOFER 1
    ((9#64).toNat % 2 ^ 40)).isSome = true := by decide
def waiting : State := { rst with harts := [(1023, { running := true, wait := some (4096, 31, 800) })] }
theorem witness_KweganRowsRun_waits : (hartOf waiting 1023).wait = some (4096, 31, 800) ∧
    ({ c0 with lock := some (1023, 5) } : Ctx).lock = some (1023, 5) ∧ c0.lockOver = false := by decide
theorem witness_CoreRowsRun_release : ({ rst.boot with stage := 3 } : Boot).stage = 3 ∧ rst.flt.halt = false := by decide
def tile (n : Nat) : State := rst.setState blkTILE 31 n
theorem witness_CoreRowsRun_test : (tile 3).stateOf blkTILE 31 = 3 ∧ (tile 4).stateOf blkTILE 31 = 4 ∧
    (3#4).toNat ≤ 3 := by decide
def canaried : State := rst.wr TILE.TILE_CTRL 31 0x100
theorem witness_CoreRowsRun_canary : bit (canaried.rd TILE.TILE_CTRL 31) 8 = true := by decide
def ddr : State := (rst.wr64 MEMENC.DDR_USABLE 0 0x1000).setState blkHBMC 0 3
theorem witness_MemoryRowsRun_request : windowCtx (portLevel ddr 47 1023) 47 0x1000000000 = none ∧
    hubSram (portLevel ddr 47 1023) 47 0x1000000000 64 = false ∧
    controllerOf (portLevel ddr 47 1023) 0x1000000000 = some (false, 0) ∧
    spaceRow (portLevel ddr 47 1023) 0x80 = some (0x1000000000, 0x2800000000) ∧
    touchesSecure (portLevel ddr 47 1023) 0x1000000000 64 = false ∧ 3 ≤ (portLevel ddr 47 1023).stateOf blkHBMC 0 ∧
    ¬ (0x100000000 ≤ 0x1000000000 ∧ 0x1000000000 + 64 ≤ 0x10A000000) := by decide
theorem witness_MemoryRowsRun_ddr : controllerOf (portLevel ddr 7 0) 0x10000000000 = some (true, 0) ∧
    touchesSecure (portLevel ddr 7 0) 0x10000000FC0 64 = false := by decide
def swapping (r : List Nat) : State :=
  setMemCtl (rst.setState blkDDRC 7 4) true 7 { memCtlOf rst true 7 with swap := some 900, ranks := r }
theorem witness_MemoryRowsRun_swap : (memCtlOf (swapping [3]) true 7).swap = some 900 ∧
    (swapping [3]).stateOf (ctlBlk true) 7 = 4 ∧
    (memCtlOf (swapping [3]) true 7).ranks.contains (3#5).toNat = true ∧
    (setDel (memCtlOf (swapping [3]) true 7).ranks 3).isEmpty = true ∧
    (setDel (memCtlOf (swapping [3, 31]) true 7).ranks 3).isEmpty = false := by decide
def scrubbing : State := ((rst.setState blkDDRC 7 3).setState blkHBMC 3 3)
theorem witness_MemoryRowsRun_scrub : 3 ≤ scrubbing.stateOf (ctlBlk true) 7 ∧
    (scrubbing.wr DDRC.SCRUB_PERIOD 7 1).rd DDRC.SCRUB_PERIOD 7 ≠ 0 ∧
    3 ≤ scrubbing.stateOf (ctlBlk false) 3 ∧ (scrubbing.wr HBMC.SCRUB_PERIOD 3 1).rd HBMC.SCRUB_PERIOD 3 ≠ 0 := by decide
theorem witness_MeterRowsRun_refill : (due 63 blkMETER 1 0 900 rst).pendingEvent (32 + 31) blkMETER 1 0 =
    some ⟨900, blkMETER, 1, 0⟩ ∧
    Tbl.get? ({ rst.met with refillRetry := [(31, 50)] } : Meters).refillRetry 31 = some 50 := by decide
def sealed : Staged := { minute := 1, slices := [], sealRec := [0, 0, 0, 0, 0, 0, 0, 0] }
theorem witness_MeterRowsRun_seal : ({ rst.met with due := [⟨1, 60, false, false, [], false⟩] } : Meters).due =
    ⟨1, 60, false, false, [], false⟩ :: [] ∧
    rst.dax.debug = false ∧ [sealed].find? (fun m => !m.signed) = some sealed := by decide
theorem witness_MeterRowsRun_cons : WriteReaches (rst.wr SLICE.RING_PROD 0 4) .ctrlA blkSLICE 0 ∧
    ((4#32).toNat + 2 ^ 32 - (rst.wr SLICE.RING_PROD 0 4).rd SLICE.RING_CONS) % 2 ^ 32 ≤
      ((rst.wr SLICE.RING_PROD 0 4).rd SLICE.RING_PROD + 2 ^ 32 - (rst.wr SLICE.RING_PROD 0 4).rd SLICE.RING_CONS) % 2 ^ 32 := by decide

/-! ## Witnesses: the twin pair -/

/-- A pair in a state, link 15 in a state. -/
def pair (st k : Nat) : State := setLink ((on rst blkTWIN 0).setState blkTWIN 0 st) 15 { stat := k }
/-- A good flit on link 15: one MIRROR record, MSEQ 1, that writes a total. -/
def flit (pl : List Dword) : Flit :=
  let f : Flit := { link := 15, channel := 1, replay := false, nak := false, ackOk := false, seq := 0, ackSeq := 0,
                    crCh := 0,
                    crN := 0, payload := pl, crc := 0 }
  { f with crc := flitCrc (flitHeaderOf f) pl }
def recordFlit : Flit := flit [0x1000106, 0, 0x1000000]
theorem witness_TwinRowsRun_ident : pairState (pair 1 2) ≠ 0 ∧ (linkOf (pair 1 2) 15).stat = 2 ∧
    (15#4).toNat = (15 : Fin 16).val ∧ b2n true ≠ rank (pair 1 2) ∧ (linkOf (pair 1 4) 15).stat = 4 := by decide
theorem witness_TwinRowsRun_flit : (linkOf (pair 3 3) 15).stat ≠ 0 ∧ flitGood recordFlit = true ∧
    sequenced recordFlit.channel.toNat = true ∧ (linkOf (takeHeader (pair 3 3) recordFlit) 15).stat = 3 ∧
    recordFlit.seq = (linkOf (takeHeader (pair 3 3) recordFlit) 15).rxSeq := by decide
theorem witness_TwinRowsRun_accept : (acceptFlit (pair 3 3) recordFlit).2 = true ∧
    pairState (acceptFlit (pair 3 3) recordFlit).1 = 3 := by decide
theorem witness_TwinRowsRun_record :
    (applyTurn ((recordsOf 30 recordFlit.payload).foldl takeRecord (acceptFlit (pair 3 3) recordFlit).1).twin.early.length
      ((recordsOf 30 recordFlit.payload).foldl takeRecord (acceptFlit (pair 3 3) recordFlit).1)).twin.mseqRx ≠
    (acceptFlit (pair 3 3) recordFlit).1.twin.mseqRx := by decide
def paired : State := (pair 3 3).wr TWIN.PORT_PAIR 0 0x8000007F 127
theorem witness_TwinRowsRun_pair : pairState (pair 2 3) = 2 ∧ pairState (pair 3 3) = 3 ∧
    localPort paired (127#7).toNat = some 127 ∧ pairState paired = 3 := by decide
theorem witness_TwinRowsRun_time : (linkOf ((pair 3 3).pass 9) 15).stat = 3 ∧ rank (hear ((pair 3 3).pass 9) 15) = 0 ∧
    rank (hear (((pair 3 3).wr TWIN.PAIR_CFG 0 2).pass 9) 15) ≠ 0 ∧ rank (pair 3 3) = 0 := by decide
theorem witness_TwinRowsRun_beat : (bits (0x20#64).toNat 7 4 = 2 ∧ bits (0x20#64).toNat 11 8 ≠ 3) ∧
    ¬ ((bits (0x320#64).toNat 7 4 = 2 ∨ bits (0x320#64).toNat 7 4 = 3) ∧ bits (0x320#64).toNat 11 8 ≠ 3) := by decide
theorem witness_TwinRowsRun_takeover : (linkOf (pair 3 1) 15).stat ≠ 0 ∧ pairState (hear (pair 3 1) 15) = 3 ∧
    (hear (pair 3 1) 15).twin.sentTake = false := by decide
/-- The state at the loss of the heartbeat. -/
def lost (s : State) : State :=
  setTwin (reachBref s (s.twin.lastHeard + s.rd TWIN.HB_LOSS))
    (fun t => { t with links := Tbl.mapV t.links (fun _ k => { k with heard := false }) })
def heard (st : Nat) (stopped : Bool) : State :=
  setTwin (setLink (pair st 3) 15 { stat := 3, heard := true }) (fun t => { t with liveStopped := stopped })
theorem witness_TwinRowsRun_loss : (heard 1 true).twin.links.any (fun k => k.2.heard) = true ∧
    pairState (lost (heard 1 true)) ≠ 3 ∧
    pairState (lost (heard 3 true)) = 3 ∧ (lost (heard 3 true)).twin.liveStopped = true ∧
    pairState (lost ((heard 3 false).wr TWIN.PAIR_CFG 0 2)) = 3 ∧ (heard 3 false).twin.liveStopped = false ∧
    rank (lost ((heard 3 false).wr TWIN.PAIR_CFG 0 2)) ≠ 0 := by decide
def powerOn : State := { rst with pwr := { rst.pwr with pwrgood := true } }
theorem witness_TwinRowsRun_bulk : powerOn.pwr.pwrgood = true ∧ powerOn.pwr.held = false ∧
    pairState (pair 2 3) = 2 ∧ (pair 2 3).twin.bulkMine = false ∧
    (pair 2 3).twin.links.any (fun k => k.2.queued.any (fun q => q.1 == 5)) = false := by decide
def handing : State := setTwin (run blkTWIN 0 0x02 127 true { paired with ctxs := [(5, { c0 with port := 127 })] })
  (fun t => { t with taken := [5], handing := [127] })
theorem witness_TwinRowsRun_drained : ((waitingCmd handing blkTWIN 0 0x02).map (fun r => r.arg0.toNat % 128)) =
    some (127#7).toNat ∧
    pairState handing = 3 ∧ quiet handing (takenOf handing (127#7).toNat) = true ∧
    takenOf handing (127#7).toNat = [5] := by decide

/-! ## Witnesses: boot, trust, faults, supplies -/

def rising (ch mv : Nat) : State :=
  { rst with pwr := { rst.pwr with cycled := false, railMv := [(ch, mv)] } }
theorem witness_BootRowsRun_rise : (rising 31 713).pwr.pwrgood = false ∧ (rising 31 713).flt.haltSealed = false ∧
    (rising 31 713).pwr.cycled = false ∧ railsLow (rising 31 713) = false ∧ railsLow (rising 31 712) = true := by decide
def heldDown : State := { rst with pwr := { rst.pwr with held := true, clearAt := some 7 } }
theorem witness_BootRowsRun_power : heldDown.pwr.clearAt = some 7 ∧ heldDown.pwr.held = true ∧ powerOn.pwr.pwrgood = true ∧
    powered powerOn = true := by decide
def loading (src : Nat) (open_ : Bool) : State :=
  { powerOn with flt := { powerOn.flt with started := true },
                 boot := { powerOn.boot with source := src, slot := 3, pushOpen := open_ } }
theorem witness_BootRowsRun_block : booting (loading 2 false) = true ∧ (2#3).toNat = (loading 2 false).boot.source ∧
    (loading 2 false).boot.pushOpen = false ∧ (true = ((loading 2 false).boot.slot % 2 == 1)) ∧ (0#3).toNat = 0 ∧
    (3#3).toNat ≠ 0 := by decide
theorem witness_BootRowsRun_waits : (loading 4 true).boot.pushOpen = true ∧ (loading 4 true).flt.halt = false ∧
    (loading 4 true).flt.started = true ∧ booting (loading 5 false) = true ∧ (loading 5 false).boot.source = 5 ∧
    (loading 5 false).boot.manifest = [] := by decide
def spdm (n : Nat) : State :=
  { host with boot := { host.boot with stage := 1 }, dax := { host.dax with spdm := [(0, n)], attested := true } }
theorem witness_BootRowsRun_spdm : doeUp (spdm 3) 0 = true ∧ 3 ≤ spdmAt (spdm 3) 0 ∧ (spdm 3).dax.attested = true ∧
    (List.replicate 32 (7 : Byte)).length = 32 ∧ 1 ≤ (7#8).toNat ∧ (7#8).toNat ≤ 7 := by decide
def page (blk : Nat) (inst : BitVec 9) : PageRef := { blk := BitVec.ofNat 8 blk, inst := inst }
def recovering (direct : Bool) : State := setUnit rst (State.pk blkCIPHER 15) { state := 1, direct := direct }
theorem witness_FaultRowsRun_reset : (page blkCIPHER 15).inst.toNat < pageCount (page blkCIPHER 15).blk.toNat ∧
    (page blkCIPHER 15).blk.toNat ≠ blkOCTET ∧ (unitOf (recovering true) (State.pk blkCIPHER 15)).state = 1 ∧
    (unitOf (recovering true) (State.pk blkCIPHER 15)).waitQ = false ∧
    (unitOf (recovering true) (State.pk blkCIPHER 15)).direct = true ∧
    (unitOf (recovering false) (State.pk blkCIPHER 15)).direct = false := by decide
def quieted : State := setUnit rst (State.pk blkCIPHER 15) { state := 2, quiet := some 900 }
theorem witness_FaultRowsRun_quiet : (unitOf quieted (State.pk blkCIPHER 15)).quiet = some 900 ∧
    (openRec (quieted.reach 900) (State.pk blkCIPHER 15)).bind (fun r => r.after) = none := by decide
def escalated : State := rst.wr FAULT.ESC_STAT 0 0x101
theorem witness_FaultRowsRun_escalator : ({ rst.flt with haltSealed := true } : Faults).haltSealed = true ∧
    escalated.flt.haltSealed = false ∧ bit (escalated.rd FAULT.ESC_STAT) 0 = true := by decide
def testing : State :=
  { rst with pwr := { rst.pwr with straps := 8 }, flt := { rst.flt with pulseEnd := some 10000 } }
theorem witness_FaultRowsRun_writes : WriteReaches rst .ctrlA blkFAULT 0 ∧ rst.flt.pulseEnd = none ∧
    testing.flt.pulseEnd = some 10000 ∧ testMode testing = true ∧ bit (0x80000001#32).toNat 31 = true ∧
    fsnValid ((0x80000001#32).toNat % 4096) = true ∧
    ((0#32).toNat + 2 ^ 32 - rst.rd FAULT.LOG_CONS) % 2 ^ 32 ≤
    (rst.rd FAULT.LOG_PROD + 2 ^ 32 - rst.rd FAULT.LOG_CONS) % 2 ^ 32 ∧
    WriteReaches testing .ctrlA blkFAULT 0 := by decide
theorem witness_SupplyRowsRun_low : (railRead powerOn 31 712).pwr.pwrgood = true ∧
    (railRead powerOn 31 712).pwr.held = false ∧
    railLow (railRead powerOn 31 712) 31 = true ∧ railLow powerOn 31 = false ∧
    ((railRead powerOn 31 712).bumpErr blkPWR 0 0).stateOf blkPWR 0 ≠ 2 := by decide
def browned : State := (railRead powerOn 31 712).setState blkPWR 0 2
theorem witness_SupplyRowsRun_up : railsLow (railRead browned 31 713) = false ∧
    (railRead browned 31 713).stateOf blkPWR 0 = 2 ∧
    ({ browned.pwr with holdEnd := some 5 } : Power).holdEnd = some 5 ∧ rst.rd MGMT.GPIO_IN ≠ (255#8).toNat := by decide

/-! ## Witnesses: page commands, registers, tables -/

/-- A state in which a page takes a command and serves it. -/
abbrev Ready (c : CmdIn) (blk : Nat) (s : State) : Prop :=
  TakesCommand s c.who blk c.inst.toNat ∧ Serves s blk c.inst.toNat ∧ PlainCommand c ∧ c.defer = false ∧
    (blk = blkTWIN → c.inst.toNat = 0)
theorem witness_TimeCommandsRun : Ready (cmd 0) blkRTIME (on rst blkRTIME 0) ∧ Ready (cmd 63) blkCAL (on rst blkCAL 63) ∧
    Ready (cmd 127) blkOCTET (on rst blkOCTET 127) := by decide
theorem witness_HostCommandsRun : Ready (cmd 126) blkHPORT (on (oct rst 119 1) blkHPORT 126) ∧
    Ready (cmd 15) blkWINDOW (on rst blkWINDOW 15) := by decide
theorem witness_QueueCommandsRun : Ready (cmd 126) blkQMGR (on (oct rst 119 1) blkQMGR 126) ∧
    Ready (cmd 255) blkDMA (on rst blkDMA 255) := by decide
theorem witness_PipelineCommandsRun : Ready (cmd 31) blkPARSE (on rst blkPARSE 31) ∧
    Ready (cmd 0) blkFRAG (on rst blkFRAG 0) ∧
    Ready (cmd 31) blkCLASS (on rst blkCLASS 31) ∧ Ready (cmd 31) blkSPREAD (on rst blkSPREAD 31) := by decide
theorem witness_TableCommandsRun : Ready (cmd 63) (tableBlk .htbl) (on rst blkHTBL 63) ∧
    Ready (cmd 31) (tableBlk .tcam) (on rst blkTCAM 31) ∧ Ready (cmd 0) (tableBlk .flow) (on rst blkFLOW 0) ∧
    Ready (cmd 0) (tableBlk .learn) (on rst blkLEARN 0) := by decide
theorem witness_RdmaCommandsRun : Ready (cmd 31) blkRDMA (on rst blkRDMA 31) ∧
    Ready (cmd 0) blkLEVAIN (on rst blkLEVAIN 0) := by
  decide
theorem witness_StorageCommandsRun : Ready (cmd 0) blkNVME (on rst blkNVME 0) ∧
    Ready (cmd 0) blkRLOCK (on rst blkRLOCK 0) := by
  decide
theorem witness_CipherCommandsRun : Ready (cmd 15) blkCIPHER (on rst blkCIPHER 15) ∧
    Ready (cmd 0) blkKEYS (on rst blkKEYS 0) ∧
    Ready (cmd 127) blkMACSEC (on (oct rst 127 3) blkMACSEC 127) := by decide
theorem witness_CoreCommandsRun : Ready (cmd 0) blkPROOFER (on rst blkPROOFER 0) ∧
    Ready (cmd 31) blkTILE (on rst blkTILE 31) ∧
    Ready (cmd 63) blkCLUSTER (on rst blkCLUSTER 63) ∧ Ready (cmd 0) blkMEMENC (on rst blkMEMENC 0) := by decide
theorem witness_CoreCommandsRun_memory : Ready (cmd 7) (ctlBlk true) (on rst blkDDRC 7) ∧
    Ready (cmd 3) (ctlBlk false) (on rst blkHBMC 3) := by decide
theorem witness_TenantCommandsRun : Ready (cmd 0) blkTENANT (on rst blkTENANT 0) ∧
    Ready (cmd 31) blkMETER (on rst blkMETER 31) ∧
    Ready (cmd 0) blkTWIN (on rst blkTWIN 0) := by decide
theorem witness_TrustCommandsRun : Ready (cmd 0) blkBOOT (on rst blkBOOT 0) ∧ Ready (cmd 0) blkDAXLIA (on rst blkDAXLIA 0) ∧
    Ready (cmd 0) blkFAULT (on rst blkFAULT 0) ∧ Ready (cmd 0) blkMGMT (on rst blkMGMT 0) := by decide

theorem witness_StepRunsFront : ({ rst with pending := [.powerCycle, .twinLiveInEdge 1] } : State).pending =
    .powerCycle :: [.twinLiveInEdge 1] := by decide
/-- Rack time a step before its end. -/
def lastNs : State := { rst with now := 2 ^ 80 - 1 }
theorem witness_StepIdles : rst.pending = [] ∧ (rst.pass 1).ns < 2 ^ 64 ∧ 2 ^ 64 ≤ (lastNs.pass 1).ns := by decide
theorem witness_OnlyEndOfTimeStops : ∀ t, step lastNs ≠ .next t := by
  have h : (match step lastNs with | .next _ => true | _ => false) = false := by decide
  intro t ht; rw [ht] at h; cases h
theorem witness_RestKept : ∃ t, step rst = .next t := ⟨_, rfl⟩
def busy : State := run blkCAL 63 0x03 0 true rst
theorem witness_BusyPageCounts : (pageRow busy (.cancel (cmd 63))).isSome = true ∧ WriteReaches busy (cmd 63).who blkCAL 63 ∧
    (Tbl.get? busy.running (State.pk blkCAL 63)).isSome = true := by decide
/-- ACCESS leaves control port A nothing of the block type. -/
def barred (blk : Nat) : State := rst.wr HUB.ACCESS 0 0 (blk % 256)
theorem witness_DeniedCommandEnds : (pageRow (barred blkTILE) (.selftest (cmd 31))).isSome = true ∧
    cfInReset (barred blkTILE) (cmd 31).who = none ∧ (cmd 31).inst.toNat < pageCount blkTILE ∧
    mayWrite (barred blkTILE) (cmd 31).who blkTILE = false ∧
    Tbl.get? (barred blkTILE).running (State.pk blkTILE 31) = none := by decide
theorem witness_UnpopulatedCommandCounts : pageRow rst (.selftest (cmd 32)) = some (blkTILE, 1, cmd 32) ∧
    cfInReset rst (cmd 32).who = none ∧ pageCount blkTILE ≤ (cmd 32).inst.toNat := by decide
def faulty : State := { on rst blkCAL 63 with faulted := [State.pk blkCAL 63] }
theorem witness_EntryRefusals_plain : TakesCommand rst (cmd 63).who blkCAL 63 ∧
    ¬ PlainCommand { cmd 63 with hi := 0x10000 } ∧ PlainCommand (cmd 63) ∧ TakesCommand rst (cmd 15).who blkTWIN 15 ∧
    PlainCommand (cmd 15) := by decide
theorem witness_EntryRefusals_page : TakesCommand faulty (cmd 63).who blkCAL 63 ∧
    faulty.faulted.contains (State.pk blkCAL 63) = true ∧ rst.faulted.contains (State.pk blkCAL 63) = false ∧
    rst.enabled blkCAL 63 = false ∧ (on rst blkEMAC 127).enabled blkEMAC 127 = true ∧
    pageActive (on rst blkEMAC 127) blkEMAC 127 = false := by decide
theorem witness_RunningCommandShowsBusy : TakesCommand rst (cmd 63).who blkCAL 63 ∧
    ({ cmd 63 with defer := true } : CmdIn).defer = true := by
  decide
theorem witness_CommandEndShows : (Tbl.get? busy.running (State.pk blkCAL 63)).isSome = true ∧
    (List.replicate 8 (7 : Dword)).length = 8 := by decide
/-- Addresses within the Control Function's BAR0 (R47). -/
theorem witness_RefusedWritesCount : (0x00C20008#29).toNat / 2097152 = 6 ∧ cfInReset rst .ctrlA = none ∧
    pageCount 6 ≤ (0x00C40008#29).toNat / 4096 % 512 ∧ (0x00C20008#29).toNat / 4096 % 512 < pageCount 6 ∧
    (0x00C20009#29).toNat % 4 ≠ 0 ∧ (0x00C20008#29).toNat % 4096 ≠ 0x20 ∧ mayWrite (barred 6) .ctrlA 6 = false ∧
    cfInReset (barred 6) .ctrlA = none := by decide
theorem witness_RegisterAddresses : WriteReaches rst .ctrlA (0x24#8).toNat (31#9).toNat ∧ (0xFFC#12).toNat % 4 = 0 ∧
    (0xFFC#12).toNat ≠ 0x20 ∧ WriteReaches rst .ctrlA blkRTIME 0 := by decide
def staging (p : Nat) : State := (on rst blkOCTET 127).wr OCTET.PERS_CTRL 127 p
theorem witness_PositionsAdmit : TakesCommand (staging 1) (cmd 127).who blkOCTET 127 ∧ Serves (staging 1) blkOCTET 127 ∧
    (staging 1).stateOf blkOCTET 127 ≤ 1 ∧ persIn ((staging 1).rd OCTET.PERS_CTRL 127) ≠ 0 ∧
    posOk (127 % 16) (persIn ((staging 1).rd OCTET.PERS_CTRL 127)) = false := by decide
theorem witness_CalendarOrder : (due 63 blkCAL 1 9 900 rst).calNext 63 = some ⟨900, blkCAL, 1, 9⟩ ∧
    ((due 63 blkCAL 1 9 900 rst).slice 62).chip ++ ((due 63 blkCAL 1 9 900 rst).slice 62).spill = [] := by decide
theorem witness_ReferenceWritesRejected : WriteReaches rst .ctrlA blkRTIME 0 ∧ RTIME.STEP_THRESH ∈
    [RTIME.STEP_THRESH, RTIME.PPS_OUT_WIDTH, RTIME.PPS_OUT_OFFSET] := by decide
theorem witness_HashSteps : (hartOf (kwBefore (kw 2 0 0) hart) 1023).running = true ∧ (kw 2 0 0).badEnc = false ∧
    (List.replicate 40 (7 : Byte)).length = 40 ∧ (List.replicate 36 (9 : Byte)).length ≤ 36 := by decide

/-! ## Ill-formed commands are refused -/

/-- A command whose data does not fit the data window. -/
def long : CmdIn := { cmd 0 with data := List.replicate 9 0 }
theorem test_ill_formed_command : WellFormed (.up long) = false ∧ WellFormed (.up (cmd 0)) = true := by decide
theorem test_ill_formed_flit : WellFormed (.linkFlitRx (flit (List.replicate 31 0))) = false ∧
    WellFormed (.linkFlitRx recordFlit) = true := by decide
theorem test_ill_formed_sqe : WellFormed (.nvmeFlush 0 0 [0]) = false ∧ WellFormed (.nvmeFetchTurn 0 [[0]]) = false ∧
    WellFormed (.nvmeFlush 0 0 (List.replicate 8 0)) = true := by decide
theorem test_ill_formed_offsets : WellFormed (.octetCalComplete 0 0 []) = false := by decide
theorem test_ill_formed_credits : WellFormed (.identRx 0 0 false 0 [1]) = false := by decide
theorem test_ill_formed_nonce : WellFormed (.challenge 0 0 [1]) = false ∧ WellFormed (.getMeasurements 0 1 [1]) = false ∧
    WellFormed (.getMeasurements 0 1 []) = true := by decide
theorem test_ill_formed_sample : WellFormed (.thermalSample [none]) = false := by decide
theorem test_ill_formed_lengths : WellFormed (.windowTlpRx 0 0 0 none false) = false ∧
    WellFormed (.dportInboundRequest 0 0 0 0 none) = false := by decide

/-! ## Commands accepted and refused -/

/-- What PG_CMD_STAT reads after a step. -/
def cmdStat (blk inst : Nat) (o : Host.Outcome State Fault Refusal) : Nat :=
  match o with
  | .next t => headerReg t blk inst 0x24
  | _ => 0
/-- A command with an argument and data. -/
def arg (n : Nat) (d : List Dword) : CmdIn := { cmd 0 with arg0 := some (BitVec.ofNat 32 n), data := d }

theorem test_arm_seals : cmdStat blkRTIME 0 (exec (.armSeals (cmd 0)) (on rst blkRTIME 0)) = 0x10200 := by decide
theorem test_cancel_unit_zero : cmdStat blkCAL 0 (exec (.cancel (cmd 0)) (on rst blkCAL 0)) = 0x10202 := by decide
theorem test_down : cmdStat blkOCTET 0 (exec (.down (cmd 0)) (on (oct rst 0 1) blkOCTET 0)) = 0x10200 := by decide
theorem test_up_twice : cmdStat blkOCTET 0 (exec (.up (cmd 0)) (on (oct rst 0 1) blkOCTET 0)) = 0x10147 := by decide
theorem test_vf_alloc : cmdStat blkHPORT 0 (exec (.vfAlloc (cmd 0)) (on (oct rst 0 1) blkHPORT 0)) = 0x10100 := by decide
theorem test_vf_alloc_other_personality : cmdStat blkHPORT 0 (exec (.vfAlloc (cmd 0)) (on rst blkHPORT 0)) = 0x10104 := by
  decide
theorem test_win_commit : cmdStat blkWINDOW 0 (exec (.windowCommit (cmd 0)) (on rst blkWINDOW 0)) = 0x10300 := by decide
theorem test_q_query_none : cmdStat blkQMGR 0 (exec (.qQuery (cmd 0)) (on (oct rst 0 1) blkQMGR 0)) = 0x10641 := by decide
theorem test_node_write : cmdStat blkPARSE 0 (exec (.nodeWrite (cmd 0)) (on rst blkPARSE 0)) = 0x10100 := by decide
theorem test_keyprof_write : cmdStat blkCLASS 0 (exec (.keyprofWrite (cmd 0)) (on rst blkCLASS 0)) = 0x10100 := by decide
theorem test_arec_zero : cmdStat blkCLASS 0 (exec (.arecRead (arg 0 [])) (on rst blkCLASS 0)) = 0x11302 := by decide
theorem test_vport_write : cmdStat blkSPREAD 0 (exec (.vportWrite (cmd 0)) (on (oct rst 0 1) blkSPREAD 0)) =
    0x10500 := by decide
theorem test_tquota_write : cmdStat blkLEVAIN 0 (exec (.tquotaWrite (cmd 0)) (on rst blkLEVAIN 0)) = 0x10100 := by decide
theorem test_bkq_write : cmdStat blkNVME 0 (exec (.bkqWrite (cmd 0)) (on rst blkNVME 0)) = 0x10900 := by decide
theorem test_key_stage : cmdStat blkKEYS 0 (exec (.keyStage (cmd 0)) (on rst blkKEYS 0)) = 0x10100 := by decide
theorem test_qcfg_read : cmdStat blkPROOFER 0 (exec (.qcfgRead (cmd 0)) (on rst blkPROOFER 0)) = 0x10200 := by decide
theorem test_hart_reset : cmdStat blkCLUSTER 0 (exec (.hartReset (cmd 0)) (on rst blkCLUSTER 0)) = 0x10100 := by decide
theorem test_train_start : cmdStat blkDDRC 0 (exec (.trainStart true (cmd 0)) (on rst blkDDRC 0)) = 0x10100 := by decide
theorem test_tenant_open : cmdStat blkTENANT 0 (exec (.tenantOpen (arg 1 [])) (on rst blkTENANT 0)) = 0x10100 := by decide
theorem test_mtr_read : cmdStat blkMETER 0 (exec (.mtrRead (cmd 0)) (on rst blkMETER 0)) = 0x10100 := by decide
theorem test_leave_unpaired : cmdStat blkTWIN 0 (exec (.leave (cmd 0)) (on rst blkTWIN 0)) = 0x10140 := by decide
theorem test_jtag_unlock_unchallenged : cmdStat blkDAXLIA 0 (exec (.jtagUnlock (cmd 0)) (on rst blkDAXLIA 0)) =
    0x10443 := by decide
theorem test_sev_read : cmdStat blkFAULT 0 (exec (.sevRead (arg 5 [])) (on rst blkFAULT 0)) = 0x10200 := by decide
theorem test_lane_cal_waits : cmdStat blkRTIME 0 (exec (.laneCal (cmd 0)) (on (oct rst 0 1) blkRTIME 0)) =
    0x80010100 := by decide

/-- KSUB and KCTRL as a hart in M mode writes them (R322). -/
theorem test_csr_writes : ((hartOf (kwBefore { kw 0 0 0 with csrs := [(0x7C1, some 4), (0x7C4, some 7)] } hart) 1023).ksub,
    (hartOf (kwBefore { kw 0 0 0 with csrs := [(0x7C1, some 4), (0x7C4, some 7)] } hart) 1023).kctrl) =
    ([0, 4, 0, 0], 3) := by
  decide
theorem test_csr_read_only : (kwBefore { kw 0 0 0 with csrs := [(0xCC2, some 4)] } hart).out =
    [.hartTrap 1023 2] := by decide

/-! ## The manual's own numbers -/

/-- PG_CMD of TCAM 5 (R47). -/
theorem test_address : State.addr (0x24, 0x20) 5 0 = 0x04805020 := by decide
/-- PG_FSRC_BASE of HTBL 7 (R471). -/
theorem test_fsrc_base : headerReg rst blkHTBL 7 0x1C = 0x00040391 := by decide
/-- HTBL 7 is the page of its fault sources (R424, R471). -/
theorem test_fsn : (fsnPage 0x391).map (fun p => (p.1, p.2.1)) = some (blkHTBL, 7) := by decide
/-- Hart 0x27B stands in tile 19 and cluster 39 (R4). -/
theorem test_hart : tileOf 0x27B = 19 ∧ clusterOf 0x27B = 39 := by decide

/-! ## What a table holds is read back -/

/-- A table command's arguments. -/
def tbl (inst a0 a1 : Nat) (q : Dword) : CmdCtx :=
  { blk := blkCLASS, inst := inst, who := .ctrlA, a0 := a0, a1 := a1, d := [q, 0, 0, 0, 0, 0, 0, 0], env := [] }
theorem witness_PipelineTablesReadBack : (tbl 31 1 0 0).d.length = 8 ∧ (cmdKeyprofWrite (tbl 31 63 0 7) rst).res = 0 ∧
    (cmdRangeWrite (tbl 31 255 0 87) rst).res = 0 ∧ (cmdArecWrite (tbl 31 65535 0 4) rst).res = 0 ∧
    (cmdTmplWrite (tbl 31 16383 0 120) rst).res = 0 ∧ (cmdTmplWrite (tbl 31 16383 1 120) rst).res = 0 ∧
    (cmdHprofWrite (tbl 31 15 0 7) rst).res = 0 ∧ (cmdTkeyWrite (tbl 31 0x80000FFF 0 7) rst).res = 0 ∧
    (cmdVportWrite (tbl 0 0x3FF0000 0 7) (oct rst 0 1)).res = 0 := by decide
theorem witness_ReadCommandsFrame : TakesCommand rst (cmd 63).who blkCAL (cmd 63).inst.toNat ∧
    State.addr (blkCAL, 0x80) 63 0 / 4096 = State.pk blkCAL 63 ∧ 0x80 ≤ State.addr (blkCAL, 0x80) 63 0 % 4096 := by decide
theorem witness_PipelineWritesFrame : TakesCommand rst (cmd 31).who blkCLASS (cmd 31).inst.toNat ∧
    State.addr (blkSPREAD, 0x20) 31 0 / 4096 ≠ State.pk blkCLASS 31 := by decide
theorem witness_ErrorCountersSaturate : (31 : Nat) < 32 ∧ (511 : Nat) < 512 ∧
    State.addr (blkCAL, 0x80) 0 0 ≠ State.addr (blkCAL, 0x84) 0 0 := by decide
theorem witness_InboundWriteStores : persOf dev 12 = 2 ∧ (Tbl.getD dev.octUp 12 []).contains 3 = true ∧ (3 : Nat) < 4 ∧
    (inbound dev 12 3 3).1 ≤ (0x1000001FFE#64).toNat ∧
    (0x1000001FFE#64).toNat + [7, 8].length ≤ (inbound dev 12 3 3).2 + 1 ∧
    devAny dev (0x1000001FFE#64).toNat [7, 8].length = 0 := by decide

end Sys2Proof.Tests
end

section
/-! PROOFS. Counting of errors, what an inbound write of a downstream device stores, and the register rows: accesses on the
register bus, the header, the interrupt hub (R7, R8, R47 to R55, R63 to R66, R84, R456). -/

namespace Sys2Proof.Machine

/-! ## Header registers after a write of one of them (R51) -/

namespace State

theorem rdA_hdw_other (s : State) (b i o v : Nat) {a : Nat} (h : a ≠ addr (b, o) i 0) :
    (s.hdw b i o v).rdA a = s.rdA a :=
  rdA_wrA_other s _ h

theorem hd_hdw_other (s : State) (b i v : Nat) {o p : Nat} (h : p ≠ o) : (s.hdw b i o v).hd b i p = s.hd b i p :=
  rd_wr_other s (b, o) (b, p) i i v 0 0 (by simp only [addr]; omega)

theorem rdA_istat_other (s : State) (b i n : Nat) {a : Nat} (h : a ≠ addr (b, 0x10) i 0) :
    (s.istat b i n).rdA a = s.rdA a :=
  rdA_hdw_other s b i 0x10 _ h

theorem hd_istat_other (s : State) (b i n : Nat) {p : Nat} (h : p ≠ 0x10) : (s.istat b i n).hd b i p = s.hd b i p :=
  hd_hdw_other s b i _ h

/-! ## Error counters (R7, R54) -/

/-- Counting writes the saturated sum, and at most sets a bit of PG_ISTAT beside it. -/
theorem bumpErr_cases (s : State) (b i n k : Nat) :
    let t := s.hdw b i (0x80 + 4 * n) (min 4294967295 (s.hd b i (0x80 + 4 * n) + k))
    s.bumpErr b i n k = t ∨ s.bumpErr b i n k = t.istat b i 28 := by
  have sat : ∀ x : Nat, (if x ≥ 4294967295 then 4294967295 else x) = min 4294967295 x := fun _ => rfl
  unfold bumpErr
  simp only [sat]
  split
  · exact .inr rfl
  · exact .inl rfl

theorem hd_bumpErr_self (s : State) (b i n k : Nat) :
    (s.bumpErr b i n k).hd b i (0x80 + 4 * n) = min 4294967295 (s.hd b i (0x80 + 4 * n) + k) := by
  have fits : min 4294967295 (s.hd b i (0x80 + 4 * n) + k) % 4294967296 =
      min 4294967295 (s.hd b i (0x80 + 4 * n) + k) := by omega
  rcases bumpErr_cases s b i n k with e | e
  · rw [e, hd_hdw_self, fits]
  · rw [e, hd_istat_other _ _ _ _ (by omega), hd_hdw_self, fits]

theorem rdA_bumpErr_other (s : State) (b i n k : Nat) {a : Nat} (hc : a ≠ addr (b, 0x80 + 4 * n) i 0)
    (hi : a ≠ addr (b, 0x10) i 0) : (s.bumpErr b i n k).rdA a = s.rdA a := by
  rcases bumpErr_cases s b i n k with e | e
  · rw [e, rdA_hdw_other _ _ _ _ _ hc]
  · rw [e, rdA_istat_other _ _ _ _ hi, rdA_hdw_other _ _ _ _ _ hc]

end State

/-- Settles O48: the counter from `hd_bumpErr_self`, the other registers from `rdA_bumpErr_other`. -/
theorem errorCountersSaturate : Obligations.ErrorCountersSaturate := by
  intro s blk inst n k _ _
  exact ⟨State.hd_bumpErr_self s blk inst n k, State.still_bumpErr s blk inst n k, State.bumpErr_mem s blk inst n k,
    State.bumpErr_out s blk inst n k, fun _ hc hi => State.rdA_bumpErr_other s blk inst n k hc hi⟩

/-! ## Inbound writes of a downstream device (R84, R87) -/

/-- A write that lies within an open window and in one open row of the memory map is a store of its bytes. -/
theorem inboundRequest_stores {s : State} {o k addr w : Nat} (len : Nat) {bs : List Byte} (hd : persOf s o = 2)
    (hup : (Tbl.getD s.octUp o []).contains k = true) (hw : w < 4) (hlo : (inbound s o k w).1 ≤ addr)
    (hhi : addr + bs.length ≤ (inbound s o k w).2 + 1) (hdev : devAny s addr bs.length = 0) :
    inboundRequest o k addr len (some bs) s = s.memPut addr bs := by
  have hit : (List.range 4).any (fun w => decide ((inbound s o k w).1 ≤ addr) &&
      decide (addr + bs.length ≤ (inbound s o k w).2 + 1)) = true :=
    List.any_eq_true.2 ⟨w, List.mem_range.2 hw, by simp only [hlo, hhi, decide_true, Bool.and_self]⟩
  unfold inboundRequest
  simp only [hd, hup, hit, hdev, ne_eq, not_true_eq_false, Bool.not_true, Bool.false_eq_true, or_self, if_false]

/-- Settles O53: the request is `State.memPut`, of which the laws of device memory say the rest. -/
theorem inboundWriteStores : Obligations.InboundWriteStores := by
  intro s o k a bs w len hd hup hw hlo hhi hdev
  refine ⟨s.memPut a.toNat bs, ?_, State.still_memPut s _ _, State.memPut_regs s _ _, State.memPut_out s _ _, ?_, ?_, ?_⟩
  · exact congrArg ok (inboundRequest_stores len hd hup hw hlo hhi hdev)
  · exact fun i h => Memory.read_writeBytes_inside bs s.mem a.toNat i h
  · exact fun j h => Memory.read_writeBytes_outside bs s.mem a.toNat j h
  · exact State.wf_memPut s a.toNat bs

/-! ## Accesses that reach their register (R48 to R50, R66, R94) -/

/-- The resets that a row has begun depend on what the row does to the state it meets, and on nothing else of it. -/
theorem withResets_congr {f g : State → State} {s : State} (h : f s = g s) : withResets f s = withResets g s := by
  unfold withResets
  rw [h]

/-- A whole aligned write that reaches its page, but for PG_CMD, is a write of the register. -/
theorem busWrite_reaches {s : State} {who : Requester} {addr : Nat} (v event : Nat)
    (h : WriteReaches s who (addr / 2097152) (addr / 4096 % 512)) (hal : addr % 4 = 0) (hcmd : addr % 4096 ≠ 0x20) :
    busWrite who addr true v event s =
      writeReg who (addr / 2097152) (addr / 4096 % 512) (addr % 4096) v event s := by
  obtain ⟨hcf, hpop, hacc⟩ := h
  have hoff : addr % 4096 % 4 = 0 := by omega
  unfold busWrite throughCf
  simp only [hcf, hacc, hoff, hcmd, if_neg (Nat.not_le.mpr hpop), ne_eq, not_true_eq_false, Bool.not_true,
    Bool.false_eq_true, or_self, if_false]

theorem targetWrite_page_reaches {s : State} {who : Requester} {a : BitVec 29} (v event : Nat)
    (h : WriteReaches s who (a.toNat / 2097152) (a.toNat / 4096 % 512)) (hal : a.toNat % 4 = 0)
    (hcmd : a.toNat % 4096 ≠ 0x20) :
    targetWrite who (.page a) true v event s = withResets
      (writeReg who (a.toNat / 2097152) (a.toNat / 4096 % 512) (a.toNat % 4096) v event) s :=
  withResets_congr (busWrite_reaches v event h hal hcmd)

/-- An aligned read of a populated page that the requester may read is a read of the register. -/
theorem busRead_reaches {s : State} {who : Requester} {addr : Nat} (event : Bool) (hcf : cfInReset s who = none)
    (hpop : addr / 4096 % 512 < pageCount (addr / 2097152)) (hal : addr % 4 = 0)
    (hacc : mayRead s who (addr / 2097152) = true) :
    busRead who addr event s =
      let r := readReg who event (addr / 2097152) (addr / 4096 % 512) (addr % 4096) s
      (some r.1, r.2) := by
  have hoff : addr % 4096 % 4 = 0 := by omega
  unfold busRead
  simp only [hcf, hacc, hoff, if_neg (Nat.not_le.mpr hpop), Option.isSome_none, ne_eq, not_true_eq_false, Bool.not_true,
    Bool.false_eq_true, if_false]

theorem targetRead_page_reaches {s : State} {who : Requester} {a : BitVec 29} (event : Bool) (hcf : cfInReset s who = none)
    (hpop : a.toNat / 4096 % 512 < pageCount (a.toNat / 2097152)) (hal : a.toNat % 4 = 0)
    (hacc : mayRead s who (a.toNat / 2097152) = true) :
    targetRead who (.page a) event s =
      let r := readReg who event (a.toNat / 2097152) (a.toNat / 4096 % 512) (a.toNat % 4096) s
      r.2.emit (.regData who (some (w32 r.1))) := by
  unfold targetRead
  simp only [busRead_reaches event hcf hpop hal hacc, Option.map_some]

/-- A whole aligned write to a function that answers goes to its ring registers, or to its NVMe controller's; the Control
Function's own BAR0 has neither (R68). -/
theorem fnWrite_answers {s : State} {port sel off : Nat} (v event : Nat) (h : FuncAnswers s port sel)
    (hal : off % 4 = 0) :
    fnWrite port sel off true v event s =
      if ringFn sel then ringFnWrite port sel off v event s else if sel = 2 then s else ctlWrite port sel off v s := by
  unfold fnWrite
  rw [barWrite_answers _ h]
  simp only [hal, ne_eq, not_true_eq_false, Bool.not_true, Bool.false_eq_true, or_self, if_false]

/-! ## The management interface (R456): the low 29 bits of the word sent are the address -/

/-- A write marked by bit 31 of its address, with no other access running, goes to the register bus. -/
theorem execMgmtPrivateWrite_idle {s : State} {addr : Word} (v : Word) (h : bit addr.toNat 31 = true) :
    execMgmtPrivateWrite addr v false s = ok (targetWrite .mgmt (.page (addr.setWidth 29)) true v.toNat 0 s) := by
  unfold execMgmtPrivateWrite
  simp only [h, Bool.not_true, Bool.false_eq_true, if_false]

theorem targetWrite_mgmt_reaches {s : State} {a : Word} (v event : Nat)
    (h : WriteReaches s .mgmt (a.toNat % 2 ^ 29 / 2097152) (a.toNat % 2 ^ 29 / 4096 % 512)) (hal : a.toNat % 4 = 0)
    (hcmd : a.toNat % 4096 ≠ 0x20) :
    targetWrite .mgmt (.page (a.setWidth 29)) true v event s = withResets (writeReg .mgmt (a.toNat % 2 ^ 29 / 2097152)
      (a.toNat % 2 ^ 29 / 4096 % 512) (a.toNat % 4096) v event) s := by
  have hoff : a.toNat % 2 ^ 29 % 4096 = a.toNat % 4096 := by omega
  have reach := busWrite_reaches v event h (by omega) (by omega)
  rw [hoff] at reach
  unfold targetWrite
  simp only [BitVec.toNat_setWidth]
  exact withResets_congr reach

theorem targetRead_mgmt_reaches {s : State} {a : Word} (event : Bool) (hcf : cfInReset s .mgmt = none)
    (hpop : a.toNat % 2 ^ 29 / 4096 % 512 < pageCount (a.toNat % 2 ^ 29 / 2097152)) (hal : a.toNat % 4 = 0)
    (hacc : mayRead s .mgmt (a.toNat % 2 ^ 29 / 2097152) = true) :
    targetRead .mgmt (.page (a.setWidth 29)) event s =
      let r := readReg .mgmt event (a.toNat % 2 ^ 29 / 2097152) (a.toNat % 2 ^ 29 / 4096 % 512) (a.toNat % 4096) s
      r.2.emit (.regData .mgmt (some (w32 r.1))) := by
  have hoff : a.toNat % 2 ^ 29 % 4096 = a.toNat % 4096 := by omega
  unfold targetRead
  simp only [BitVec.toNat_setWidth, busRead_reaches event hcf hpop (by omega) hacc, hoff, Option.map_some]

/-! ## The header and the interrupt hub (R52, R63, R65) -/

theorem setEnable_off {s : State} {blk : Nat} (inst : Nat) (h : enableFixed blk = false) :
    setEnable blk inst false s = ctrlBit s blk inst 0 false := by
  unfold setEnable
  simp only [h, Bool.false_and, Bool.false_eq_true, if_false]

/-- A page that was not enabled takes the work that waits for it. -/
theorem setEnable_rises {s : State} {blk inst : Nat} (h : enableFixed blk = false) (hs : s.enabled blk inst = false) :
    setEnable blk inst true s = startsWork (ctrlBit s blk inst 0 true) blk inst := by
  unfold setEnable
  simp only [h, hs, Bool.not_false, Bool.and_self, Bool.false_eq_true, if_false, if_true]

theorem onPage_populated {pg : PageRef} (k : Nat → State → State) (s : State)
    (h : pg.inst.toNat < pageCount pg.blk.toNat) : onPage pg k s = k (State.pk pg.blk.toNat pg.inst.toNat) s :=
  if_neg (Nat.not_le.mpr h)

theorem rearm_pending {s : State} {v : Nat} (h : (pendingTypes s.regs).contains (v % 256) = true) :
    rearm v s = sendRoute s (v % 256) :=
  if_pos h

/-- A ROUTE word to a work group, or with a vector of the MSI-X table, is stored. -/
theorem routeStore_accepted {s : State} (t : Nat) {v : Nat} (h : bits v 29 28 = 2 ∨ v % 2048 < s.boot.cfMsix) :
    routeStore t v s = s.wr HUB.ROUTE 0 (v &&& 0xB00007FF) t :=
  if_neg (by omega)

theorem unlocked_open {s : State} {blk inst : Nat} (k : State → State) (h : s.locked blk inst = false) :
    unlocked blk inst k s = k s := by
  rcases unlocked_cases blk inst k s with ⟨hl, _⟩ | ⟨_, e⟩
  · simp only [h, Bool.false_eq_true] at hl
  · exact e

/-! ## The rows -/

/-- Settles O1, row by row: each access reaches its page or function, and there has the effect of its row. That a ROUTE
vector is judged against CF_MSIX and that a rising ENABLE starts the work that waits are the model's readings (log 89, 90). -/
theorem registerRowsRun : Obligations.RegisterRowsRun := by
  refine ⟨?page, ?ring, ?control, ?read, ?header, ?resetDone, ?hub, ?mgmtWrite, ?mgmtRead⟩
  case page =>
    intro s who a v h hal hcmd
    have run := fun event => congrArg ok (targetWrite_page_reaches v.toNat event h hal hcmd)
    exact ⟨run 0, run 0, fun e => run e.toNat⟩
  case ring =>
    intro s who port sel off v h hal hring
    exact congrArg ok (withResets_congr ((fnWrite_answers v.toNat 0 h hal).trans (if_pos hring)))
  case control =>
    intro s who port sel off v h hal hring hsel
    have toControl := (fnWrite_answers v.toNat 0 h hal).trans (if_neg (by rw [hring]; exact Bool.false_ne_true))
    exact congrArg ok (withResets_congr (toControl.trans (if_neg hsel)))
  case read =>
    intro s who a hcf hpop hal hacc
    have run := fun event => congrArg ok (targetRead_page_reaches event hcf hpop hal hacc)
    exact ⟨run, run false⟩
  case header =>
    intro s who pg h
    have run := fun k => congrArg ok (pageWrite_reaches k h)
    refine ⟨fun _ => run _, run _, run _, run _, run _, fun hfree => ⟨?_, fun hs => ?_⟩⟩
    · exact (run _).trans (congrArg ok (setEnable_off _ hfree))
    · exact (run _).trans (congrArg ok (setEnable_rises hfree hs))
  case resetDone =>
    intro s pg hpop
    exact congrArg ok (onPage_populated softDone s hpop)
  case hub =>
    intro s who v h
    have run := fun k => congrArg ok (pageWrite_reaches k h)
    refine ⟨fun hp => (run _).trans (congrArg ok (rearm_pending hp)), fun t hl hv => (run _).trans (congrArg ok ?_)⟩
    exact (unlocked_open _ hl).trans (routeStore_accepted t.toNat hv)
  case mgmtWrite =>
    intro s a v hbit h hal hcmd
    exact (execMgmtPrivateWrite_idle v hbit).trans (congrArg ok (targetWrite_mgmt_reaches v.toNat 0 h hal hcmd))
  case mgmtRead =>
    intro s a hcf hpop hal hacc
    exact congrArg ok (targetRead_mgmt_reaches false hcf hpop hal hacc)

end Sys2Proof.Machine
end

section
/-! PROOFS. Rest after settling, what stops the block, and the commands of rack time, calendar and attachment (R14, R30, R38,
R42, R45, R63, R73, R74, R80, R97, R434, R469). -/

namespace Sys2Proof.Machine

/-! ## What settling is judged by (R63, R97) -/

/-- The level of an INTx wire depends on the functions, the NVMe controllers, the pending types and the registers alone. -/
theorem intxLevel_congr {s t : State} (hf : t.funcs = s.funcs) (hc : t.ctls = s.ctls) (hp : t.typePend = s.typePend)
    (hr : t.regs = s.regs) (port cf : Nat) : intxLevel t port cf = intxLevel s port cf := by
  unfold intxLevel routesTo routeOf funcOf State.rd State.rdA
  rw [hf, hc, hp, hr]

/-- Interrupts that are settled stay so when nothing changes that they are judged by. -/
theorem Settled.congr {s t : State} (h : Settled s) (hf : t.funcs = s.funcs) (hc : t.ctls = s.ctls)
    (hp : t.typePend = s.typePend) (hr : t.regs = s.regs) (hh : t.hports = s.hports) : Settled t := by
  obtain ⟨pend, wire⟩ := h
  refine ⟨by rw [hp, hr, pend], fun p hm => ?_⟩
  rw [intxLevel_congr hf hc hp hr]
  exact wire p (hh ▸ hm)

/-- Once the pending types are those that raise, driving the wires settles the interrupts. -/
theorem wires_settled {s : State} (h : s.typePend = pendingTypes s.regs) : Settled (wires s) := by
  have level : ∀ port cf, intxLevel (wires s) port cf = intxLevel s port cf := intxLevel_congr rfl rfl rfl rfl
  refine ⟨h, fun p hm => ?_⟩
  obtain ⟨q, -, rfl⟩ := List.mem_map.1 hm
  exact (level _ _).symm

theorem Settled.dropPps {s : State} (h : Settled s) : Settled (dropPps s) := by
  unfold Machine.dropPps
  split
  · exact h.congr rfl rfl rfl rfl rfl
  · exact h

theorem Settled.driveTref {s : State} (h : Settled s) : Settled (driveTref s) := by
  unfold Machine.driveTref
  split
  · exact h
  · exact h.congr rfl rfl rfl rfl rfl

theorem Settled.driveFault {s : State} (h : Settled s) (a : Bool) : Settled (driveFault s a) := by
  unfold Machine.driveFault
  split
  · exact h
  · exact h.congr rfl rfl rfl rfl rfl

/-! ## The driven outputs (R38, R42, R434, R468) -/

/-- Whether the reference outputs are driven depends on the discipline state and PPS_CTRL alone. -/
theorem outDriven_congr {s t : State} (hd : t.clk.dstate = s.clk.dstate) (hr : t.regs = s.regs) :
    outDriven t = outDriven s := by
  unfold outDriven State.rd State.rdA
  rw [hd, hr]

theorem ppsDriven_congr {s t : State} (hd : t.clk.dstate = s.clk.dstate) (hr : t.regs = s.regs) :
    ppsDriven t = ppsDriven s := by
  unfold ppsDriven
  rw [outDriven_congr hd hr]
  unfold State.rd State.rdA
  rw [hr]

theorem trefDriven_congr {s t : State} (hd : t.clk.dstate = s.clk.dstate) (hr : t.regs = s.regs) :
    trefDriven t = trefDriven s := by
  unfold trefDriven
  rw [outDriven_congr hd hr]
  unfold State.rd State.rdA
  rw [hr]

/-- The reference outputs follow what drives them. -/
abbrev ReferencesFollow (s : State) : Prop := (s.clk.ppsOut = true → ppsDriven s = true) ∧ s.clk.trefOut = trefDriven s

theorem dropPps_follows (s : State) : (dropPps s).clk.ppsOut = true → ppsDriven (dropPps s) = true := by
  unfold dropPps
  split
  · intro h
    cases h
  · rename_i still
    intro high
    simpa only [high, Bool.true_and, Bool.not_eq_true', Bool.not_eq_false] using still

theorem driveTref_follows {s : State} (h : s.clk.ppsOut = true → ppsDriven s = true) : ReferencesFollow (driveTref s) := by
  unfold driveTref
  split
  · rename_i same
    exact ⟨h, same⟩
  · exact ⟨fun high => (ppsDriven_congr rfl rfl).trans (h high), (trefDriven_congr rfl rfl).symm⟩

theorem ReferencesFollow.driveFault {s : State} (h : ReferencesFollow s) (a : Bool) : ReferencesFollow (driveFault s a) := by
  obtain ⟨pps, tref⟩ := h
  unfold Machine.driveFault
  split
  · exact ⟨pps, tref⟩
  · exact ⟨fun high => (ppsDriven_congr rfl rfl).trans (pps high), tref.trans (trefDriven_congr rfl rfl).symm⟩

/-- FAULT_N is judged without regard to what it last showed. -/
theorem pinAsserted_driveFault (s : State) (a : Bool) : pinAsserted (driveFault s a) = pinAsserted s := by
  unfold driveFault
  split <;> rfl

/-! ## Rest -/

/-- Wires, references and FAULT_N driven in this order, once the pending types are those that raise, give rest. -/
theorem outputs_atRest {s : State} (h : s.typePend = pendingTypes s.regs) :
    AtRest (driveFault (refOutputs (wires s)) (pinAsserted (refOutputs (wires s)))) := by
  have settled : Settled (refOutputs (wires s)) := (wires_settled h).dropPps.driveTref
  have follow : ReferencesFollow (refOutputs (wires s)) := driveTref_follows (dropPps_follows _)
  obtain ⟨pps, tref⟩ := follow.driveFault (pinAsserted (refOutputs (wires s)))
  exact ⟨settled.driveFault _, pps, tref, (driveFault_shown _ _).trans (pinAsserted_driveFault _ _).symm⟩

/-- Settling brings every state to rest: before the outputs follow, it takes the pending types from the registers anew. -/
theorem settle_atRest (s : State) : AtRest (settle s) := by
  unfold settle
  generalize gather (gather (gather s)) = gathered
  exact outputs_atRest rfl

/-- Settles O38: a step that goes on has settled (`step_settled`), and settling brings rest. -/
theorem restKept : Obligations.RestKept := by
  intro s t h
  obtain ⟨u, rfl⟩ := step_settled h
  exact settle_atRest u

/-- Settles O37: at reset no port has a wire, no register is stored, and no output is driven but FAULT_N. -/
theorem resetRests : Obligations.ResetRests := by
  refine ⟨⟨rfl, fun p hm => ?wire⟩, fun high => ?pps, ?tref, rfl⟩
  case wire => cases hm
  case pps => cases high
  case tref => decide

/-! ## A command at the front, and the empty queue (R14, log 15) -/

theorem step_empty {s : State} (h : s.pending = []) : step s = idle s := by
  unfold step
  rw [h]

theorem step_front {s : State} {c : Instr} {rest : List Instr} (h : s.pending = c :: rest) :
    step s = exec c { s with pending := rest } := by
  unfold step
  rw [h]

theorem idle_passes {s : State} (h : (s.pass 1).ns < 2 ^ 64) : idle s = .next (settle (s.pass 1)) :=
  if_neg (Nat.not_le.2 h)

theorem idle_stops {s : State} (h : 2 ^ 64 ≤ (s.pass 1).ns) : idle s = .fault .beyond2554 :=
  if_pos h

/-- Settles O36: `idle` before and at the end of Rack Time. -/
theorem stepIdles : Obligations.StepIdles := by
  intro s h
  rw [step_empty h]
  exact ⟨idle_passes, idle_stops⟩

/-- Settles O39: a command answers a next state (`exec_settled`), and so does the empty queue before the end of Rack Time.
That the end stops the empty queue alone, and no row, is the model's choice (log 15). -/
theorem onlyEndOfTimeStops : Obligations.OnlyEndOfTimeStops := by
  intro s stops
  cases hq : s.pending with
  | cons c rest =>
    obtain ⟨u, hu⟩ := exec_settled c { s with pending := rest }
    exact absurd ((step_front hq).trans hu) (stops _)
  | nil =>
    rw [step_empty hq] at stops ⊢
    have late : 2 ^ 64 ≤ (s.pass 1).ns := Nat.not_lt.1 fun early => stops _ (idle_passes early)
    exact ⟨rfl, late, idle_stops late⟩

/-! ## Page commands (R52, R56, R470) -/

/-- A row that writes PG_CMD runs on a page that takes and serves it. -/
theorem commandRuns_of_exec {i : Instr} {blk op : Nat} {eff : CmdCtx → State → CmdRes} {c : CmdIn} {s : State}
    (h : exec i s = .next (settle (pageCommand blk op eff c s))) : CommandRuns i blk op eff c s := by
  intro takes serves plain now twin
  rw [h, pageCommand_runs eff takes serves plain now twin]

/-- Settles O24: each row is the page command of its block and opcode. -/
theorem timeCommandsRun : Obligations.TimeCommandsRun := by
  intro c s
  exact ⟨commandRuns_of_exec rfl, commandRuns_of_exec rfl, commandRuns_of_exec rfl, commandRuns_of_exec rfl,
    commandRuns_of_exec rfl, commandRuns_of_exec rfl, commandRuns_of_exec rfl, commandRuns_of_exec rfl,
    commandRuns_of_exec rfl, commandRuns_of_exec rfl⟩

end Sys2Proof.Machine
end

section
/-! PROOFS. Register writes that only store: the row's range, the page's own condition, and the reference registers of Rack
Time (R8, R21, R39, R50, R467). -/

namespace Sys2Proof.Machine

/-! ## A write of a register row (R8, R50) -/

/-- A write beyond the header is a write of the row that the page has there. -/
theorem writeReg_row {s : State} {who : Requester} {blk inst off : Nat} (v event : Nat) {r : RegRow} (hoff : 0x100 ≤ off)
    (here : absentReg s blk inst off = false) (hr : rowOf? blk off = some r) :
    writeReg who blk inst off v event s = rowWrite who blk inst off v event r s := by
  unfold writeReg
  simp only [if_neg (Nat.not_lt.2 hoff), here, Bool.false_eq_true, if_false, hr]

/-- A read-write row whose write has no effect of its own, and which is no half of a pair, stores. -/
theorem rowWrite_stores {s : State} {who : Requester} {blk inst off v : Nat} (event : Nat) {r : RegRow}
    (hacc : r.acc = .rw) (hpair : r.pair = false) (own : ownEffect who blk inst off v r = none) :
    rowWrite who blk inst off v event r s = storeWord blk inst off r v s := by
  unfold rowWrite
  simp only [hacc, own, hpair, reduceCtorEq, decide_false, Bool.false_and, Bool.not_false, Bool.false_eq_true, if_false,
    if_true]

/-- A read-write row whose write has an effect of its own has that effect. -/
theorem rowWrite_own {s : State} {who : Requester} {blk inst off v : Nat} (event : Nat) {r : RegRow} {f : State → State}
    (hacc : r.acc = .rw) (own : ownEffect who blk inst off v r = some f) :
    rowWrite who blk inst off v event r s = f s := by
  unfold rowWrite
  simp only [hacc, own, reduceCtorEq, decide_false, Bool.false_and, Bool.false_eq_true, if_false]

/-! ## Storing a word (R55, R467) -/

/-- A word of 32 bits masked by all ones is itself. -/
theorem and_allOnes {v : Nat} (h : v < 2 ^ 32) : v &&& 0xFFFFFFFF = v :=
  (Nat.and_two_pow_sub_one_eq_mod v 32).trans (Nat.mod_eq_of_lt h)

/-- A write of all 32 bits leaves nothing of the old word. -/
theorem merged_allOnes {old v : Nat} (ho : old < 2 ^ 32) (hv : v < 2 ^ 32) : merged old v 0xFFFFFFFF = v := by
  unfold merged
  rw [and_allOnes ho, and_allOnes hv, Nat.sub_self, Nat.zero_or]

/-- A write that the page's own rules refuse counts in their counter. -/
theorem storeWord_refused {s : State} {blk inst off v err : Nat} (r : RegRow) (h : refused s blk inst off v = some err) :
    storeWord blk inst off r v s = s.bumpErr blk inst err := by
  unfold storeWord
  simp only [h]

/-- A write that no rule of the page refuses, to a row of 32 named bits: within the row's range it is stored whole. -/
theorem storeWord_whole {s : State} {blk inst off v : Nat} {r : RegRow} (hm : r.mask = 0xFFFFFFFF) (hv : v < 2 ^ 32)
    (h : refused s blk inst off v = none) :
    storeWord blk inst off r v s = if v < r.lo ∨ r.hi < v then (if r.err = 99 then s else s.bumpErr blk inst r.err)
      else s.wr (blk, off) inst v := by
  unfold storeWord
  simp only [h, hm, and_allOnes hv, merged_allOnes (BitVec.isLt _) hv]
  rfl

/-! ## The reference registers of Rack Time (R467) -/

/-- A two's complement number of 32 bits is the value of its word. -/
theorem signed_toNat (v : Word) : signed 32 v.toNat = v.toInt := by
  have hv : v.toNat < 2 ^ 32 := v.isLt
  unfold signed
  rw [BitVec.toInt_eq_toNat_cond, Nat.mod_eq_of_lt hv]
  exact ite_congr (propext (by omega)) (fun _ => rfl) (fun _ => rfl)

/-- PPS_OUT_OFFSET is refused outside half a second to either side. -/
theorem refused_ppsOutOffset {s : State} {v : Word} : refused s blkRTIME 0 0x13C v.toNat =
    if v.toInt < -500000000 ∨ 499999999 < v.toInt then some 2 else none := by
  have condition : refused s blkRTIME 0 0x13C v.toNat =
      if (decide (-500000000 ≤ signed 32 v.toNat) && decide (signed 32 v.toNat ≤ 499999999)) = true then none
      else some 2 := rfl
  rw [condition, signed_toNat]
  by_cases outside : v.toInt < -500000000 ∨ 499999999 < v.toInt
  · rw [if_pos outside, if_neg (by simp only [Bool.and_eq_true, decide_eq_true_iff]; omega)]
  · rw [if_neg outside, if_pos (by simp only [Bool.and_eq_true, decide_eq_true_iff]; omega)]

/-- A whole aligned write that reaches its page, but for PG_CMD, has the effect that the register's write comes to. -/
theorem registerWrite_runs {s : State} {who : Requester} {a : BitVec 29} {v : Word} (k : State → State)
    (h : WriteReaches s who (a.toNat / 2097152) (a.toNat / 4096 % 512)) (hal : a.toNat % 4 = 0)
    (hcmd : a.toNat % 4096 ≠ 0x20)
    (hk : writeReg who (a.toNat / 2097152) (a.toNat / 4096 % 512) (a.toNat % 4096) v.toNat 0 s = k s) :
    exec (.registerWrite who (.page a) true v) s = .next (settle (withResets k s)) :=
  congrArg ok ((targetWrite_page_reaches v.toNat 0 h hal hcmd).trans (withResets_congr hk))

/-- Settles O50: STEP_THRESH and PPS_OUT_WIDTH have ranges in their rows, PPS_OUT_OFFSET a condition of the page, SLEW_MAX a
write of its own; the counter and the other registers are those of `bumpErr`. -/
theorem referenceWritesRejected : Obligations.ReferenceWritesRejected := by
  intro s who v h
  have hv : v.toNat < 2 ^ 32 := v.isLt
  refine ⟨?thresh, ?width, ?offset, ?slew, ?kept, State.hd_bumpErr_self s blkRTIME 0 2 1⟩
  case thresh =>
    refine registerWrite_runs _ h rfl (by decide) ?_
    refine (writeReg_row _ _ (by decide) rfl rfl).trans ((rowWrite_stores _ rfl rfl rfl).trans ?_)
    have range : (v.toNat < 1 ∨ 4294967295 < v.toNat) ↔ v.toNat = 0 := by omega
    exact (storeWord_whole rfl hv rfl).trans (ite_congr (propext range) (fun _ => rfl) (fun _ => rfl))
  case width =>
    refine registerWrite_runs _ h rfl (by decide) ?_
    exact (writeReg_row _ _ (by decide) rfl rfl).trans ((rowWrite_stores _ rfl rfl rfl).trans (storeWord_whole rfl hv rfl))
  case offset =>
    refine registerWrite_runs _ h rfl (by decide) ?_
    refine (writeReg_row _ _ (by decide) rfl rfl).trans ((rowWrite_stores _ rfl rfl rfl).trans ?_)
    split
    · rename_i outside
      exact storeWord_refused _ (refused_ppsOutOffset.trans (if_pos outside))
    · rename_i inside
      refine (storeWord_whole rfl hv (refused_ppsOutOffset.trans (if_neg inside))).trans (if_neg ?_)
      show ¬(v.toNat < 0 ∨ 4294967295 < v.toNat)
      omega
  case slew =>
    refine registerWrite_runs _ h rfl (by decide) ?_
    refine (writeReg_row _ _ (by decide) rfl rfl).trans ((rowWrite_own _ rfl rfl).trans ?_)
    refine (storeWord_whole rfl (by omega) rfl).trans (if_neg ?_)
    show ¬(min v.toNat 100000 < 0 ∨ 4294967295 < min v.toNat 100000)
    omega
  case kept =>
    have other : ∀ r ∈ [RTIME.STEP_THRESH, RTIME.PPS_OUT_WIDTH, RTIME.PPS_OUT_OFFSET],
        State.addr r 0 0 ≠ State.addr (blkRTIME, 0x80 + 4 * 2) 0 0 ∧
          State.addr r 0 0 ≠ State.addr (blkRTIME, 0x10) 0 0 := by decide
    intro r hr
    obtain ⟨counter, flags⟩ := other r hr
    exact congrArg BitVec.toNat (State.rdA_bumpErr_other s blkRTIME 0 2 1 counter flags)

end Sys2Proof.Machine
end

section
/-! PROOFS. The calendar's own rows: the next fire, the cascade to the level below, the return of a spilled event (R31 to R36,
log 9). -/

namespace Sys2Proof.Machine

/-- The next event of a slice fires at its deadline or at the present time, and is LATE 2 ns past its deadline (R32, R33). -/
theorem fireNext_next {s : State} {n : Nat} {e : CalEvent} (h : s.calNext n = some e) :
    fireNext n s = fireTo (s.fireEvent n e) n e false (decide (e.deadline + 2 < (s.fireEvent n e).ns)) := by
  unfold fireNext
  rw [h]

/-- When now enters the bucket of a deadline `d` at the level where it stands, or the ring of level 3 from beyond (R31). -/
def bucketEntry (now d : Nat) : Nat :=
  if calLevel now d = 4 then (d / 2 ^ 30 - 1023) * 2 ^ 30
  else if calLevel now d = 1 then d / 2 ^ 10 * 2 ^ 10
  else if calLevel now d = 2 then d / 2 ^ 20 * 2 ^ 20 else d / 2 ^ 30 * 2 ^ 30

/-- The width in ns of a bucket of a level (R31). -/
def bucketWidth (level : Nat) : Nat := if level = 1 then 2 ^ 10 else if level = 2 then 2 ^ 20 else 2 ^ 30

theorem bucketEntry_eq (now d : Nat) : bucketEntry now d =
    if calLevel now d = 4 then (d / 2 ^ 30 - 1023) * 2 ^ 30
    else d / bucketWidth (calLevel now d) * bucketWidth (calLevel now d) := by
  unfold bucketEntry bucketWidth
  by_cases low : calLevel now d = 1
  · simp only [if_pos low]
  · by_cases middle : calLevel now d = 2
    · simp only [if_neg low, if_pos middle]
    · simp only [if_neg low, if_neg middle]

/-- A slice whose occupancy has reached SPILL_HI spills down to SPILL_LO (R34). -/
def spillFull (s : State) (n : Nat) : State :=
  if s.rd CAL.SPILL_HI n ≤ (s.slice n).chip.length then
    s.setSlice n (calSpill s.ns (s.rd CAL.SPILL_LO n) (s.rd CAL.SPILL_SIZE n) (s.slice n).chip.length (s.slice n))
  else s

/-- The next event above level 0 cascades as now enters its bucket, and the slice spills if it is full (R31, R34). -/
theorem cascade_next {s : State} {n : Nat} {e : CalEvent} (h : s.calNext n = some e) (above : calLevel s.ns e.deadline ≠ 0) :
    cascade n s = spillFull (s.reach (bucketEntry s.ns e.deadline)) n := by
  unfold cascade
  simp only [h, if_neg above, bucketEntry_eq]
  rfl

/-- The earliest spilled event returns on chip as it becomes near, when the slice has room (R34). -/
theorem spillReturn_room {s u : State} {n : Nat} {e : CalEvent} (h : State.calFirst (s.slice n).spill = some e)
    (hu : u = s.reach ((e.deadline / 2 ^ 20 - 1) * 2 ^ 20)) (room : (u.slice n).chip.length < 65536) :
    spillReturn n s = u.setSlice n { chip := (u.slice n).chip ++ [e], spill := (u.slice n).spill.erase e } := by
  subst hu
  unfold spillReturn
  simp only [h, if_pos room]

/-- Settles O4: the three rows on their slice; a row's time reaches at least its deadline (log 9). -/
theorem calendarRowsRun : Obligations.CalendarRowsRun := by
  refine ⟨?fire, ?cascade, ?back⟩
  case fire =>
    intro s i e h
    exact congrArg ok (fireNext_next h)
  case cascade =>
    intro s i e u h above hu
    have cascades : cascade i.val s = spillFull u i.val := by
      rw [cascade_next h above, hu]
      rfl
    exact ⟨fun full => congrArg ok (cascades.trans (if_pos full)),
      fun low => congrArg ok (cascades.trans (if_neg (Nat.not_le.2 low)))⟩
  case back =>
    intro s i e u h hu room
    exact congrArg ok (spillReturn_room h hu room)

end Sys2Proof.Machine
end

section
/-! PROOFS. The rows of Rack Time: references and their loss, selection, steps, minute boundaries, lane calibration and PPS_OUT
(R16 to R30, R38 to R42, R368, R467 to R469, log 9). -/

namespace Sys2Proof.Machine

/-! ## Sources (R16, R19, R23) -/

/-- An edge of PPS_IN within 1.2 s of the last one, with TREF_IN in range, qualifies PPS and is measured (R16). -/
theorem ppsEdge_qualifies {s : State} {dt : Nat} (tref : s.clk.trefOk = true) (seen : s.clk.pps.last ≠ 0)
    (soon : s.bref + dt ≤ s.clk.pps.last + 1200000000) :
    ppsEdge dt s = measure (reselect (gainSource ((s.pass dt).wr RTIME.PPS_PHASE 0
      (unsigned 32 (ppsOffset (s.pass dt) / 65536))) .pps)) .pps (ppsOffset (s.pass dt)) := by
  have bref : (s.pass dt).bref = s.bref + dt := rfl
  unfold ppsEdge
  simp only [State.wr_clk, State.wr_bref, State.pass_clk, bref, tref, bne_iff_ne.2 seen, decide_eq_true soon,
    Bool.and_self, if_true]

/-- A qualified source of higher rank than the selected one, and the best once QUAL_TIME has passed, is selected (R19). -/
theorem qualExpiry_selects {s : State} {src cur : Source} (selected : s.clk.source = some cur)
    (qual : qualified s src = true) (higher : (ranking s).idxOf src < (ranking s).idxOf cur)
    (best : bestSource (reachBref s ((qualOf s.clk src).since + s.rd RTIME.QUAL_TIME * 1000000000)) = some src) :
    qualExpiry src s = selectSource
      ((reachBref s ((qualOf s.clk src).since + s.rd RTIME.QUAL_TIME * 1000000000)).istat blkRTIME 0 3) src := by
  unfold qualExpiry
  simp only [selected, qual, decide_eq_true higher, best, Bool.and_self, beq_self_eq_true, if_true]

/-- PPS that qualified counts its loss when TREF_IN is found out of range (R16). -/
theorem trefOut_losesPps {s : State} (h : s.clk.pps.ok = true) :
    execTrefInOutOfRange true s = ok (loseSource
      (((setClk s (fun c => { c with trefOk := false })).istat blkRTIME 0 5).bumpErr blkRTIME 0 1) .pps) := by
  have stays : ((setClk s (fun c => { c with trefOk := false })).istat blkRTIME 0 5).clk.pps.ok = true := by
    rw [State.istat_clk]
    exact h
  unfold execTrefInOutOfRange
  simp only [Bool.not_true, if_true, stays]

/-! ## Minutes and steps (R22, R28, R29) -/

/-- A MINUTE_OFFSET in range is stored while the sequencer is not armed (R28). -/
theorem minuteOffset_accepted {s : State} {v : Word} (range : v.toNat ≤ 59) (idle : s.clk.armed = false) :
    minuteOffset v s = s.wr RTIME.MINUTE_OFFSET 0 v.toNat := by
  refine if_neg ?_
  rw [idle]
  exact fun h => h.elim (Nat.not_lt.2 range) Bool.false_ne_true

/-- A pending step takes effect at the next frame, and the events it skips fire in deadline order (R22, R36). -/
theorem stepTime_pending {s : State} (h : s.clk.stepPending.isSome = true) :
    stepTime s = (skipped (applyStep s) (reachBref s ((s.bref + 31) / 32 * 32)).ns (applyStep s).ns).foldl fireSkipped
      (applyStep s) := by
  refine if_neg ?_
  rw [← Option.not_isSome, h]
  exact Bool.false_ne_true

/-! ## Lane calibration (R469) -/

/-- A calibration that ends finds the lane of the LANE_CAL that waits for it. -/
theorem laneCalDone_waiting {s : State} {r : Running} (good : Bool) (off : Word)
    (h : waitingCmd s blkRTIME 0 0x01 = some r) :
    laneCalDone good off s =
      if good then endWaiting ((s.wr OCTET.LANE_OFFSET (r.arg0.toNat / 8) off.toNat (r.arg0.toNat % 8)).wr OCTET.LANE_CALSTAT
        (r.arg0.toNat / 8) (s.rd OCTET.LANE_CALSTAT (r.arg0.toNat / 8) ||| 2 ^ (r.arg0.toNat % 8))) blkRTIME 0 0x01 0
      else endWaiting ((s.wr OCTET.LANE_CALSTAT (r.arg0.toNat / 8) (s.rd OCTET.LANE_CALSTAT (r.arg0.toNat / 8) -
        (s.rd OCTET.LANE_CALSTAT (r.arg0.toNat / 8) &&& 2 ^ (r.arg0.toNat % 8)))).istat blkOCTET (r.arg0.toNat / 8) 2)
        blkRTIME 0 0x01 0x47 := by
  unfold laneCalDone
  rw [h]

/-! ## PPS_OUT (R38, R42) -/

/-- PPS_OUT rises at the next shifted whole second, while it is driven there. -/
theorem ppsPulse_rises {s : State} {n : Nat} (hn : n = (((s.ns : Int) - signed 32 (s.rd RTIME.PPS_OUT_OFFSET)) / 1000000000 *
      1000000000 + signed 32 (s.rd RTIME.PPS_OUT_OFFSET) + 1000000000).toNat) (driven : ppsDriven (s.reach n) = true) :
    ppsPulse true s = (setClk (s.reach n) (fun c => { c with ppsOut := true })).emit (.pin 1 0 1) := by
  subst hn
  exact if_pos driven

/-- PPS_OUT falls PPS_OUT_WIDTH after the last shifted whole second. -/
theorem ppsPulse_falls {s : State} {n : Nat} (hn : n = (((s.ns : Int) - signed 32 (s.rd RTIME.PPS_OUT_OFFSET)) / 1000000000 *
      1000000000 + signed 32 (s.rd RTIME.PPS_OUT_OFFSET) + s.rd RTIME.PPS_OUT_WIDTH).toNat) (high : s.clk.ppsOut = true) :
    ppsPulse false s = (setClk (s.reach n) (fun c => { c with ppsOut := false })).emit (.pin 1 0 0) := by
  subst hn
  exact if_pos high

/-! ## The rows -/

/-- Settles O3, row by row: each branch of a row's meaning by the condition on the state and the operands that selects it. A
row that stands for a deadline acts at it, or at the present time once it has passed (log 9). -/
theorem timeRowsRun : Obligations.TimeRowsRun := by
  refine ⟨?writes, ?ptp, ?edge, ?missing, ?tref, ?qual, ?step, ?minute, ?lane, ?rise, ?fall⟩
  case writes =>
    intro s who h
    have run := fun k => congrArg ok (pageWrite_reaches k h)
    exact ⟨fun _ => run _, fun _ => run _, fun _ => run _, fun _ => run _,
      fun v range idle => (run _).trans (congrArg ok (minuteOffset_accepted range idle))⟩
  case ptp => exact fun s h => congrArg ok (if_pos h)
  case edge => exact fun s dt tref seen soon => congrArg ok (ppsEdge_qualifies tref seen soon)
  case missing => exact fun s h => congrArg ok (if_pos h)
  case tref => exact fun s => ⟨rfl, trefOut_losesPps⟩
  case qual => exact fun s src cur selected qual higher best => congrArg ok (qualExpiry_selects selected qual higher best)
  case step => exact fun s h => congrArg ok (withResets_congr (stepTime_pending h))
  case minute =>
    intro s
    refine ⟨fun due => congrArg ok (if_pos due), fun unarmed => congrArg ok (if_neg ?_)⟩
    rw [unarmed]
    exact fun h => Bool.false_ne_true h.1
  case lane =>
    intro s r off h
    exact ⟨congrArg ok (laneCalDone_waiting true off h), congrArg ok (laneCalDone_waiting false off h)⟩
  case rise => exact fun s n hn driven => congrArg ok (ppsPulse_rises hn driven)
  case fall => exact fun s n hn high => congrArg ok (ppsPulse_falls hn high)

end Sys2Proof.Machine
end

section
/-! PROOFS. Page commands: what a write of PG_CMD comes to on a page that refuses it, what the checks before a command's own
effect answer, and what a command that runs or ends shows (R48, R53, R55 to R58, R64, R66, R401, R470). -/

namespace Sys2Proof.Machine

/-! ## Header registers (R51, R54) -/

namespace State

theorem pkBlk_pk (blk : Nat) {inst : Nat} (h : inst < 512) : pkBlk (pk blk inst) = blk := by
  simp only [pkBlk, pk]
  omega

theorem pkInst_pk (blk : Nat) {inst : Nat} (h : inst < 512) : pkInst (pk blk inst) = inst := by
  simp only [pkInst, pk]
  omega

/-- A flag set in PG_ISTAT reads 1. -/
theorem bit_istat_self (s : State) (b i : Nat) {n : Nat} (h : n < 32) : bit ((s.istat b i n).hd b i 0x10) n = true := by
  have stored : (s.istat b i n).hd b i 0x10 = (s.hd b i 0x10 ||| 2 ^ n) % 2 ^ 32 := hd_hdw_self s b i 0x10 _
  have isTestBit : ∀ v : Nat, bit v n = v.testBit n := fun v => by rw [Nat.testBit_eq_decide_div_mod_eq]; rfl
  rw [isTestBit, stored, Nat.testBit_mod_two_pow, Nat.testBit_or, Nat.testBit_two_pow_self]
  simp only [h, decide_true, Bool.or_true, Bool.and_self]

end State

/-- PG_CMD_STAT reads what is stored, and BUSY while a command runs. -/
theorem headerReg_cmdStat (s : State) (blk inst : Nat) : headerReg s blk inst 0x24 =
    s.hd blk inst 0x24 + 2147483648 * b2n (Tbl.get? s.running (State.pk blk inst)).isSome := rfl

/-- What every step of a fold keeps, the fold keeps. -/
theorem foldl_keeps {α β : Type} (g : State → β) (f : State → α → State) (h : ∀ s a, g (f s a) = g s) (l : List α)
    (s : State) : g (l.foldl f s) = g s := by
  induction l generalizing s with
  | nil => rfl
  | cons a t ih => exact (ih _).trans (h s a)

/-! ## A page command that its page does not take (R48, R55, R56, R64, R66) -/

/-- The opcodes of the rows that write PG_CMD fit PG_CMD's low byte. -/
theorem pageRow_opcode {s : State} {i : Instr} {blk op : Nat} {c : CmdIn} (h : pageRow s i = some (blk, op, c)) :
    op < 256 := by
  cases i <;> first | (cases h; decide) | (simp only [pageRow, reduceCtorEq] at h)

section
variable {blk op : Nat} (eff : CmdCtx → State → CmdRes) {c : CmdIn} {s : State}

theorem pageCommand_unpopulated (hcf : cfInReset s c.who = none) (h : pageCount blk ≤ c.inst.toNat) :
    pageCommand blk op eff c s = bumpUnpop s (cmdWrites c) := by
  unfold pageCommand throughCf
  simp only [hcf, if_pos h]

theorem pageCommand_denied (hcf : cfInReset s c.who = none) (hpop : c.inst.toNat < pageCount blk)
    (h : mayWrite s c.who blk = false) : pageCommand blk op eff c s =
      if (Tbl.get? s.running (State.pk blk c.inst.toNat)).isSome = true then s.bumpErr blk c.inst.toNat 28 (cmdWrites c)
      else deniedCommand c blk c.inst.toNat op (s.bumpErr blk c.inst.toNat 28 (cmdWrites c)) := by
  unfold pageCommand throughCf
  simp only [hcf, if_neg (Nat.not_le.2 hpop), h, Bool.not_false, if_true]

theorem pageCommand_busy (hw : WriteReaches s c.who blk c.inst.toNat)
    (h : (Tbl.get? s.running (State.pk blk c.inst.toNat)).isSome = true) :
    pageCommand blk op eff c s = s.bumpErr blk c.inst.toNat 31 (cmdWrites c) := by
  obtain ⟨hcf, hpop, hacc⟩ := hw
  unfold pageCommand throughCf
  simp only [hcf, if_neg (Nat.not_le.2 hpop), hacc, Bool.not_true, Bool.false_eq_true, if_false, h, if_true]

/-! ## A page command that its page takes (R56, R57, R470) -/

/-- The command that a write of PG_CMD leaves running: what stands in the registers once the row's words are written. -/
def begunCmd (c : CmdIn) (blk inst op : Nat) (s : State) : Running :=
  latchedCmd c blk inst op (putCmd c blk inst op (latchArgs c blk inst s))

/-- A command that begins is judged at once, unless it is left running. -/
theorem pageCommand_taken (h : TakesCommand s c.who blk c.inst.toNat) : pageCommand blk op eff c s =
    if c.defer = true then begun c blk c.inst.toNat op s
    else conclude (judge (begunCmd c blk c.inst.toNat op s) blk c.inst.toNat eff (begun c blk c.inst.toNat op s))
      (State.pk blk c.inst.toNat) := by
  obtain ⟨⟨hcf, hpop, hacc⟩, idle⟩ := h
  have judged : finish blk c.inst.toNat eff (begun c blk c.inst.toNat op s) =
      conclude (judge (begunCmd c blk c.inst.toNat op s) blk c.inst.toNat eff (begun c blk c.inst.toNat op s))
        (State.pk blk c.inst.toNat) := by
    unfold finish
    rw [begun_running]
    rfl
  rw [← judged]
  unfold pageCommand throughCf
  simp only [hcf, if_neg (Nat.not_le.2 hpop), hacc, Bool.not_true, Bool.false_eq_true, if_false, idle]
  rfl

/-- A command taken whose judgement refuses it ends with the refusal's code and no effect of its own. -/
theorem pageCommand_refused {code : Nat} (h : TakesCommand s c.who blk c.inst.toNat) (now : c.defer = false)
    (refusal : judge (begunCmd c blk c.inst.toNat op s) blk c.inst.toNat eff (begun c blk c.inst.toNat op s) =
      .fail (begun c blk c.inst.toNat op s) code) :
    pageCommand blk op eff c s = endCommand (begun c blk c.inst.toNat op s) (State.pk blk c.inst.toNat) code none := by
  rw [pageCommand_taken eff h, if_neg (by simp only [now, Bool.false_eq_true, not_false_eq_true]), refusal]
  rfl

end

/-- What a page command comes to: the write meets a Control Function under reset, an unpopulated page, a denial or a busy
page, or the page takes the command. -/
theorem pageCommand_cases (blk op : Nat) (eff : CmdCtx → State → CmdRes) (c : CmdIn) (s : State) :
    (∃ p, cfInReset s c.who = some p ∧ pageCommand blk op eff c s = s.bumpErr blkHPORT p 4 (cmdWrites c)) ∨
    pageCommand blk op eff c s = bumpUnpop s (cmdWrites c) ∨
    pageCommand blk op eff c s = s.bumpErr blk c.inst.toNat 28 (cmdWrites c) ∨
    pageCommand blk op eff c s =
      deniedCommand c blk c.inst.toNat op (s.bumpErr blk c.inst.toNat 28 (cmdWrites c)) ∨
    pageCommand blk op eff c s = s.bumpErr blk c.inst.toNat 31 (cmdWrites c) ∨
    TakesCommand s c.who blk c.inst.toNat := by
  cases hcf : cfInReset s c.who with
  | some p =>
    refine .inl ⟨p, rfl, ?_⟩
    unfold pageCommand throughCf
    simp only [hcf]
  | none =>
    by_cases hpop : pageCount blk ≤ c.inst.toNat
    · exact .inr (.inl (pageCommand_unpopulated eff hcf hpop))
    have populated := Nat.not_le.1 hpop
    cases hacc : mayWrite s c.who blk with
    | false =>
      have denied := pageCommand_denied (op := op) eff hcf populated hacc
      split at denied
      · exact .inr (.inr (.inl denied))
      · exact .inr (.inr (.inr (.inl denied)))
    | true =>
      have reaches : WriteReaches s c.who blk c.inst.toNat := ⟨hcf, populated, hacc⟩
      cases busy : (Tbl.get? s.running (State.pk blk c.inst.toNat)).isSome with
      | true => exact .inr (.inr (.inr (.inr (.inl (pageCommand_busy eff reaches busy)))))
      | false => exact .inr (.inr (.inr (.inr (.inr ⟨reaches, busy⟩))))

/-- Settles O41: the write of PG_CMD to a busy page is discarded (R58) and counted (R55). -/
theorem busyPageCounts : Obligations.BusyPageCounts := by
  intro s i blk op c r row reaches running
  obtain ⟨eff, run⟩ := pageRow_exec row
  rw [run, pageCommand_busy eff reaches (by rw [running]; rfl)]

/-- Settles O43, by `pageCommand_unpopulated`. -/
theorem unpopulatedCommandCounts : Obligations.UnpopulatedCommandCounts := by
  intro s i blk op c row hcf unpopulated
  obtain ⟨eff, run⟩ := pageRow_exec row
  rw [run, pageCommand_unpopulated eff hcf unpopulated]
  rfl

/-! ## A denied command (R66) -/

/-- A denied command shows the writer's TAG and OPCODE with 0x06. -/
theorem deniedCommand_cmdStat (c : CmdIn) (blk inst : Nat) {op : Nat} (s : State) (hop : op < 256) :
    (deniedCommand c blk inst op s).hd blk inst 0x24 = c.hi.toNat / 256 % 256 * 65536 + op * 256 + 0x06 := by
  unfold deniedCommand
  rw [State.hd_istat_other _ _ _ _ (by omega), State.hd_hdw_self]
  omega

/-- A denied command leaves its page's registers but PG_CMD_STAT and PG_ISTAT. -/
theorem deniedCommand_hd_other (c : CmdIn) (blk inst op : Nat) (s : State) {off : Nat} (hs : off ≠ 0x24) (hi : off ≠ 0x10) :
    (deniedCommand c blk inst op s).hd blk inst off = s.hd blk inst off := by
  unfold deniedCommand
  rw [State.hd_istat_other _ _ _ _ hi, State.hd_hdw_other _ _ _ _ hs]

/-- Counting leaves the page's registers but the counter and PG_ISTAT. -/
theorem State.hd_bumpErr_other (s : State) (b i n k : Nat) {p : Nat} (hc : p ≠ 0x80 + 4 * n) (hi : p ≠ 0x10) :
    (s.bumpErr b i n k).hd b i p = s.hd b i p :=
  congrArg BitVec.toNat (rdA_bumpErr_other s b i n k (by simp only [addr]; omega) (by simp only [addr]; omega))

/-- Settles O42: a denied command on an idle page is `deniedCommand` after the count of its writes. -/
theorem deniedCommandEnds : Obligations.DeniedCommandEnds := by
  intro s i blk op c row hcf populated denied idle
  obtain ⟨eff, run⟩ := pageRow_exec row
  have notBusy : ¬ (Tbl.get? s.running (State.pk blk c.inst.toNat)).isSome = true := by rw [idle]; exact Bool.false_ne_true
  have kept : ∀ off, off ≠ 0x24 → off ≠ 0x10 → off ≠ 0xF0 →
      (deniedCommand c blk c.inst.toNat op (s.bumpErr blk c.inst.toNat 28 (cmdWrites c))).hd blk c.inst.toNat off =
        s.hd blk c.inst.toNat off := fun off hs hi hc =>
    (deniedCommand_hd_other c blk _ op _ hs hi).trans (State.hd_bumpErr_other s blk _ 28 _ (by omega) hi)
  refine ⟨deniedCommand c blk c.inst.toNat op (s.bumpErr blk c.inst.toNat 28 (cmdWrites c)), ?runs, ?still, ?mem, ?out,
    deniedCommand_cmdStat c blk _ _ (pageRow_opcode row), State.bit_istat_self _ _ _ (by omega), ?count,
    kept 0xFC (by omega) (by omega) (by omega), fun off window => kept off (by omega) (by omega) (by omega)⟩
  case runs => rw [run, pageCommand_denied eff hcf populated denied, if_neg notBusy]
  case still => simp only [deniedCommand, State.still_istat, State.still_hdw, State.still_bumpErr]
  case mem => simp only [deniedCommand, State.istat_mem, State.hdw_mem, State.bumpErr_mem]
  case out => simp only [deniedCommand, State.istat_out, State.hdw_out, State.bumpErr_out]
  case count =>
    exact (deniedCommand_hd_other c blk _ op _ (by omega) (by omega)).trans (State.hd_bumpErr_self s blk _ 28 _)

/-! ## The checks before a command's own effect (R53, R401, R427, R470) -/

/-- A begun command is marked for reserved bits when PG_CMD was not plain. -/
theorem begunCmd_rsvd (c : CmdIn) (blk inst op : Nat) (s : State) :
    (begunCmd c blk inst op s).rsvd = false ↔ PlainCommand c := by
  simp only [begunCmd, latchedCmd, Bool.or_eq_false_iff, bne_eq_false_iff_eq, PlainCommand]
  omega

section
variable {r : Running} {blk inst : Nat} (eff : CmdCtx → State → CmdRes) {s : State}

theorem judge_reserved (h : r.rsvd = true) : judge r blk inst eff s = .fail s 0x03 := if_pos h

theorem judge_otherTwin (plain : r.rsvd = false) (hb : blk = blkTWIN) (hi : inst ≠ 0) :
    judge r blk inst eff s = .fail s 0x01 := by
  unfold judge
  simp only [plain, hb, beq_self_eq_true, Bool.true_and, bne_iff_ne, ne_eq, hi, not_false_eq_true, Bool.false_eq_true,
    if_false, if_true]

/-- The TWIN check passes. -/
theorem notOtherTwin (h : blk = blkTWIN → inst = 0) : (blk == blkTWIN && inst != 0) = false := by
  by_cases hb : blk = blkTWIN
  · simp only [h hb, bne_self_eq_false, Bool.and_false]
  · simp only [beq_false_of_ne hb, Bool.false_and]

/-- A FAULTED page refuses every command; TILE pages and octets have commands that run there (R74, R428; log 54). -/
theorem judge_faulted (plain : r.rsvd = false) (twin : blk = blkTWIN → inst = 0)
    (faulted : s.faulted.contains (State.pk blk inst) = true) (tile : blk ≠ blkTILE) (octet : blk ≠ blkOCTET) :
    judge r blk inst eff s = .fail s 0x0A := by
  unfold judge downOctet
  simp only [plain, notOtherTwin twin, faulted, bne_iff_ne.2 tile, beq_false_of_ne octet, Bool.false_and, Bool.not_false,
    Bool.and_self, Bool.false_eq_true, if_false, if_true]

/-- A page not enabled, or of another personality, refuses every command; the BOOT page has commands that run there (R410;
log 80). -/
theorem judge_notServing (plain : r.rsvd = false) (twin : blk = blkTWIN → inst = 0)
    (sound : s.faulted.contains (State.pk blk inst) = false)
    (off : s.enabled blk inst = false ∨ pageActive s blk inst = false) (boot : blk ≠ blkBOOT) :
    judge r blk inst eff s = .fail s 0x04 := by
  have notServed : (!s.enabled blk inst || !pageActive s blk inst) = true := by
    rcases off with h | h <;> simp only [h, Bool.not_false, Bool.true_or, Bool.or_true]
  unfold judge pushCommand
  simp only [plain, notOtherTwin twin, sound, notServed, beq_false_of_ne boot, Bool.false_and, Bool.not_false,
    Bool.and_self, Bool.false_eq_true, if_false, if_true]

end

/-- Settles O44: the four checks in the order of `judge`, on the state in which the command has begun. -/
theorem entryRefusals : Obligations.EntryRefusals := by
  intro s b i blk op inst c row hinst takes now hb
  subst hinst hb
  obtain ⟨eff, run⟩ := pageRow_exec row
  have refused {code : Nat} (refusal : judge (begunCmd c blk c.inst.toNat op s) blk c.inst.toNat eff
      (begun c blk c.inst.toNat op s) = .fail (begun c blk c.inst.toNat op s) code) : exec i s =
      .next (settle (endCommand (begun c blk c.inst.toNat op s) (State.pk blk c.inst.toNat) code none)) := by
    rw [run, pageCommand_refused eff takes now refusal]
  have same := begun_regs c blk c.inst.toNat op s
  have sameFaulted := begun_faulted c blk c.inst.toNat op s
  have unmarked : PlainCommand c → (begunCmd c blk c.inst.toNat op s).rsvd = false := (begunCmd_rsvd c blk _ op s).2
  refine ⟨fun reserved => ?_, fun plain twin other => ?_, fun plain twin faulted tile octet => ?_,
    fun plain twin sound off boot => ?_⟩
  · exact refused (judge_reserved eff (Bool.not_eq_false _ ▸ mt (begunCmd_rsvd c blk _ op s).1 reserved))
  · exact refused (judge_otherTwin eff (unmarked plain) twin other)
  · exact refused (judge_faulted eff (unmarked plain) twin (sameFaulted ▸ faulted) tile octet)
  · refine refused (judge_notServing eff (unmarked plain) twin (sameFaulted ▸ sound) ?_ boot)
    rw [enabled_regs same, pageActive_regs same]
    exact off

/-! ## A command that runs (R56, R57) -/

theorem setRunning_hd (s : State) (m : Tbl Running) (blk inst off : Nat) :
    ({ s with running := m } : State).hd blk inst off = s.hd blk inst off :=
  congrArg BitVec.toNat (setRunning_rdA s m _)

/-- PG_CMD_STAT holds the TAG and OPCODE of a command that has begun. -/
theorem begun_cmdStat (c : CmdIn) (blk inst : Nat) {op : Nat} (s : State) (hop : op < 256) :
    (begun c blk inst op s).hd blk inst 0x24 = c.hi.toNat / 256 % 256 * 65536 + op * 256 := by
  have stored : (begun c blk inst op s).hd blk inst 0x24 =
      ((begunCmd c blk inst op s).tag.toNat * 65536 + op * 256) % 4294967296 :=
    (setRunning_hd _ _ blk inst 0x24).trans (State.hd_hdw_self _ blk inst 0x24 _)
  have tag : (begunCmd c blk inst op s).tag.toNat = c.hi.toNat / 256 % 256 := BitVec.toNat_ofNat _ _
  rw [stored, tag]
  omega

/-- Settles O45: a command left running (log 5) is the one that has begun, and BUSY follows from it. -/
theorem runningCommandShowsBusy : Obligations.RunningCommandShowsBusy := by
  intro s i blk op c row takes deferred
  obtain ⟨eff, run⟩ := pageRow_exec row
  refine ⟨by rw [run, pageCommand_taken eff takes, if_pos deferred], ?_⟩
  rw [headerReg_cmdStat, begun_running, begun_cmdStat c blk _ s (pageRow_opcode row)]
  simp only [Option.isSome_some, b2n, if_true]
  omega

/-! ## The data window (R57) -/

/-- The words of a data window, written one after another. -/
def writeWords (blk inst n : Nat) (f : Nat → Nat) (s : State) : State :=
  (List.range n).foldl (fun (s : State) (i : Nat) => s.hdw blk inst (0x40 + 4 * i) (f i)) s

theorem writeWords_succ (blk inst n : Nat) (f : Nat → Nat) (s : State) :
    writeWords blk inst (n + 1) f s = (writeWords blk inst n f s).hdw blk inst (0x40 + 4 * n) (f n) := by
  unfold writeWords
  rw [List.range_succ, List.foldl_append]
  rfl

theorem hd_writeWords (blk inst : Nat) {n j : Nat} (f : Nat → Nat) (s : State) (h : j < n) :
    (writeWords blk inst n f s).hd blk inst (0x40 + 4 * j) = f j % 4294967296 := by
  induction n with
  | zero => omega
  | succ n ih =>
    rw [writeWords_succ]
    by_cases last : j = n
    · rw [last, State.hd_hdw_self]
    · rw [State.hd_hdw_other _ _ _ _ (by omega), ih (by omega)]

/-- Word `i` of a window that holds the qwords `d`. -/
def windowWord (d : List Dword) (i : Nat) : Nat := qw (padQ d 8) (i / 2) / 2 ^ (32 * (i % 2))

/-- A list read within its length gives its element, whatever the default. -/
theorem getD_within {α : Type} {l : List α} {i : Nat} (a : α) (h : i < l.length) : l.getD i a = l[i] := by
  rw [List.getD_eq_getElem?_getD, List.getElem?_eq_getElem h, Option.getD_some]

theorem padQ_self (d : List Dword) : padQ d d.length = d := by
  unfold padQ
  refine List.ext_getElem (by simp only [List.length_map, List.length_range]) fun i _ h => ?_
  simp only [List.getElem_map, List.getElem_range, getD_within _ h]

/-- The data window is made of its 16 words. -/
theorem dataWindow_of_words {s : State} {blk inst : Nat} {d : List Dword} (hd : d.length = 8)
    (h : ∀ j < 16, s.hd blk inst (0x40 + 4 * j) = windowWord d j % 4294967296) : dataWindow s blk inst = d := by
  have padded : padQ d 8 = d := hd ▸ padQ_self d
  unfold dataWindow
  refine List.ext_getElem (by simp only [List.length_map, List.length_range, hd]) fun i _ hi => ?_
  have qword : qw d i = d[i].toNat := by unfold qw; rw [getD_within _ hi]
  have low : s.hd blk inst (0x40 + 8 * i) = d[i].toNat % 4294967296 := by
    have e := h (2 * i) (by omega)
    rw [windowWord, padded, show 2 * i / 2 = i by omega, show 2 * i % 2 = 0 by omega, qword] at e
    rw [show 0x40 + 8 * i = 0x40 + 4 * (2 * i) by omega, e, Nat.mul_zero, Nat.pow_zero, Nat.div_one]
  have high : s.hd blk inst (0x44 + 8 * i) = d[i].toNat / 4294967296 % 4294967296 := by
    have e := h (2 * i + 1) (by omega)
    rw [windowWord, padded, show (2 * i + 1) / 2 = i by omega, show (2 * i + 1) % 2 = 1 by omega, qword,
      Nat.mul_one] at e
    rw [show 0x44 + 8 * i = 0x40 + 4 * (2 * i + 1) by omega]
    exact e
  have bound := d[i].isLt
  simp only [List.getElem_map, List.getElem_range, low, high]
  refine BitVec.eq_of_toNat_eq ?_
  rw [dw, BitVec.toNat_ofNat]
  omega

/-! ## A command that ends (R56, R57) -/

theorem endCommand_shows {s : State} {p : Nat} {r : Running} (res : Nat) (ret : Option (List Dword))
    (h : Tbl.get? s.running p = some r) :
    endCommand s p res ret = showResult { s with running := Tbl.del s.running p } p r res ret := by
  unfold endCommand
  rw [h]

/-- What a command returns is in the window before its result shows. -/
def returned (blk inst : Nat) (ret : Option (List Dword)) (s : State) : State :=
  match ret with
  | some d => writeWords blk inst 16 (windowWord d) s
  | none => s

theorem returned_keeps {β : Type} (g : State → β) (blk inst : Nat) (h : ∀ s off v, g (s.hdw blk inst off v) = g s)
    (ret : Option (List Dword)) (s : State) : g (returned blk inst ret s) = g s := by
  cases ret with
  | none => rfl
  | some d => exact foldl_keeps g _ (fun s i => h s _ _) _ s

theorem showResult_page (s : State) (blk : Nat) {inst : Nat} (h : inst < 512) (r : Running) (res : Nat)
    (ret : Option (List Dword)) : showResult s (State.pk blk inst) r res ret =
      ((returned blk inst ret s).hdw blk inst 0x24 (r.tag.toNat * 65536 + r.op.toNat * 256 + res)).istat blk inst 31 := by
  unfold showResult
  rw [State.pkBlk_pk blk h, State.pkInst_pk blk h]
  cases ret <;> rfl

/-- A result shows through PG_CMD_STAT and PG_ISTAT; other registers are those that hold what was returned. -/
theorem showResult_hd_other (s : State) (blk : Nat) {inst off : Nat} (h : inst < 512) (r : Running) (res : Nat)
    (ret : Option (List Dword)) (hs : off ≠ 0x24) (hi : off ≠ 0x10) :
    (showResult s (State.pk blk inst) r res ret).hd blk inst off = (returned blk inst ret s).hd blk inst off := by
  rw [showResult_page s blk h, State.hd_istat_other _ _ _ _ hi, State.hd_hdw_other _ _ _ _ hs]

/-- What every header write of its page keeps, a result keeps. -/
theorem showResult_keeps {β : Type} (g : State → β) (blk : Nat) {inst : Nat} (h : inst < 512)
    (hg : ∀ s off v, g (s.hdw blk inst off v) = g s) (s : State) (r : Running) (res : Nat) (ret : Option (List Dword)) :
    g (showResult s (State.pk blk inst) r res ret) = g s := by
  rw [showResult_page s blk h]
  exact (hg _ _ _).trans ((hg _ _ _).trans (returned_keeps g blk inst hg ret s))

theorem showResult_cmdStat (s : State) (blk : Nat) {inst res : Nat} (h : inst < 512) (hres : res < 256) (r : Running)
    (ret : Option (List Dword)) : (showResult s (State.pk blk inst) r res ret).hd blk inst 0x24 =
      r.tag.toNat * 65536 + r.op.toNat * 256 + res := by
  have tag := r.tag.isLt
  have op := r.op.isLt
  rw [showResult_page s blk h, State.hd_istat_other _ _ _ _ (by omega), State.hd_hdw_self]
  omega

/-- Settles O46: the end of a command is `showResult` on the state without it. -/
theorem commandEndShows : Obligations.CommandEndShows := by
  intro s blk inst res r hinst hres running
  have shows (ret : Option (List Dword)) := endCommand_shows res ret running
  refine ⟨fun ret u hu => ?_, fun d hd => ?_, ?_⟩
  · have notRunning : u.running = Tbl.del s.running (State.pk blk inst) := hu ▸ endCommand_running s _ res ret r running
    have stat : u.hd blk inst 0x24 = r.tag.toNat * 65536 + r.op.toNat * 256 + res := by
      rw [hu, shows, showResult_cmdStat _ _ hinst hres]
    refine ⟨?_, notRunning, ?_, ?_, ?_⟩
    · rw [headerReg_cmdStat, notRunning, Tbl.get?_del_self, stat]
      exact Nat.add_zero _
    · rw [hu, shows, showResult_page _ _ hinst]
      exact State.bit_istat_self _ _ _ (by omega)
    · rw [hu, shows]
      exact showResult_keeps State.mem blk hinst (fun s off v => State.hdw_mem s blk inst off v) _ r res ret
    · rw [hu, shows]
      exact showResult_keeps State.out blk hinst (fun s off v => State.hdw_out s blk inst off v) _ r res ret
  · refine dataWindow_of_words hd fun j hj => ?_
    rw [shows, showResult_hd_other _ _ hinst _ _ _ (by omega) (by omega)]
    exact hd_writeWords blk inst (windowWord d) _ hj
  · have word (off : Nat) (hs : off ≠ 0x24) (hi : off ≠ 0x10) :
        (endCommand s (State.pk blk inst) res none).hd blk inst off = s.hd blk inst off := by
      rw [shows, showResult_hd_other _ _ hinst _ _ _ hs hi]
      exact setRunning_hd s _ blk inst off
    unfold dataWindow
    refine List.map_congr_left fun i _ => ?_
    rw [word _ (by omega) (by omega), word _ (by omega) (by omega)]

end Sys2Proof.Machine
end

section
/-! PROOFS. Commands that only read: what a page command leaves of everything but its page's header (R48, R54 to R57, R66). -/

namespace Sys2Proof.Machine

/-! ## A state but for page registers and running commands -/

namespace State

@[simp] theorem sansPages_wrA (s : State) (a : Nat) (v : Word) : (s.wrA a v).sansPages = s.sansPages := rfl
@[simp] theorem sansPages_wr (s : State) (r : RegId) (i v k : Nat) : (s.wr r i v k).sansPages = s.sansPages :=
  sansPages_wrA s _ _
@[simp] theorem sansPages_hdw (s : State) (b i o v : Nat) : (s.hdw b i o v).sansPages = s.sansPages := sansPages_wr s _ _ _ _
@[simp] theorem sansPages_istat (s : State) (b i n : Nat) : (s.istat b i n).sansPages = s.sansPages :=
  sansPages_hdw s _ _ _ _
@[simp] theorem sansPages_bumpErr (s : State) (b i n k : Nat) : (s.bumpErr b i n k).sansPages = s.sansPages := by
  rcases bumpErr_cases s b i n k with e | e
  · rw [e, sansPages_hdw]
  · rw [e, sansPages_istat, sansPages_hdw]
@[simp] theorem sansPages_bumpUnpop (s : State) (n : Nat) : (bumpUnpop s n).sansPages = s.sansPages := sansPages_wr s _ _ _ _
theorem sansPages_setRunning (s : State) (m : Tbl Running) : ({ s with running := m } : State).sansPages = s.sansPages := rfl

end State

open State

/-- The registers that no command's words and results touch: those of other pages, and those from 0x80 on. -/
def OutsideHeader (blk inst a : Nat) : Prop := a / 4096 ≠ State.pk blk inst ∨ 0x80 ≤ a % 4096

/-- A header register of the page is none of them. -/
theorem OutsideHeader.ne_addr {blk inst off a : Nat} (h : OutsideHeader blk inst a) (hoff : off < 0x80) :
    a ≠ State.addr (blk, off) inst 0 := by
  unfold OutsideHeader State.pk at h
  simp only [State.addr]
  omega

/-- A page keeps to its header from one state to another: only registers of the header below 0x80 and the running commands
differ. -/
def KeepsToHeader (blk inst : Nat) (s t : State) : Prop :=
  t.sansPages = s.sansPages ∧ SameRegs (OutsideHeader blk inst) s t

section
variable {blk inst : Nat} {s t : State}

theorem KeepsToHeader.refl (blk inst : Nat) (s : State) : KeepsToHeader blk inst s s := ⟨rfl, fun _ _ => rfl⟩

theorem KeepsToHeader.hdw (h : KeepsToHeader blk inst s t) {off : Nat} (v : Nat) (hoff : off < 0x80) :
    KeepsToHeader blk inst s (t.hdw blk inst off v) := by
  obtain ⟨rest, regs⟩ := h
  exact ⟨(sansPages_hdw _ _ _ _ _).trans rest,
    fun a ha => (rdA_hdw_other t blk inst off v (ha.ne_addr hoff)).trans (regs a ha)⟩

theorem KeepsToHeader.setRunning (h : KeepsToHeader blk inst s t) (m : Tbl Running) :
    KeepsToHeader blk inst s { t with running := m } := by
  obtain ⟨rest, regs⟩ := h
  exact ⟨(sansPages_setRunning t m).trans rest, fun a ha => (setRunning_rdA t m a).trans (regs a ha)⟩

theorem KeepsToHeader.putArg (h : KeepsToHeader blk inst s t) {off : Nat} (o : Option Word) (hoff : off < 0x80) :
    KeepsToHeader blk inst s (Machine.putArg blk inst off o t) := by
  cases o with
  | none => exact h
  | some w => exact h.hdw _ hoff

/-- Words written to the data window keep to the header. -/
theorem KeepsToHeader.writeWords (h : KeepsToHeader blk inst s t) (f : Nat → Nat) {n : Nat} (hn : n ≤ 16) :
    KeepsToHeader blk inst s (Machine.writeWords blk inst n f t) := by
  induction n with
  | zero => exact h
  | succ n ih =>
    rw [writeWords_succ]
    exact (ih (by omega)).hdw _ (by omega)

theorem KeepsToHeader.putData (h : KeepsToHeader blk inst s t) (d : List Dword) :
    KeepsToHeader blk inst s (Machine.putData blk inst d t) :=
  h.writeWords (fun i => qw d (i / 2) / 2 ^ (32 * (i % 2))) (Nat.min_le_left 16 _)

/-- A command that begins keeps to its page's header. -/
theorem KeepsToHeader.begun (c : CmdIn) (blk inst op : Nat) (s : State) :
    KeepsToHeader blk inst s (Machine.begun c blk inst op s) := by
  have latched : KeepsToHeader blk inst s (latchArgs c blk inst s) :=
    (((KeepsToHeader.refl blk inst s).putArg c.arg0 (by omega)).putArg c.arg1 (by omega)).putData c.data
  have put : KeepsToHeader blk inst s (putCmd c blk inst op (latchArgs c blk inst s)) := latched.hdw _ (by omega)
  unfold Machine.begun beginCommand runCommand
  exact (put.hdw _ (by omega)).setRunning _

/-- A command that ends keeps to its page's header. -/
theorem KeepsToHeader.endCommand (h : KeepsToHeader blk inst s t) (hinst : inst < 512) (res : Nat)
    (ret : Option (List Dword)) : KeepsToHeader blk inst s (Machine.endCommand t (State.pk blk inst) res ret) := by
  cases running : Tbl.get? t.running (State.pk blk inst) with
  | none =>
    unfold Machine.endCommand
    rw [running]
    exact h
  | some r =>
    rw [endCommand_shows res ret running, showResult_page _ _ hinst]
    have shown : KeepsToHeader blk inst s (returned blk inst ret { t with running := Tbl.del t.running (State.pk blk inst) }) := by
      cases ret with
      | none => exact h.setRunning _
      | some d => exact (h.setRunning _).writeWords _ (Nat.le_refl 16)
    exact (shown.hdw _ (by omega)).hdw _ (by omega)

end

/-! ## Effects that only read -/

/-- A result that leaves the state as it is and does not wait. -/
def CmdRes.Leaves (o : CmdRes) (s : State) : Prop := o.st = s ∧ o.wait = false

theorem leaves_data (s : State) (d : List Dword) : (CmdRes.data s d).Leaves s := ⟨rfl, rfl⟩
theorem leaves_fail (s : State) (code : Nat) : (CmdRes.fail s code).Leaves s := ⟨rfl, rfl⟩

section
variable {c : CmdCtx} {s : State}

theorem leaves_ite {p : Prop} [Decidable p] {x y : CmdRes} (hx : x.Leaves s) (hy : y.Leaves s) :
    (if p then x else y).Leaves s := by
  split <;> assumption

theorem leaves_ckArgs {m0 m1 : Nat} {k : CmdRes} (h : k.Leaves s) : (ckArgs c s m0 m1 k).Leaves s :=
  leaves_ite (leaves_fail s 0x03) h

/-- Returning data once the arguments are checked, and nothing else. -/
theorem leaves_checkedData (m0 m1 : Nat) (d : List Dword) : (ckArgs c s m0 m1 (.data s d)).Leaves s :=
  leaves_ckArgs (leaves_data s d)

/-- Returning data once the arguments are checked, unless a condition refuses. -/
theorem leaves_checkedElse (m0 m1 code : Nat) (p : Prop) [Decidable p] (d : List Dword) :
    (ckArgs c s m0 m1 (if p then .fail s code else .data s d)).Leaves s :=
  leaves_ckArgs (leaves_ite (leaves_fail s code) (leaves_data s d))

theorem leaves_onQueue {f : Nat → Queue → CmdRes} (h : ∀ k q, (f k q).Leaves s) : (onQueue c s f).Leaves s := by
  unfold onQueue
  split
  · exact leaves_fail s _
  · exact h _ _

theorem leaves_onQp {f : Nat → Qp → CmdRes} (h : ∀ n q, (f n q).Leaves s) : (onQp c s f).Leaves s := by
  unfold onQp
  refine leaves_ite (leaves_fail s _) ?_
  split
  · exact leaves_fail s _
  · exact h _ _

theorem leaves_onKey {f : Nat → CmdRes} (h : ∀ a, (f a).Leaves s) : (onKey c s f).Leaves s :=
  leaves_ite (leaves_fail s _) (leaves_ite (leaves_fail s _) (leaves_ite (leaves_fail s _) (h _)))

end

/-- An effect of a command that only reads. -/
def OnlyReads (eff : CmdCtx → State → CmdRes) : Prop := ∀ c s, (eff c s).Leaves s

theorem cmdQuery_reads : OnlyReads cmdQuery := by
  intro c s
  refine leaves_ckArgs ?_
  simp only
  split
  · exact leaves_data s _
  · exact leaves_fail s _

theorem cmdCtxQuery_reads : OnlyReads cmdCtxQuery := by
  intro c s
  refine leaves_ckArgs ?_
  split <;> exact leaves_data s _

theorem cmdCtrlQuery_reads : OnlyReads cmdCtrlQuery := by
  intro c s
  refine leaves_ckArgs ?_
  split
  · exact leaves_fail s _
  · exact leaves_data s _

theorem cmdRlQuery_reads : OnlyReads cmdRlQuery := by
  intro c s
  refine leaves_ckArgs ?_
  split
  · exact leaves_fail s _
  · exact leaves_data s _

theorem cmdSlotRead_reads : OnlyReads cmdSlotRead := by
  intro c s
  refine leaves_ckArgs (leaves_ite (leaves_fail s _) ?_)
  split <;> exact leaves_data s _

theorem cmdUnitQuery_reads : OnlyReads cmdUnitQuery := by
  intro c s
  refine leaves_ckArgs ?_
  split
  · exact leaves_fail s _
  · exact leaves_data s _

/-! ## The frame -/

/-- The judgement of a command that only reads leaves the state: it refuses, or the effect reads. -/
theorem judge_leaves {eff : CmdCtx → State → CmdRes} (reads : OnlyReads eff) (r : Running) (blk inst : Nat) (s : State) :
    (judge r blk inst eff s).Leaves s :=
  leaves_ite (leaves_fail s _) (leaves_ite (leaves_fail s _) (leaves_ite (leaves_fail s _)
    (leaves_ite (leaves_fail s _) (reads _ s))))

/-- A command that only reads, on a page that takes it, keeps to the page's header. -/
theorem pageCommand_keepsToHeader {blk op : Nat} {eff : CmdCtx → State → CmdRes} (reads : OnlyReads eff) {c : CmdIn}
    {s : State} (takes : TakesCommand s c.who blk c.inst.toNat) :
    KeepsToHeader blk c.inst.toNat s (pageCommand blk op eff c s) := by
  have began := KeepsToHeader.begun c blk c.inst.toNat op s
  rw [pageCommand_taken eff takes]
  split
  · exact began
  · obtain ⟨same, ends⟩ := judge_leaves reads (begunCmd c blk c.inst.toNat op s) blk c.inst.toNat
      (begun c blk c.inst.toNat op s)
    unfold conclude
    rw [ends, same]
    exact began.endCommand c.inst.isLt _ _

/-- However it ends, a command that only reads changes page registers and running commands alone. -/
theorem pageCommand_sansPages {blk op : Nat} {eff : CmdCtx → State → CmdRes} (reads : OnlyReads eff) (c : CmdIn)
    (s : State) : (pageCommand blk op eff c s).sansPages = s.sansPages := by
  rcases pageCommand_cases blk op eff c s with ⟨p, -, e⟩ | e | e | e | e | takes
  · rw [e, sansPages_bumpErr]
  · rw [e, sansPages_bumpUnpop]
  · rw [e, sansPages_bumpErr]
  · rw [e, deniedCommand, sansPages_istat, sansPages_hdw, sansPages_bumpErr]
  · rw [e, sansPages_bumpErr]
  · exact (pageCommand_keepsToHeader reads takes).1

/-- What `Obligations.ReadCommandsFrame` says of one row. -/
def ReadFrame (c : CmdIn) (s : State) (i : Instr) : Prop :=
  ∃ blk op u, pageRow s i = some (blk, op, c) ∧ exec i s = .next (settle u) ∧ u.sansPages = s.sansPages ∧
    (TakesCommand s c.who blk c.inst.toNat →
      ∀ a, a / 4096 ≠ State.pk blk c.inst.toNat ∨ 0x80 ≤ a % 4096 → u.rdA a = s.rdA a)

theorem readFrame_of_reads {c : CmdIn} {s : State} {i : Instr} {blk op : Nat} (eff : CmdCtx → State → CmdRes)
    (reads : OnlyReads eff) (row : pageRow s i = some (blk, op, c))
    (run : exec i s = .next (settle (pageCommand blk op eff c s))) : ReadFrame c s i :=
  ⟨blk, op, _, row, run, pageCommand_sansPages reads c s, fun takes => (pageCommand_keepsToHeader reads takes).2⟩

/-- Settles O55: each of the rows is a page command whose effect only reads. -/
theorem readCommandsFrame : Obligations.ReadCommandsFrame := by
  intro c s
  change ∀ i ∈ _, ReadFrame c s i
  simp only [List.forall_mem_cons, List.not_mem_nil, false_imp_iff, implies_true, and_true]
  exact ⟨
    readFrame_of_reads cmdQuery cmdQuery_reads rfl rfl,
    readFrame_of_reads cmdWinRead (fun _ _ => leaves_checkedData _ _ _) rfl rfl,
    readFrame_of_reads cmdQQuery (fun _ _ => leaves_ckArgs (leaves_onQueue fun _ _ => leaves_data _ _)) rfl rfl,
    readFrame_of_reads cmdNodeRead (fun _ _ => leaves_checkedElse _ _ _ _ _) rfl rfl,
    readFrame_of_reads cmdPortQuery (fun _ _ => leaves_checkedData _ _ _) rfl rfl,
    readFrame_of_reads cmdKeyprofRead (fun _ _ => leaves_checkedData _ _ _) rfl rfl,
    readFrame_of_reads cmdRangeRead (fun _ _ => leaves_checkedData _ _ _) rfl rfl,
    readFrame_of_reads cmdArecRead (fun _ _ => leaves_checkedElse _ _ _ _ _) rfl rfl,
    readFrame_of_reads cmdTmplRead (fun _ _ => leaves_checkedData _ _ _) rfl rfl,
    readFrame_of_reads cmdHprofRead (fun _ _ => leaves_checkedData _ _ _) rfl rfl,
    readFrame_of_reads cmdTkeyRead (fun _ _ => leaves_checkedData _ _ _) rfl rfl,
    readFrame_of_reads cmdPgrpRead (fun _ _ => leaves_checkedData _ _ _) rfl rfl,
    readFrame_of_reads cmdStblRead (fun _ _ => leaves_checkedData _ _ _) rfl rfl,
    readFrame_of_reads cmdVportRead (fun _ _ => leaves_checkedElse _ _ _ _ _) rfl rfl,
    readFrame_of_reads cmdQpQuery (fun _ _ => leaves_ckArgs (leaves_onQp fun _ _ => leaves_data _ _)) rfl rfl,
    readFrame_of_reads cmdMkeyRead (fun _ _ => leaves_ckArgs (leaves_onKey fun _ => leaves_data _ _)) rfl rfl,
    readFrame_of_reads cmdTquotaRead (fun _ _ => leaves_checkedData _ _ _) rfl rfl,
    readFrame_of_reads cmdCtxQuery cmdCtxQuery_reads rfl rfl,
    readFrame_of_reads cmdCtrlQuery cmdCtrlQuery_reads rfl rfl,
    readFrame_of_reads cmdRlQuery cmdRlQuery_reads rfl rfl,
    readFrame_of_reads cmdSlotRead cmdSlotRead_reads rfl rfl,
    readFrame_of_reads cmdSaRead (fun _ _ => leaves_checkedData _ _ _) rfl rfl,
    readFrame_of_reads cmdQcfgRead (fun _ _ => leaves_checkedData _ _ _) rfl rfl,
    readFrame_of_reads cmdRegionRead (fun _ _ => leaves_checkedData _ _ _) rfl rfl,
    readFrame_of_reads cmdDlyRead (fun _ _ => leaves_checkedElse _ _ _ _ _) rfl rfl,
    readFrame_of_reads cmdDlyRead (fun _ _ => leaves_checkedElse _ _ _ _ _) rfl rfl,
    readFrame_of_reads cmdTenantQuery (fun _ _ => leaves_checkedData _ _ _) rfl rfl,
    readFrame_of_reads cmdFuncQuery (fun _ _ => leaves_checkedData _ _ _) rfl rfl,
    readFrame_of_reads cmdMtrRead (fun _ _ => leaves_checkedData _ _ _) rfl rfl,
    readFrame_of_reads cmdPolRead (fun _ _ => leaves_checkedElse _ _ _ _ _) rfl rfl,
    readFrame_of_reads cmdBootLogRead (fun _ _ => leaves_data _ _) rfl rfl,
    readFrame_of_reads cmdImportPub (fun _ _ => leaves_checkedData _ _ _) rfl rfl,
    readFrame_of_reads cmdMeasureRead (fun _ _ => leaves_ite (leaves_fail _ _) (leaves_data _ _)) rfl rfl,
    readFrame_of_reads cmdFaultLogRead (fun _ _ => leaves_data _ _) rfl rfl,
    readFrame_of_reads cmdUnitQuery cmdUnitQuery_reads rfl rfl⟩

end Sys2Proof.Machine
end

section
/-! PROOFS. Settling's frame, register writes that their page refuses, the addresses of registers, and the rows that end a
running command (R47 to R49, R55, R56, R60, R63, R65, R66, R97, R341). -/

namespace Sys2Proof.Machine

/-! ## Settling (R63, R65, R97, R341) -/

/-- Settles O40: `State.still` is kept by each part of settling: messages, wires, reference outputs and FAULT_N. -/
theorem settleFrame : Obligations.SettleFrame := by
  intro s
  unfold settle
  simp only [still_driveFault, still_refOutputs, still_wires, State.still_setTypePend, still_gather]

/-! ## Register writes refused (R48, R49, R55, R66) -/

section
variable {s : State} {who : Requester} {addr : Nat} (v event : Nat)

theorem busWrite_unpopulated (whole : Bool) (hcf : cfInReset s who = none)
    (h : pageCount (addr / 2097152) ≤ addr / 4096 % 512) : busWrite who addr whole v event s = bumpUnpop s := by
  unfold busWrite throughCf
  simp only [hcf, if_pos h]

theorem busWrite_misaligned {whole : Bool} (hcf : cfInReset s who = none)
    (hpop : addr / 4096 % 512 < pageCount (addr / 2097152)) (h : addr % 4 ≠ 0 ∨ whole = false) :
    busWrite who addr whole v event s = s.bumpErr (addr / 2097152) (addr / 4096 % 512) 29 := by
  have misaligned : addr % 4096 % 4 ≠ 0 ∨ (!whole) = true := by
    rcases h with h | h
    · exact .inl (by omega)
    · exact .inr (by rw [h]; rfl)
  unfold busWrite throughCf
  simp only [hcf, if_neg (Nat.not_le.2 hpop), if_pos misaligned]

theorem busWrite_denied (hcf : cfInReset s who = none) (hpop : addr / 4096 % 512 < pageCount (addr / 2097152))
    (hal : addr % 4 = 0) (hcmd : addr % 4096 ≠ 0x20) (h : mayWrite s who (addr / 2097152) = false) :
    busWrite who addr true v event s = s.bumpErr (addr / 2097152) (addr / 4096 % 512) 28 := by
  have aligned : addr % 4096 % 4 = 0 := by omega
  unfold busWrite throughCf
  simp only [hcf, if_neg (Nat.not_le.2 hpop), aligned, hcmd, h, ne_eq, not_true_eq_false, Bool.not_true, Bool.not_false,
    Bool.false_eq_true, or_self, if_false, if_true]

end

/-- A register write does what its write on the register bus comes to. -/
theorem registerWrite_bus {s : State} {who : Requester} {a : BitVec 29} {v : Word} {whole : Bool} {k : State → State}
    (h : busWrite who a.toNat whole v.toNat 0 s = k s) :
    exec (.registerWrite who (.page a) whole v) s = .next (settle (withResets k s)) :=
  congrArg ok (withResets_congr h)

/-- Settles O47: the first of the three checks that fails decides, the width and alignment before ACCESS (log 86). -/
theorem refusedWritesCount : Obligations.RefusedWritesCount := by
  intro s who a v whole blk inst hblk hinst hcf
  subst hblk hinst
  refine ⟨fun unpopulated => ?_, fun populated misaligned => ?_, fun populated aligned all notCmd denied => ?_⟩
  · exact registerWrite_bus (busWrite_unpopulated _ _ whole hcf unpopulated)
  · exact registerWrite_bus (busWrite_misaligned _ _ hcf populated misaligned)
  · subst all
    exact registerWrite_bus (busWrite_denied _ _ hcf populated aligned notCmd denied)

/-! ## Addresses (R47) -/

/-- A number appended below another stands in the low bits. -/
theorem toNat_append_eq {m n : Nat} (x : BitVec m) (y : BitVec n) : (x ++ y).toNat = x.toNat * 2 ^ n + y.toNat := by
  rw [BitVec.toNat_append, ← Nat.shiftLeft_add_eq_or_of_lt y.isLt, Nat.shiftLeft_eq]

/-- The three fields of a register's address, read back from it. -/
theorem register_address_fields (blk : BitVec 8) (inst : BitVec 9) (off : BitVec 12) :
    (blk ++ inst ++ off).toNat / 2097152 = blk.toNat ∧ (blk ++ inst ++ off).toNat / 4096 % 512 = inst.toNat ∧
      (blk ++ inst ++ off).toNat % 4096 = off.toNat := by
  have hinst := inst.isLt
  have hoff := off.isLt
  rw [toNat_append_eq, toNat_append_eq]
  omega

/-- Settles O49: the block type, page and offset that the register bus takes out of an address are those put into it. -/
theorem registerAddresses : Obligations.RegisterAddresses := by
  refine ⟨fun s who blk inst off v reaches aligned notCmd => ?_, rfl⟩
  obtain ⟨hblk, hinst, hoff⟩ := register_address_fields blk inst off
  refine registerWrite_runs _ (by rw [hblk, hinst]; exact reaches) (by omega) (by rw [hoff]; exact notCmd) ?_
  rw [hblk, hinst, hoff]

/-! ## The end of a running command (R56, R60) -/

/-- A command left running is judged when it ends, and has the effect of its opcode. -/
theorem commandEnds_judges {s : State} {blk inst : Nat} {r : Running} {eff : CmdCtx → State → CmdRes} (hinst : inst < 512)
    (running : Tbl.get? s.running (State.pk blk inst) = some r) (now : r.wait = false)
    (opcode : pageEffect blk r.op.toNat = some eff) :
    commandEnds (State.pk blk inst) s = conclude (judge r blk inst eff s) (State.pk blk inst) := by
  unfold commandEnds finish
  simp only [State.pkBlk_pk blk hinst, State.pkInst_pk blk hinst, running, now, opcode, Bool.false_eq_true, if_false]

/-- At its deadline a command ends with 0x09 and its page raises source 0; on QMGR and TWIN pages what a waiting command
waited for may go too (log 82). -/
theorem limitExpires_ends {s : State} {blk inst : Nat} {r : Running} (hinst : inst < 512)
    (running : Tbl.get? s.running (State.pk blk inst) = some r) (qmgr : blk ≠ blkQMGR) (twin : blk ≠ blkTWIN) :
    limitExpires (State.pk blk inst) s =
      raisePage (endCommand (s.reach (r.start + s.rd HUB.CMD_LIMIT * 1000)) (State.pk blk inst) 0x09 none) blk inst 0 := by
  unfold limitExpires
  simp only [State.pkBlk_pk blk hinst, State.pkInst_pk blk hinst, running, beq_false_of_ne qmgr, beq_false_of_ne twin,
    Bool.and_false, Bool.false_and, Bool.false_eq_true, if_false]

/-- Settles O2: both rows act on a populated page alone. -/
theorem commandEndRowsRun : Obligations.CommandEndRowsRun := by
  constructor
  · intro s pg r eff populated running now opcode
    exact congrArg ok (withResets_congr ((onPage_populated _ _ populated).trans
      (commandEnds_judges pg.inst.isLt running now opcode)))
  · intro s pg r populated running qmgr twin
    exact congrArg ok (withResets_congr ((onPage_populated _ _ populated).trans
      (limitExpires_ends pg.inst.isLt running qmgr twin)))

end Sys2Proof.Machine
end

section
/-! PROOFS. Octets and attachment: the positions that personalities may take, calibration, ports of D, E and T octets,
presence and links of host ports, PERST_N, quarantine, frames from the wire, requests of downstream devices (R69, R73 to
R87, R94, R96, R174). -/

namespace Sys2Proof.Machine

/-! ## Positions (R69, R73) -/

/-- A command that fails ends with its code and returns nothing. -/
theorem conclude_fail (s : State) (code p : Nat) : conclude (.fail s code) p = endCommand s p code none := rfl

/-- A personality that does not fit the position fails the check of UP with 0x49. -/
theorem upCheck_position {s : State} {o w : Nat} (h : posOk (o % 16) (persIn w) = false) : upCheck s o w = 0x49 := by
  unfold upCheck
  simp only [h, Bool.not_false, Bool.true_or, if_true]

/-- UP of an octet at rest that its check refuses counts in PG_ERRCNT0 and ends with the check's result. -/
theorem cmdUp_refused {c : CmdCtx} {s : State} {code : Nat} (rest : s.stateOf blkOCTET c.inst ≤ 1)
    (staged : persIn (s.rd OCTET.PERS_CTRL c.inst) ≠ 0)
    (check : upCheck s c.inst (s.rd OCTET.PERS_CTRL c.inst) = code) (hcode : code ≠ 0) :
    cmdUp c s = .fail (s.bumpErr blkOCTET c.inst 0) code := by
  unfold cmdUp
  simp only [if_neg (Nat.not_lt.2 rest), staged, and_false, if_false, check, if_pos hcode]

/-- The state of a page is no register. -/
theorem State.stateOf_sansPages (s : State) (b i : Nat) : s.sansPages.stateOf b i = s.stateOf b i := rfl

/-- A command that has begun leaves the state of every page. -/
theorem begun_stateOf (c : CmdIn) (blk inst op b i : Nat) (s : State) :
    (begun c blk inst op s).stateOf b i = s.stateOf b i := by
  obtain ⟨same, -⟩ := KeepsToHeader.begun c blk inst op s
  rw [← State.stateOf_sansPages, same, State.stateOf_sansPages]

/-- A command that has begun leaves what an octet is staged to become. -/
theorem begun_persCtrl (c : CmdIn) (blk inst op o : Nat) (s : State) :
    (begun c blk inst op s).rd OCTET.PERS_CTRL o = s.rd OCTET.PERS_CTRL o := by
  refine congrArg BitVec.toNat (begun_regs c blk inst op s _ (.inr ?_))
  simp only [State.addr]
  omega

/-- Settles O51: UP judges the octet on the state in which it has begun, where the octet's state and PERS_CTRL are those
before it; the check of the position comes first (`upCheck_position`). The result and the counter are R73's; the staged
codes 5 to 7, which name no personality, fit no position. -/
theorem positionsAdmit : Obligations.PositionsAdmit := by
  refine ⟨fun pos _ => ⟨?_, rfl, rfl, rfl⟩, ?_⟩
  · exact decide_eq_decide.2 Nat.lt_succ_iff
  · intro s c b hb takes serves plain now rest staged outside
    subst hb
    have refused : cmdUp (begunCtx c blkOCTET c.inst.toNat 0x01 s) (begun c blkOCTET c.inst.toNat 0x01 s) =
        .fail ((begun c blkOCTET c.inst.toNat 0x01 s).bumpErr blkOCTET c.inst.toNat 0) 0x49 := by
      rw [← begun_stateOf c blkOCTET c.inst.toNat 0x01] at rest
      rw [← begun_persCtrl c blkOCTET c.inst.toNat 0x01] at staged outside
      exact cmdUp_refused rest staged (upCheck_position outside) (by decide)
    have runs : CommandRuns (.up c) blkOCTET 0x01 cmdUp c s := commandRuns_of_exec rfl
    rw [runs takes serves plain now fun twin => absurd twin (by decide), refused, conclude_fail]

/-! ## Calibration (R74) -/

theorem calComplete_inCal {s : State} {o good : Nat} {offs : List Word} (h : s.stateOf blkOCTET o = 2) :
    calComplete o good offs s =
      (hostPorts (setOct (lanesMeasured s o good offs) o 3) o).foldl hostTraining
        (setOct (lanesMeasured s o good offs) o 3) := by
  unfold calComplete
  simp only [h]

theorem calComplete_recal {s : State} {o good : Nat} {offs : List Word} (h : s.stateOf blkOCTET o = 1)
    (waits : Waits s blkOCTET o 0x03) :
    calComplete o good offs s = endWaiting (lanesMeasured s o good offs) blkOCTET o 0x03 0 := by
  obtain ⟨r, hr⟩ := Option.isSome_iff_exists.1 waits
  unfold calComplete
  simp only [h, hr]

/-! ## A port of an octet comes up (R74, R86, R87) -/

section
variable {s : State} {o k : Nat} (gen width : Nat) (trains : 3 ≤ s.stateOf blkOCTET o)
  (down : (Tbl.getD s.octUp o []).contains k = false)
include trains down

theorem portUp_device (pers : persOf s o = 2) (here : k < dports s o) : portUp s o k gen width = octPortUp
    (((s.wr DPORT.DLLA o (s.rd DPORT.DLLA o ||| 2 ^ k)).wr DPORT.LINK o (min gen (s.rd DPORT.MAX_GEN o) + width * 16)
      k).istat blkDPORT o 0) o k := by
  unfold portUp
  simp only [down, pers, if_neg (Nat.not_lt.2 trains), if_neg (Nat.not_le.2 here), Bool.false_eq_true, or_false]

theorem portUp_ethernet (pers : persOf s o = 3) (here : (ethPorts s o).contains k = true) : portUp s o k gen width =
    octPortUp ((s.wr EMAC.LINK_UP o (s.rd EMAC.LINK_UP o ||| 2 ^ k)).istat blkEMAC o 0) o k := by
  unfold portUp
  simp only [down, pers, here, if_neg (Nat.not_lt.2 trains), Bool.not_true, Bool.false_eq_true, or_false, if_false]

theorem portUp_twin (pers : persOf s o = 4) (here : k = 0) : portUp s o k gen width =
    linkLocked (octPortUp s o 0) (linkOfOctet o) := by
  unfold portUp
  simp only [down, pers, if_neg (Nat.not_lt.2 trains), Bool.false_eq_true, or_false, if_pos here]

end

/-! ## A port of an octet is lost (R74, R86, R87, R391) -/

section
variable {s u : State} {o k : Nat} (up : (Tbl.getD s.octUp o []).contains k = true) (notHost : persOf s o ≠ 1)
  (hu : u = octPortDown s o k)
include up notHost hu

theorem portDown_device (pers : persOf u o = 2) : portDown s o k true = backingPortDown
    ((((u.wr DPORT.DLLA o (u.rd DPORT.DLLA o - (u.rd DPORT.DLLA o &&& 2 ^ k))).wr DPORT.LINK o 0 k).istat
      blkDPORT o 0).bumpErr blkDPORT o 0) o k := by
  subst hu
  unfold portDown
  simp only [up, notHost, pers, Bool.not_true, Bool.false_eq_true, if_false, if_true]

theorem portDown_ethernet (pers : persOf u o = 3) : portDown s o k true = dropTx
    (((u.wr EMAC.LINK_UP o (u.rd EMAC.LINK_UP o - (u.rd EMAC.LINK_UP o &&& 2 ^ k))).istat blkEMAC o 0).bumpErr
      blkEMAC o 1) (8 * o + k) := by
  subst hu
  unfold portDown
  simp only [up, notHost, pers, Bool.not_true, Bool.false_eq_true, if_false, if_true]

theorem portDown_twin (pers : persOf u o = 4) : portDown s o k true = linkDown u (linkOfOctet o) := by
  subst hu
  unfold portDown
  simp only [up, notHost, pers, Bool.not_true, Bool.false_eq_true, if_false]

end

/-! ## Presence (R77, R78, R80) -/

/-- A change of HPRSNT_N starts the debounce of the port it serves where the level differs from what the port was judged to
be, and else cancels it. -/
theorem presenceChange_served {s u : State} {o p : Nat} {level : Bool} (hu : u = setHprsnt s o level)
    (serves : pinPort u o = some p) : presenceChange o level s = setHport u p { hportOf u p with
      debounce := if (if level then (hportOf u p).quar == 1 || (hportOf u p).quar == 3
                      else (hportOf u p).quar == 0 || (hportOf u p).quar == 2) && !u.flt.halt
        then some (u.ns + u.rd OCTET.PRSNT_DEBOUNCE o * 1000) else none } := by
  subst hu
  unfold presenceChange
  simp only [serves]

section
variable {s u : State} {o p d : Nat} (serves : pinPort s o = some p) (runs : (hportOf s p).debounce = some d)
  (hu : u = setHport (s.reach d) p { hportOf (s.reach d) p with debounce := none })
include serves runs hu

/-- No cable at the end of the debounce: the port is removed. -/
theorem debounceEnds_absent (absent : presentPin u p = false) : debounceEnds o s = removal u p := by
  subst hu
  unfold debounceEnds
  simp only [serves, runs, absent, Bool.not_false, if_true]

/-- A cable at the end of the debounce, on octets that are up: the port attaches. -/
theorem debounceEnds_present (present : presentPin u p = true) (ready : octetsReady u p = true) :
    debounceEnds o s = attach u p := by
  subst hu
  unfold debounceEnds
  simp only [serves, runs, present, ready, Bool.not_true, Bool.false_eq_true, if_false, if_true]

end

/-! ## Links of host ports (R78, R80, R94, R96) -/

section
variable {s u : State} {p : Nat} (used : portUsed s p = true) (linked : (hportOf s p).l0 = true)
  (hu : u = hostLink s p false)
include used linked hu

/-- The link of a port that is not attached drops without grace. -/
theorem leaveL0_unattached (notAttached : (hportOf u p).quar ≠ 1) (notWaiting : (hportOf u p).quar ≠ 3)
    (noReset : u.stateOf blkHPORT p ≠ 5) : leaveL0 p s = u.setState blkHPORT p (idlePort u p) := by
  subst hu
  unfold leaveL0
  simp only [used, linked, notAttached, notWaiting, noReset, Bool.not_true, Bool.or_self, Bool.false_eq_true, or_self,
    false_and, if_false]

/-- The link of an attached port drops outside a fundamental reset: LINK_GRACE begins. -/
theorem leaveL0_graced {v : State} (attached : (hportOf u p).quar = 1 ∨ (hportOf u p).quar = 3)
    (high : perstLow u p = false)
    (hv : v = setHport u p { hportOf u p with grace := some (u.ns + u.rd OCTET.LINK_GRACE (octetOfPort p) * 1000) })
    (noReset : v.stateOf blkHPORT p ≠ 5) : leaveL0 p s = v.setState blkHPORT p (idlePort v p) := by
  subst hu hv
  unfold leaveL0
  simp only [used, linked, attached, high, Bool.not_true, Bool.not_false, Bool.or_self, Bool.false_eq_true, and_self,
    if_false, if_true, if_neg noReset]

end

theorem graceEnds_removes {s : State} {p d : Nat} (h : (hportOf s p).grace = some d) :
    graceEnds p s = removal (setHport (s.reach d) p { hportOf s p with grace := none }) p := by
  unfold graceEnds
  rw [h]

section
variable {s u : State} {p gen width : Nat} {flit : Bool} (used : portUsed s p = true) (may : mayTrain s p = true)
  (high : perstLow s p = false)
  (hu : u = hostLink (setHport s p { hportOf s p with gen := gen, width := width, flit := flit, grace := none }) p true)
include used may high hu

/-- A port whose host waits for acceptance goes to the early endpoint. -/
theorem linkTrained_waiting (waits : (hportOf u p).quar = 3) :
    linkTrained p gen width flit s = u.setState blkHPORT p 3 := by
  subst hu
  unfold linkTrained
  simp only [used, may, high, waits, Bool.not_true, Bool.or_self, Bool.false_eq_true, Nat.reduceEqDiff, if_false,
    if_true]

/-- A port that no presence pin serves attaches with its link. -/
theorem linkTrained_unserved (notAttached : (hportOf u p).quar ≠ 1) (notWaiting : (hportOf u p).quar ≠ 3)
    (unserved : pinServed u p = false) : linkTrained p gen width flit s = attach u p := by
  subst hu
  unfold linkTrained
  simp only [used, may, high, notAttached, notWaiting, unserved, Bool.not_true, Bool.not_false, Bool.or_self, Bool.true_or,
    Bool.false_eq_true, if_false, if_true]

/-- An attached port whose link was not in grace goes to the early endpoint, with no reset of its functions. -/
theorem linkTrained_attached (attached : (hportOf u p).quar = 1) (noGrace : (hportOf s p).grace = none)
    (notReady : u.stateOf blkHPORT p ≠ 4) : linkTrained p gen width flit s = u.setState blkHPORT p 3 := by
  subst hu
  unfold linkTrained
  simp only [used, may, high, attached, noGrace, notReady, Option.isSome_none, Bool.not_true, Bool.or_self,
    Bool.false_and, Bool.false_eq_true, false_and, if_false, if_true]

end

/-! ## PERST_N (R94, R96) -/

section
variable {s u : State} {o p : Nat} (hu : u = setPerst s o false) (serves : pinPort u o = some p)
include hu serves

theorem perstFalls_unattached (h : (hportOf u p).quar ≠ 1) : perstFalls o s =
    (hostLink (setHport u p { hportOf u p with grace := none }) p false).setState blkHPORT p
      (idlePort (hostLink (setHport u p { hportOf u p with grace := none }) p false) p) := by
  subst hu
  unfold perstFalls
  simp only [serves, if_pos h]

theorem perstFalls_attached (h : (hportOf u p).quar = 1) : perstFalls o s =
    (portReset (hostLink (setHport u p { hportOf u p with grace := none }) p false) p).setState blkHPORT p 5 := by
  subst hu
  unfold perstFalls
  simp only [serves, h, ne_eq, not_true_eq_false, if_false]

end

theorem perstRises_retrains {s u : State} {o p : Nat} (hu : u = setPerst s o true) (serves : pinPort u o = some p)
    (held : u.stateOf blkHPORT p = 5) (noLink : (hportOf u p).l0 = false) :
    perstRises o s = u.setState blkHPORT p (idlePort u p) := by
  subst hu
  unfold perstRises
  simp only [serves, held, noLink, Bool.not_false, and_self, if_true]

/-! ## Quarantine (R79 to R81) -/

/-- The expiry of a quarantined port purges what its host left. -/
theorem quarFire_quarantined {s : State} {p : Nat} (h : (hportOf s p).quar = 2) : quarFire s p =
    ((setHport (purge s p) p { hportOf (purge s p) p with quar := 0 }).bumpErr blkOCTET (octetOfPort p) 2).istat
      blkOCTET (octetOfPort p) 3 := by
  unfold quarFire
  simp only [h]

theorem execQuarantineExpiry_due {s : State} {p : Fin 128} {n : Nat} {e : CalEvent} (h : Due s blkOCTET 1 p.val n e) :
    execQuarantineExpiry p s = ok (quarFire (s.fireEvent n e) p.val) := by
  unfold execQuarantineExpiry
  rw [h]

theorem quarRetry_schedules {s : State} {p d t : Nat} (h : (hportOf s p).quarRetry = some (d, t)) :
    quarRetry p s = scheduleExpiry (s.reach t) p d := by
  unfold quarRetry
  rw [h]

/-! ## Frames from the wire (R26, R83, R174, R312) -/

section
variable {s u : State} {port : Nat} {bs : List Byte} (up : linkUp s port = true)
  (hu : u = emacCount (emacCount s port 0 1) port 1 bs.length)
include up hu

theorem ethRx_runt (short : bs.length + 4 < 64) (fcsOk ovf : Bool) :
    ethRx port bs fcsOk ovf s = emacCount u port 6 1 := by
  subst hu
  unfold ethRx
  simp only [up, Bool.not_true, Bool.false_eq_true, if_false, if_pos short]

variable (long : 60 ≤ bs.length) (fits : bs.length ≤ u.rd EMAC.MAX_FRAME (port / 8))
include long fits

theorem ethRx_badFcs (ovf : Bool) : ethRx port bs false ovf s = emacCount u port 4 1 := by
  have whole : ¬ bs.length + 4 < 64 := by omega
  subst hu
  unfold ethRx
  simp only [up, whole, if_neg (Nat.not_lt.2 fits), Bool.not_true, Bool.not_false, Bool.false_eq_true, if_false, if_true]

/-- A good frame that MACsec lets through enters its pipeline. -/
theorem ethRx_enters {v : State} {f : List Byte} (data : isPause bs = false) (taken : macsecRx u port bs = (v, some f)) :
    ethRx port bs true false s =
      ingressEth v port f (v.traceable && bit (v.rd OCTET.LANE_CALSTAT (port / 8)) (port % 8)) none := by
  have whole : ¬ bs.length + 4 < 64 := by omega
  subst hu
  unfold ethRx
  simp only [up, whole, data, taken, if_neg (Nat.not_lt.2 fits), Bool.not_true, Bool.false_and, Bool.false_eq_true,
    if_false]

end

/-! ## Inbound reads of a downstream device (R84, R87) -/

/-- A read that lies within an open window and in one open row of the memory map answers the bytes stored there. -/
theorem inboundRequest_reads {s : State} {o k addr len w : Nat} (hd : persOf s o = 2)
    (hup : (Tbl.getD s.octUp o []).contains k = true) (hw : w < 4) (hlo : (inbound s o k w).1 ≤ addr)
    (hhi : addr + len ≤ (inbound s o k w).2 + 1) (hdev : devAny s addr len = 0) :
    inboundRequest o k addr len none s =
      s.emit (.completion (dportNumber o k) 0 (Memory.readBytes s.mem addr len)) := by
  have hit : (List.range 4).any (fun w => decide ((inbound s o k w).1 ≤ addr) &&
      decide (addr + len ≤ (inbound s o k w).2 + 1)) = true :=
    List.any_eq_true.2 ⟨w, List.mem_range.2 hw, by simp only [hlo, hhi, decide_true, Bool.and_self]⟩
  unfold inboundRequest
  simp only [hd, hup, hit, hdev, ne_eq, not_true_eq_false, Bool.not_true, Bool.false_eq_true, or_self, if_false]

/-! ## The rows -/

/-- Settles O5, row by row: the condition on the octet, the port and the operands selects the branch of the row's meaning. -/
theorem attachmentRowsRun : Obligations.AttachmentRowsRun := by
  refine ⟨?calibrated, ?up, ?down, ?presence, ?debounce, ?unattached, ?graced, ?grace, ?trained, ?perstLow, ?perstHigh,
    ?expiry, ?retry, ?frame, ?write, ?read⟩
  case calibrated =>
    exact fun s o good offs => ⟨fun cal => congrArg ok (calComplete_inCal cal),
      fun rest waits => congrArg ok (calComplete_recal rest waits)⟩
  case up =>
    intro s o k g w trains down
    exact ⟨fun pers here => congrArg ok (portUp_device _ _ trains down pers here),
      fun pers here => congrArg ok (portUp_ethernet _ _ trains down pers here),
      fun pers here => congrArg ok (portUp_twin _ _ trains down pers here)⟩
  case down =>
    intro s u o k up notHost hu
    exact ⟨fun pers => congrArg ok (portDown_device up notHost hu pers),
      fun pers => congrArg ok (portDown_ethernet up notHost hu pers),
      fun pers => congrArg ok (portDown_twin up notHost hu pers)⟩
  case presence => exact fun s u o p level hu serves => congrArg ok (presenceChange_served hu serves)
  case debounce =>
    intro s u o p d serves runs hu
    exact ⟨fun absent => congrArg ok (debounceEnds_absent serves runs hu absent),
      fun present ready => congrArg ok (debounceEnds_present serves runs hu present ready)⟩
  case unattached =>
    intro s u p used linked hu notAttached notWaiting noReset
    exact congrArg ok (leaveL0_unattached used linked hu notAttached notWaiting noReset)
  case graced =>
    intro s u v p used linked hu attached high hv noReset
    exact congrArg ok (leaveL0_graced used linked hu attached high hv noReset)
  case grace => exact fun s p d h => congrArg ok (graceEnds_removes h)
  case trained =>
    intro s u p g w flit used may high hu
    exact ⟨fun waits => congrArg ok (linkTrained_waiting used may high hu waits),
      fun notAttached notWaiting unserved =>
        congrArg ok (linkTrained_unserved used may high hu notAttached notWaiting unserved),
      fun attached noGrace notReady => congrArg ok (linkTrained_attached used may high hu attached noGrace notReady)⟩
  case perstLow =>
    intro s u o p hu serves
    exact ⟨fun h => congrArg ok (perstFalls_unattached hu serves h),
      fun h => congrArg ok (perstFalls_attached hu serves h)⟩
  case perstHigh =>
    exact fun s u o p hu serves held noLink => congrArg ok (perstRises_retrains hu serves held noLink)
  case expiry =>
    intro s u p n e due hu quarantined
    subst hu
    exact (execQuarantineExpiry_due due).trans (congrArg ok (quarFire_quarantined quarantined))
  case retry => exact fun s p d t h => congrArg ok (quarRetry_schedules h)
  case frame =>
    intro s u p bs dt up hu
    exact ⟨fun short fcs ovf => congrArg ok (ethRx_runt up hu short fcs ovf),
      fun long fits ovf => congrArg ok (ethRx_badFcs up hu long fits ovf),
      fun long fits data v f taken => congrArg ok (ethRx_enters up hu long fits data taken)⟩
  case write =>
    intro s o k a bs w pers up hw lo hi inMap len
    exact congrArg ok (inboundRequest_stores len pers up hw lo hi inMap)
  case read =>
    intro s o k a len w pers up hw lo hi inMap
    exact congrArg ok (inboundRequest_reads pers up hw lo hi inMap)

end Sys2Proof.Machine
end

section
/-! PROOFS. Host functions and rack windows: configuration requests, power state, function resets and drains, readiness, errors
and timeouts, forwarded requests and their answers, and the commands of host ports and windows (R89 to R105, R363). -/

namespace Sys2Proof.Machine

/-! ## Configuration requests and power states (R89, R91, R94) -/

section
variable {s : State} {p rid sel : Nat} (off : Nat) (ready : configMeets s p = 2) (names : selOfRid rid = some sel)
  (here : funcPresent s p sel = true) (noReset : (funcOf s p sel).inReset = false)
include ready names here noReset

theorem configRequest_writes (v : Word) :
    configRequest p rid off (some v) s = (cfgPut p sel off v s).emit (.completion p 0 []) := by
  unfold configRequest
  simp only [ready, names, here, noReset, Bool.not_true, Bool.false_eq_true, if_false]

theorem configRequest_reads :
    configRequest p rid off none s = s.emit (.completion p 0 (leBytes 4 (cfgRead s p sel off).toNat)) := by
  unfold configRequest
  simp only [ready, names, here, noReset, Bool.not_true, Bool.false_eq_true, if_false]

end

/-- A function with Power Management goes to D3hot. -/
theorem powerState_toD3 {s : State} {p sel : Nat} (managed : sel ≤ 2) (inD0 : (funcOf s p sel).d3 = false) :
    powerState p sel true s = setFunc s p sel { funcOf s p sel with d3 := true } := by
  unfold powerState
  simp only [inD0, Nat.not_lt.2 managed, decide_false, Bool.or_self, Bool.true_or, Bool.false_eq_true, if_false, if_true]

/-- The move back to D0 resets the function as an FLR does. -/
theorem powerState_toD0 {s : State} {p sel : Nat} (managed : sel ≤ 2) (inD3 : (funcOf s p sel).d3 = true)
    (noReset : (funcOf s p sel).inReset = false) :
    powerState p sel false s = startFlr (setFunc s p sel { funcOf s p sel with d3 := false }) p sel := by
  unfold powerState
  simp only [inD3, noReset, Nat.not_lt.2 managed, decide_false, Bool.or_self, Bool.false_eq_true, if_false, Bool.true_eq_false]

theorem hostFlr_starts {s : State} {p sel : Nat} (idle : flrRuns s p sel = false) : hostFlr p sel s = startFlr s p sel :=
  if_neg (by rw [idle]; exact Bool.false_ne_true)

/-! ## Resets, drains and readiness (R94 to R96, R363) -/

/-- A hot reset of an attached port in L0 that is not already held. -/
theorem hotReset_attached {s : State} {p : Nat} (attached : (hportOf s p).quar = 1) (linked : (hportOf s p).l0 = true)
    (notHeld : s.stateOf blkHPORT p ≠ 5) : hotReset p s = (portReset s p).setState blkHPORT p 5 := by
  unfold hotReset
  simp only [attached, linked, notHeld, ne_eq, not_true_eq_false, Bool.not_true, Bool.false_eq_true, or_self, if_false]

/-- A reset of its own ends for a function that is in one while its port is in none. -/
theorem flrComplete_own {s u : State} {p sel : Nat} (resets : (funcOf s p sel).inReset = true)
    (own : (funcOf s p sel).subsumed = false) (portRuns : (hportOf s p).inReset = false)
    (hu : u = leaveReset s p (flrScope s p sel)) :
    flrComplete p sel s = endFuncReset (((setHport u p
      (if sel = 0 then { hportOf u p with nvf0 := 0 } else if sel = 1 then { hportOf u p with nvf1 := 0 }
       else hportOf u p)).istat blkHPORT p 3).bumpStat HPORT.FLR_COUNT p) p (flrScope s p sel) 0 := by
  subst hu
  unfold flrComplete
  simp only [resets, own, portRuns, Bool.not_true, Bool.or_self, Bool.false_eq_true, if_false]

theorem drainComplete_running {s : State} {p sel : Nat}
    (runs : s.drains.any (fun d => d.port == p && d.sel == sel && d.running) = true) :
    drainComplete p sel s = endDrain s p sel :=
  if_pos runs

/-- The functions of a port become ready once its link has trained, or after a reset of the port that held it. -/
theorem functionsReady_trained {s u : State} {p : Nat} (attached : (hportOf s p).quar = 1)
    (linked : (hportOf s p).l0 = true) (may : mayTrain s p = true) (high : perstLow s p = false)
    (waits : s.stateOf blkHPORT p = 3 ∨ s.stateOf blkHPORT p = 5 ∧ (hportOf s p).inReset = true)
    (hu : u = if (hportOf s p).inReset then present (leaveReset s p (funcsOf s p)) p else s) :
    functionsReady p s = endFuncReset (((setHport u p { hportOf u p with inReset := false }).setState
      blkHPORT p 4).istat blkHPORT p 2) p (funcsOf s p) 0 := by
  have waiting : ¬ (s.stateOf blkHPORT p ≠ 3 ∧ ¬ (s.stateOf blkHPORT p = 5 ∧ (hportOf s p).inReset = true)) :=
    fun ⟨notEarly, notHeld⟩ => waits.elim notEarly notHeld
  subst hu
  unfold functionsReady
  simp only [attached, linked, may, high, waiting, ne_eq, not_true_eq_false, Bool.not_true, Bool.false_eq_true, or_self,
    if_false]

/-! ## Reads of host memory that time out (R99) -/

theorem readTimeout_dmaSlots {s : State} {ch : Fin 256} (reads : (dmaOf s ch.val).reading = true) :
    readTimeout (.dma ch) s = dmaSlots ch.val none (timedOut s (dmaOf s ch.val).space (dmaOf s ch.val).fn) :=
  if_pos reads

theorem readTimeout_dmaFlush {s : State} {ch : Fin 256} (noRead : (dmaOf s ch.val).reading = false)
    (flushes : (dmaOf s ch.val).stage = 3) : readTimeout (.dma ch) s = dmaFlushed ch.val false
      (timedOut s ((dmaOf s ch.val).flushing.headD 0) (dDstFn (dmaOf s ch.val).desc)) := by
  unfold readTimeout
  simp only [noRead, flushes, Bool.false_eq_true, Nat.reduceEqDiff, false_and, if_false, if_true]

/-- The read of a queue that times out is its descriptor read where it makes one, else a payload read that has failed. -/
theorem readTimeout_queue {s : State} {p : Fin 128} {sel q : BitVec 12} {x : Queue}
    (found : Tbl.get? (timedOut s p.val sel.toNat).queues (qkey (.fn p sel q)) = some x) :
    readTimeout (.fn p sel q) s =
      if x.reading then ringSlots (qkey (.fn p sel q)) none (timedOut s p.val sel.toNat)
      else payloadRead (.fn p sel q) .failed (timedOut s p.val sel.toNat) := by
  unfold readTimeout
  simp only [found]

/-! ## The rows of host functions -/

/-- Settles O6, row by row: the condition on the port, the function and the unit selects the branch of the row's meaning. -/
theorem functionRowsRun : Obligations.FunctionRowsRun := by
  refine ⟨?config, ?power, ?hot, ?flr, ?drain, ?ready, ?errors, ?dma, ?queue⟩
  case config =>
    intro s p rid off sel ready names here noReset
    exact ⟨fun v => congrArg ok (configRequest_writes _ ready names here noReset v),
      congrArg ok (configRequest_reads _ ready names here noReset)⟩
  case power =>
    intro s p sel finds
    have run := fun k => congrArg ok (configWrite_finds k finds)
    exact ⟨fun managed inD0 => (run _).trans (congrArg ok (powerState_toD3 managed inD0)),
      fun managed inD3 noReset => (run _).trans (congrArg ok (powerState_toD0 managed inD3 noReset)),
      fun idle => (run _).trans (congrArg ok (hostFlr_starts idle))⟩
  case hot => exact fun s p attached linked notHeld => congrArg ok (hotReset_attached attached linked notHeld)
  case flr => exact fun s u p sel resets own portRuns hu => congrArg ok (flrComplete_own resets own portRuns hu)
  case drain => exact fun s p sel runs => congrArg ok (drainComplete_running runs)
  case ready =>
    intro s u p attached linked may high waits hu
    exact congrArg ok (functionsReady_trained attached linked may high waits hu)
  case errors => exact fun s p sel => ⟨rfl, rfl, rfl, rfl⟩
  case dma =>
    exact fun s ch => ⟨fun reads => congrArg ok (readTimeout_dmaSlots reads),
      fun noRead flushes => congrArg ok (readTimeout_dmaFlush noRead flushes)⟩
  case queue =>
    intro s p sel q x found
    have run := congrArg ok (readTimeout_queue found)
    exact ⟨fun reads => run.trans (congrArg ok (if_pos reads)),
      fun noRead => run.trans (congrArg ok (if_neg (by rw [noRead]; exact Bool.false_ne_true)))⟩

/-! ## Windows between hosts (R101, R103) -/

section
variable {s : State} {p a n : Nat} {e : List Dword} (ro : Bool) (answers : FuncAnswers s p 0)
  (inBar : a < 2 ^ (hportOf s p).bar4) (hasBar : (hportOf s p).bar4 ≠ 0) (serves : accepts s blkWINDOW (p / 8) = true)
  (found : winAt ((winOf s (p / 8)).epochs.headD (0, [])).2 p a = some (n, e))
  (target : targetReady s (winTarget e) = true)
include answers inBar hasBar serves found target

/-- A read within a readable window whose target is ready is forwarded. -/
theorem windowTlp_reads {len : Nat} (within : a + len ≤ winStart e + winBytes e) (readable : bit (qw e 0) 62 = true) :
    windowTlp p a len none ro s = forwardTlp s (p / 8) p a len e none ro := by
  have live : funcLive s p 0 = true := answers
  unfold windowTlp
  simp only [live, hasBar, serves, found, target, readable, Nat.not_le.2 inBar, Nat.not_lt.2 within, Option.isNone_none,
    decide_false, Bool.not_true, Bool.or_self, Bool.false_eq_true, if_false, if_true]

/-- A write within a writable window whose target is ready is forwarded, its length that of its data. -/
theorem windowTlp_writes (len : Nat) {bs : List Byte} (within : a + bs.length ≤ winStart e + winBytes e)
    (writable : bit (qw e 0) 61 = true) :
    windowTlp p a len (some bs) ro s = forwardTlp s (p / 8) p a bs.length e (some bs) ro := by
  have live : funcLive s p 0 = true := answers
  unfold windowTlp
  simp only [live, hasBar, serves, found, target, writable, Nat.not_le.2 inBar, Nat.not_lt.2 within, Option.isNone_some,
    decide_false, Bool.not_true, Bool.or_self, Bool.false_eq_true, if_false]

end

section
variable {s : State} {i id : Nat} {t : WinTlp} (waits : (winOf s i).tlps.find? (fun t => t.id == id) = some t)
include waits

theorem windowReply_data (bs : List Byte) : windowReply i id (.data bs) s = settleWin
    ((setWin s i { winOf s i with tlps := (winOf s i).tlps.erase t }).emit (.completion t.src 0 bs)) i := by
  unfold windowReply
  simp only [waits]

theorem windowReply_failed : windowReply i id .failed s = settleWin
    (((setWin s i { winOf s i with tlps := (winOf s i).tlps.erase t }).bumpErr blkWINDOW i 1).emit
      (.completion t.src 2 [])) i := by
  unfold windowReply
  simp only [waits]

end

/-- Settles O7: the window that the current epoch finds, its right and its range let a request through; the answer is that
of the read that waits. -/
theorem windowRowsRun : Obligations.WindowRowsRun := by
  refine ⟨?forwarded, ?answered⟩
  case forwarded =>
    intro s p a len n e ro answers inBar hasBar serves found target
    exact ⟨fun within readable =>
        congrArg ok (windowTlp_reads ro answers inBar hasBar serves found target within readable),
      fun bs within writable =>
        congrArg ok (windowTlp_writes ro answers inBar hasBar serves found target len within writable)⟩
  case answered =>
    intro s i id t waits
    exact ⟨fun bs => congrArg ok (windowReply_data waits bs), congrArg ok (windowReply_failed waits)⟩

/-! ## Commands of host ports and windows -/

/-- Settles O25: each row is the page command of its block and opcode. -/
theorem hostCommandsRun : Obligations.HostCommandsRun := by
  intro c s
  exact ⟨commandRuns_of_exec rfl, commandRuns_of_exec rfl, commandRuns_of_exec rfl, commandRuns_of_exec rfl,
    commandRuns_of_exec rfl, commandRuns_of_exec rfl⟩

end Sys2Proof.Machine
end

section
/-! PROOFS. Rings and queues: event rings, doorbells and resumes, descriptor and payload reads, frames sent, and the commands
of queues, event rings and DMA channels (R113 to R130, R133, R142). -/

namespace Sys2Proof.Machine

/-! ## Event rings (R126, R130) -/

section
variable {s : State} {p sel n : Nat} {v : Word} {r : EvRing} (found : Tbl.get? s.rings (ekey p sel n) = some r)
include found

/-- ER_CONS moves forward, no further than EP, and the backlog drains into the room it makes. -/
theorem erCons_advances (within : (v - r.cons).toNat ≤ (r.ep - r.cons).toNat) : erCons p sel n v s =
    drainRing (ekey p sel n) 34 { s with rings := Tbl.put s.rings (ekey p sel n) { r with cons := v } } := by
  unfold erCons
  simp only [found, if_pos within]

variable (arms : bit v.toNat 0 = true)
include arms

/-- A ring with no entry pending is armed. -/
theorem erArm_empty (empty : r.ep = r.cons) :
    erArm p sel n v s = { s with rings := Tbl.put s.rings (ekey p sel n) { r with armed := true } } := by
  unfold erArm
  simp only [found, arms, Bool.not_true, Bool.false_eq_true, if_false, if_pos empty]

/-- A ring with entries pending sends its vector at once and is not armed. -/
theorem erArm_pending (pending : r.ep ≠ r.cons) : erArm p sel n v s =
    sendVector { s with rings := Tbl.put s.rings (ekey p sel n) { r with armed := false } } p sel r.vector := by
  unfold erArm
  simp only [found, arms, Bool.not_true, Bool.false_eq_true, if_false, if_neg pending]

end

/-! ## Resumes (R121) -/

/-- A resume that nothing refuses leaves QC_RESULT 0 and resumes the queue that QC_SEL names. -/
theorem qcResume_valid {s : State} {p sel : Nat} {v : Word}
    (valid : resumeBad s (fkey p sel * 4096 + (funcOf s p sel).qcSel.toNat % 4096) (BitVec.ofNat 16 v.toNat) = 0) :
    qcResume p sel v s = resumeQueue (setFunc s p sel { funcOf s p sel with qcResult := 0 })
      (fkey p sel * 4096 + (funcOf s p sel).qcSel.toNat % 4096) (BitVec.ofNat 16 v.toNat) := by
  unfold qcResume
  simp only [valid, if_true]
  rfl

/-! ## Descriptor reads and RX_HOLD (R114, R125) -/

/-- Slots that a function's queue is reading come to its ring; at any other queue they would come late (R362). -/
theorem descriptorRead_reading {s : State} {p : Fin 128} {sel q : BitVec 12} {x : Queue}
    (slots : Option (List (List Dword))) (found : Tbl.get? s.queues (qkey (.fn p sel q)) = some x)
    (reads : x.reading = true) :
    descriptorRead (.fn p sel q) slots s = ringSlots (qkey (.fn p sel q)) slots s := by
  unfold descriptorRead
  simp only [found, Option.map_some, Option.getD_some, reads, if_true]

theorem execRxHoldExpiry_due {s : State} {q : QRef} {n : Nat} {e : CalEvent} (h : Due s blkQMGR 1 (qkey q) n e) :
    execRxHoldExpiry q s = ok (rxHoldFire (s.fireEvent n e) (qkey q)) := by
  unfold execRxHoldExpiry
  rw [h]

/-! ## Payload reads (R116, R117) -/

section
variable {s : State} {p : Fin 128} {sel q : BitVec 12} {x : Queue}
  (found : Tbl.get? s.queues (qkey (.fn p sel q)) = some x) (waits : ownReads x + qpReads s x ≠ 0) (bs : List Byte)
include found waits

/-- Bytes for a queue of ETH_SENDs are the oldest's payload. -/
theorem payloadRead_ethSend (kind : x.kind = 0) :
    payloadRead (.fn p sel q) (.data bs) s = ethPayload s (qkey (.fn p sel q)) x (some bs) := by
  unfold payloadRead
  simp only [found, Option.map_some, Option.getD_some, if_neg waits, reduceCtorEq, if_false, kind, ReadEnd.bytes?]

/-- Bytes for a receive queue of a QP are data of a READ that the QP serves. -/
theorem payloadRead_served (kind : x.kind = 3) :
    payloadRead (.fn p sel q) (.data bs) s = (readPayload s x.bind (some bs)).1 := by
  unfold payloadRead
  simp only [found, Option.map_some, Option.getD_some, if_neg waits, reduceCtorEq, if_false, kind, ReadEnd.bytes?]

/-- Bytes for a send queue of a QP are the payload of a send work request, where one waits for it. -/
theorem payloadRead_sendRequest (kind : x.kind = 2)
    (taken : (sendPayload s (qkey (.fn p sel q)) (some bs)).2 = true) :
    payloadRead (.fn p sel q) (.data bs) s = (sendPayload s (qkey (.fn p sel q)) (some bs)).1 := by
  have sent : sendPayload s (qkey (.fn p sel q)) (some bs) = ((sendPayload s (qkey (.fn p sel q)) (some bs)).1, true) :=
    Prod.ext rfl taken
  unfold payloadRead
  simp only [found, Option.map_some, Option.getD_some, if_neg waits, reduceCtorEq, if_false, kind, ReadEnd.bytes?]
  rw [sent]

end

/-! ## Frames sent (R26, R117) -/

section
variable {s u : State} {p : Nat} {bs : List Byte} {src : Option (Nat × BitVec 16)}
  {rest : List (List Byte × Option (Nat × BitVec 16))} (waits : Tbl.getD s.txq p [] = (bs, src) :: rest)
  (hu : u = frameOut s p bs rest)
include waits hu

/-- A frame whose sender asks for no stamp, or that has none, only leaves. -/
theorem frameLeaves_plain (plain : wantsStamp u src = false) : frameLeaves p s = u := by
  subst hu
  unfold frameLeaves
  rw [waits]
  cases src with
  | none => rfl
  | some sender => simp only [plain, Bool.false_eq_true, if_false]

theorem frameLeaves_stamped {k : Nat} {idx : BitVec 16} (sender : src = some (k, idx))
    (stamped : wantsStamp u src = true) : frameLeaves p s = stampSend u k idx := by
  subst hu sender
  unfold frameLeaves
  rw [waits]
  simp only [stamped, if_true]

end

/-! ## The rows -/

/-- Settles O8, row by row: the condition on the function, the ring, the queue or the frame selects the branch of the row's
meaning. The deadline of a waiting frame reaches at least its time (log 9). -/
theorem ringRowsRun : Obligations.RingRowsRun := by
  refine ⟨?host, ?provider, ?descriptors, ?hold, ?payload, ?sent⟩
  case host =>
    intro s p sel answers
    have run := fun k => congrArg ok (barWrite_answers k answers)
    refine ⟨fun q v => run _, fun v valid => (run _).trans (congrArg ok (qcResume_valid valid)),
      fun n v r found => ⟨fun within => ?_, fun arms empty => ?_, fun arms pending => ?_⟩⟩
    · exact (run _).trans (congrArg ok (erCons_advances found within))
    · exact (run _).trans (congrArg ok (erArm_empty found arms empty))
    · exact (run _).trans (congrArg ok (erArm_pending found arms pending))
  case provider => exact fun s who p v reaches => congrArg ok (pageWrite_reaches _ reaches)
  case descriptors =>
    exact fun s slots => ⟨fun ch => rfl, fun p q => rfl,
      fun p sel q x found reads => congrArg ok (descriptorRead_reading slots found reads)⟩
  case hold => exact fun s q n e due => execRxHoldExpiry_due due
  case payload =>
    intro s p sel q x bs found waits
    exact ⟨fun kind => congrArg ok (payloadRead_ethSend found waits bs kind),
      fun kind => congrArg ok (payloadRead_served found waits bs kind),
      fun kind taken => congrArg ok (payloadRead_sendRequest found waits bs kind taken)⟩
  case sent =>
    intro s u p bs src rest waits hu
    exact ⟨fun plain => congrArg ok (frameLeaves_plain waits hu plain),
      fun k idx sender stamped => congrArg ok (frameLeaves_stamped waits hu sender stamped)⟩

/-! ## Commands of queues, event rings and DMA channels -/

/-- Settles O26: each row is the page command of its block and opcode. -/
theorem queueCommandsRun : Obligations.QueueCommandsRun := by
  intro c s
  exact ⟨commandRuns_of_exec rfl, commandRuns_of_exec rfl, commandRuns_of_exec rfl, commandRuns_of_exec rfl,
    commandRuns_of_exec rfl, commandRuns_of_exec rfl, commandRuns_of_exec rfl, commandRuns_of_exec rfl,
    commandRuns_of_exec rfl, commandRuns_of_exec rfl, commandRuns_of_exec rfl, commandRuns_of_exec rfl,
    commandRuns_of_exec rfl⟩

end Sys2Proof.Machine
end

section
/-! PROOFS. DMA channels: the doorbell, source data, a descriptor's completion, flushing reads and the rate limiter's windows
(R113, R137 to R142). -/

namespace Sys2Proof.Machine

/-! ## Bit fields -/

theorem bits_eq_zero_of_lt {v hi lo : Nat} (h : v < 2 ^ lo) : bits v hi lo = 0 := by
  unfold bits
  rw [Nat.div_eq_of_lt h, Nat.zero_mod]

/-! ## The doorbell (R113, R142) -/

/-- A producer index that is neither malformed, nor the present one, nor behind it is taken, and descriptors are read. -/
theorem dmaBell_accepted {s : State} {ch : Nat} {v : Word} (bound : dmaState s ch ≠ 0) (fits : v.toNat < 65536)
    (within : (BitVec.ofNat 16 v.toNat - (dmaOf s ch).c).toNat ≤ 2 ^ (dmaOf s ch).log2)
    (moves : BitVec.ofNat 16 v.toNat ≠ (dmaOf s ch).d)
    (forward : ((dmaOf s ch).d - (dmaOf s ch).c).toNat ≤ (BitVec.ofNat 16 v.toNat - (dmaOf s ch).c).toNat) :
    dmaBell ch v s = dmaPull (setDma s ch { dmaOf s ch with d := BitVec.ofNat 16 v.toNat }) ch := by
  have highZero : bits v.toNat 31 16 = 0 := bits_eq_zero_of_lt fits
  unfold dmaBell
  simp only [highZero, ne_eq, not_true_eq_false, if_neg bound, if_neg (Nat.not_lt.2 within), if_neg moves,
    if_neg (Nat.not_lt.2 forward), if_false]

/-! ## Source data (R137) -/

section
variable {s : State} {ch : Nat} (reads : (dmaOf s ch).stage = 1) (bs : List Byte)
include reads

/-- Data of device memory is what stands there. -/
theorem dmaData_ofMemory (device : 128 ≤ dSrcSpace (dmaOf s ch).desc) : dmaData ch (.data bs) s =
    dmaWrite ch (dmaFuel (dmaOf s ch).desc) (setDma s ch { dmaOf s ch with
      held := (dmaOf s ch).held ++ Memory.readBytes s.mem (dmaNext s (dmaOf s ch)).1 (dmaNext s (dmaOf s ch)).2 }) := by
  unfold dmaData
  simp only [reads, ne_eq, not_true_eq_false, if_false, if_neg (Nat.not_lt.2 device)]

/-- Of a host's data, the bytes that rounding outward to 64 B added are discarded. -/
theorem dmaData_ofHost (host : dSrcSpace (dmaOf s ch).desc < 128) : dmaData ch (.data bs) s =
    dmaWrite ch (dmaFuel (dmaOf s ch).desc) (setDma s ch { dmaOf s ch with
      held := (dmaOf s ch).held ++ ((bs ++ List.replicate (4096 - bs.length) 0).drop
        ((dmaNext s (dmaOf s ch)).1 % 64)).take (dmaNext s (dmaOf s ch)).2 }) := by
  unfold dmaData
  simp only [reads, ne_eq, not_true_eq_false, if_false, if_pos host]

end

/-! ## Completion and barriers (R138, R139) -/

section
variable {s : State} {ch : Nat} (issued : (dmaOf s ch).stage = 2)
include issued

theorem dmaIssued_noBarrier (noBarrier : dBarrier (dmaOf s ch).desc = false) : dmaIssued ch s = dmaComplete s ch := by
  unfold dmaIssued
  simp only [issued, noBarrier, ne_eq, not_true_eq_false, Bool.false_eq_true, false_and, and_false, if_false]

/-- A barrier reads back from every host port written since the last one. -/
theorem dmaIssued_barrier (good : (dmaOf s ch).status = 0) (barrier : dBarrier (dmaOf s ch).desc = true)
    (wrote : (dmaOf s ch).wrote ≠ []) : dmaIssued ch s =
      (setDma s ch { dmaOf s ch with stage := 3, flushing := (dmaOf s ch).wrote.map Prod.fst, wrote := [] }).emits
        ((dmaOf s ch).wrote.map (fun w => .memRead w.1 (dDstFn (dmaOf s ch).desc) 4 w.2 0 false)) := by
  have anyWrote : (!(dmaOf s ch).wrote.isEmpty) = true := by rw [List.isEmpty_eq_false_iff.2 wrote]; rfl
  unfold dmaIssued
  simp only [issued, good, barrier, anyWrote, ne_eq, not_true_eq_false, and_self, if_false, if_true]

end

section
variable {s : State} {ch : Nat} (flushes : (dmaOf s ch).stage = 3)
include flushes

/-- The last flushing read completes the descriptor. -/
theorem dmaFlushed_last (last : (dmaOf s ch).flushing.length ≤ 1) : dmaFlushed ch true s =
    dmaComplete (setDma s ch { dmaOf s ch with flushing := (dmaOf s ch).flushing.drop 1 }) ch := by
  unfold dmaFlushed
  simp only [flushes, ne_eq, not_true_eq_false, Bool.not_true, Bool.false_eq_true, if_false, if_pos last]

theorem dmaFlushed_more (more : 1 < (dmaOf s ch).flushing.length) : dmaFlushed ch true s =
    setDma s ch { dmaOf s ch with flushing := (dmaOf s ch).flushing.drop 1 } := by
  unfold dmaFlushed
  simp only [flushes, ne_eq, not_true_eq_false, Bool.not_true, Bool.false_eq_true, if_false, if_neg (Nat.not_le.2 more)]

/-- A flushing read that fails fails the descriptor, whatever reads are still outstanding. -/
theorem dmaFlushed_failed : dmaFlushed ch false s =
    dmaComplete (setDma s ch { dmaOf s ch with status := 0x21, flushing := [] }) ch := by
  unfold dmaFlushed
  simp only [flushes, ne_eq, not_true_eq_false, Bool.not_false, if_false, if_true]

end

/-! ## Windows of the rate limiter (R141) -/

section
variable {s : State} {ch : Nat} (now : s.ns / 1000 + 1 = (dmaOf s ch).window)
include now

/-- A read that waits for budget is tried again at the start of the next window. -/
theorem dmaWindow_read (waits : (dmaOf s ch).stage = 4) :
    dmaWindow ch s = dmaRead (s.reach ((dmaOf s ch).window * 1000)) ch := by
  unfold dmaWindow
  simp only [waits, if_pos now, if_true]

/-- A write that waits for budget is tried again at the start of the next window. -/
theorem dmaWindow_write (waits : (dmaOf s ch).stage = 5) :
    dmaWindow ch s = dmaWrite ch (dmaFuel (dmaOf s ch).desc) (s.reach ((dmaOf s ch).window * 1000)) := by
  unfold dmaWindow
  simp only [waits, if_pos now, Nat.reduceEqDiff, if_false, if_true]

end

/-! ## The rows -/

/-- Settles O9, row by row: what the channel executes and what it waits for selects the branch of the row's meaning. A new
window reaches at least its first nanosecond (log 9). -/
theorem dmaRowsRun : Obligations.DmaRowsRun := by
  refine ⟨?doorbell, ?data, ?complete, ?flush, ?window⟩
  case doorbell =>
    intro s who ch v reaches bound fits within moves forward
    exact congrArg ok ((pageWrite_reaches _ reaches).trans (dmaBell_accepted bound fits within moves forward))
  case data =>
    intro s ch bs d hd reads
    subst hd
    exact ⟨fun device => congrArg ok (dmaData_ofMemory reads bs device),
      fun host => congrArg ok (dmaData_ofHost reads bs host)⟩
  case complete =>
    exact fun s ch issued => ⟨fun noBarrier => congrArg ok (dmaIssued_noBarrier issued noBarrier),
      fun good barrier wrote => congrArg ok (dmaIssued_barrier issued good barrier wrote)⟩
  case flush =>
    exact fun s ch flushes => ⟨fun last => congrArg ok (dmaFlushed_last flushes last),
      fun more => congrArg ok (dmaFlushed_more flushes more), congrArg ok (dmaFlushed_failed flushes)⟩
  case window =>
    exact fun s ch now => ⟨fun waits => congrArg ok (dmaWindow_read now waits),
      fun waits => congrArg ok (dmaWindow_write now waits)⟩

end Sys2Proof.Machine
end

section
/-! PROOFS. Packet pipelines: the end of a profile's commit, the deadlines of the fragment table, a pacing class's release,
and the commands of parsing, reassembly, classification and spreading (R157 to R159, R163, R165 to R172, R184 to R187). -/

namespace Sys2Proof.Machine

/-! ## The end of PROF_COMMIT (R158) -/

/-- When the last walk on the old graph has ended, the banks agree, the profile is LOADED, and the PROF_COMMIT that waits for
this profile ends. -/
theorem profCopyBack_waiting {s u : State} {pipe prof : Nat} {r : Running} (waits : waitingCmd s blkPARSE pipe 0x03 = some r)
    (own : r.arg0.toNat % 8 = prof) (hu : u = copyBank s pipe prof) : profCopyBack pipe prof s =
      endWaiting (u.wr PARSE.PROF_CFG pipe (u.rd PARSE.PROF_CFG pipe prof ||| 2 ^ 31) prof) blkPARSE pipe 0x03 0 := by
  unfold profCopyBack
  simp only [waits, own, hu, ne_eq, not_true_eq_false, if_false]

/-! ## Deadlines of the fragment table (R163) -/

section
variable {s : State} {k n : Nat} {e : CalEvent}

theorem execFragParkExpiry_due (h : Due s blkFRAG 1 k n e) :
    execFragParkExpiry k s = ok (fragParkFire (s.fireEvent n e) k) := by
  unfold execFragParkExpiry
  rw [h]

theorem execFragLifeExpiry_due (h : Due s blkFRAG 2 k n e) :
    execFragLifeExpiry k s = ok (fragLifeFire (s.fireEvent n e) k) := by
  unfold execFragLifeExpiry
  rw [h]

end

section
variable {s : State} {k : Nat} {f : Frag} (found : Tbl.get? s.frags k = some f)
include found

/-- The entry is freed, and its parked fragments leave for the exception queue in the order they came. -/
theorem fragParkFire_entry : fragParkFire s k =
    f.parked.foldl (fun s p => fragException s f.pipe p 0 2)
      ((({ s with frags := Tbl.del s.frags k } : State).bumpStat FRAG.PARK_TO 0 f.parked.length).istat blkFRAG 0 1) := by
  unfold fragParkFire
  rw [found]

/-- An entry that no fragment has met within FRAG_LIFE is freed. -/
theorem fragLifeFire_expired (late : f.last + s.rd FRAG.FRAG_LIFE * 1000 ≤ s.ns) :
    fragLifeFire s k = ({ s with frags := Tbl.del s.frags k } : State).bumpStat FRAG.EXPIRED 0 := by
  unfold fragLifeFire
  simp only [found, if_pos late]

end

/-! ## Pacing (R184) -/

theorem execPaceRelease_due {s : State} {pipe : Fin 32} {cls : Fin 256} {e : CalEvent}
    (h : s.pendingEvent pipe.val blkCLASS 1 cls.val = some e) :
    execPaceRelease pipe cls s = ok (paceFire (s.fireEvent pipe.val e) pipe.val cls.val) := by
  unfold execPaceRelease
  rw [h]

/-- The oldest packet that a class holds leaves, and the others stay in their order. -/
theorem paceFire_held {s : State} {pipe cls : Nat} {x : Nat × Pkt × ActSet} {rest : List (Nat × Pkt × ActSet)}
    (held : (paceOf s pipe cls).held = x :: rest) : paceFire s pipe cls =
      release (setPace s pipe cls { paceOf s pipe cls with held := rest }) x.2.1 x.2.2 := by
  unfold paceFire
  simp only [held]

/-! ## The rows -/

/-- Settles O10, row by row: the command that waits, the entry of the table or the packet held selects the branch of the
row's meaning; a deadline's row finds the event on the calendar first, and its time reaches at least the deadline (log 9). -/
theorem pipelineRowsRun : Obligations.PipelineRowsRun := by
  refine ⟨?copyBack, ?park, ?life, ?pace⟩
  case copyBack =>
    intro s u pipe prof r waits own hu
    exact congrArg ok (profCopyBack_waiting waits own hu)
  case park =>
    intro s u k n e f due hu found
    subst hu
    exact (execFragParkExpiry_due due).trans (congrArg ok (fragParkFire_entry found))
  case life =>
    intro s u k n e f due hu found late
    subst hu
    exact (execFragLifeExpiry_due due).trans (congrArg ok (fragLifeFire_expired found late))
  case pace =>
    intro s u pipe cls e x rest due hu held
    subst hu
    exact (execPaceRelease_due due).trans (congrArg ok (paceFire_held held))

/-! ## Commands of parsing, reassembly, classification and spreading -/

/-- Settles O27: each row is the page command of its block and opcode. -/
theorem pipelineCommandsRun : Obligations.PipelineCommandsRun := by
  intro c s
  and_intros <;> exact commandRuns_of_exec rfl

end Sys2Proof.Machine
end

section
/-! PROOFS. The tables of CLASS and SPREAD: what each write command can come to, what its read command returns afterwards, and
what else a write leaves as it was (R168 to R182, R186, R187). -/

namespace Sys2Proof.Machine

/-! ## Arguments within their rows -/

/-- The arguments have no bit set but those that the command's table row names (R470 step 6). -/
def ArgsFit (c : CmdCtx) (m0 m1 : Nat) : Prop := c.a0 &&& m0 = c.a0 ∧ c.a1 &&& m1 = c.a1

theorem ArgsFit.of_same {w r : CmdCtx} {m0 m1 : Nat} (fit : ArgsFit w m0 m1) (h0 : r.a0 = w.a0) (h1 : r.a1 = w.a1) :
    ArgsFit r m0 m1 := by
  unfold ArgsFit at fit ⊢
  rwa [h0, h1]

theorem ckArgs_fit {c : CmdCtx} {m0 m1 : Nat} (fit : ArgsFit c m0 m1) (s : State) (k : CmdRes) : ckArgs c s m0 m1 k = k :=
  if_neg fun bad => bad.elim (· fit.1) (· fit.2)

/-! ## What a write command can come to -/

/-- A write command is done with the state `x`, and then `P` holds, or it is refused and leaves the state `s`. -/
def CmdRes.Stores (o : CmdRes) (s x : State) (P : Prop) : Prop := (o = .done x ∧ P) ∨ ∃ code ≠ 0, o = .fail s code

section
variable {s x : State} {P : Prop}

theorem stores_done (h : P) : (CmdRes.done x).Stores s x P := .inl ⟨rfl, h⟩

/-- A check that refuses its command, and what follows when it passes. -/
theorem stores_unless {p : Prop} [Decidable p] {code : Nat} {o : CmdRes} (h : ¬ p → o.Stores s x P)
    (refusal : code ≠ 0 := by decide) : (if p then .fail s code else o).Stores s x P := by
  by_cases refused : p
  · exact .inr ⟨code, refusal, if_pos refused⟩
  · rw [if_neg refused]
    exact h refused

theorem stores_ckArgs {c : CmdCtx} {m0 m1 : Nat} {o : CmdRes} (h : ArgsFit c m0 m1 → o.Stores s x P) :
    (ckArgs c s m0 m1 o).Stores s x P := by
  rcases ckArgs_cases c s m0 m1 o with refused | ⟨fit0, fit1, passed⟩
  · exact .inr ⟨0x03, by decide, refused⟩
  · rw [passed]
    exact h ⟨fit0, fit1⟩

/-- RESULT 0x00 tells that a write command is done. -/
theorem CmdRes.Stores.of_ok {o : CmdRes} (h : o.Stores s x P) (ok : o.res = 0) : o = .done x ∧ P := by
  rcases h with done | ⟨code, refusal, rfl⟩
  · exact done
  · exact absurd ok refusal

end

/-- Chunk `k` of a template's 16 qwords (R182). -/
def templateChunk (t : List Dword) (k : Nat) : List Dword := ((padQ t 16).drop (8 * k)).take 8

/-- A template of 16 qwords with one chunk replaced by the data of a command. -/
def templateWith (d old : List Dword) (k : Nat) : List Dword :=
  if k = 0 then padQ d 8 ++ old.drop 8 else old.take 8 ++ padQ d 8

section
variable (c : CmdCtx) (s : State)

theorem cmdKeyprofWrite_stores : (cmdKeyprofWrite c s).Stores s
    { s with keyProf := Tbl.put s.keyProf (c.inst * 64 + c.a0) ((qwBytes c.d).take 40) } (ArgsFit c 0x3F anyArg) :=
  stores_ckArgs fun fit => stores_unless fun _ => stores_done fit

theorem cmdRangeWrite_stores : (cmdRangeWrite c s).Stores s
    { s with ranges := Tbl.put s.ranges (c.inst * 256 + c.a0) (c.d.getD 0 0) } (ArgsFit c 0xFF anyArg) :=
  stores_ckArgs fun fit => stores_unless fun _ => stores_unless fun _ => stores_done fit

theorem cmdArecWrite_stores : (cmdArecWrite c s).Stores s
    { s with arecs := Tbl.put s.arecs c.a0 (padQ c.d 4) } (ArgsFit c 0xFFFF anyArg ∧ c.a0 ≠ 0) :=
  stores_ckArgs fun fit => stores_unless fun _ => stores_unless fun valid =>
    stores_done ⟨fit, fun zero => valid (.inl zero)⟩

theorem cmdTmplWrite_stores : (cmdTmplWrite c s).Stores s
    { s with tmpls := Tbl.put s.tmpls c.a0 (templateWith c.d (padQ (Tbl.getD s.tmpls c.a0 []) 16) c.a1) }
    (ArgsFit c 0x3FFF 0x1) :=
  stores_ckArgs fun fit => stores_unless fun _ => stores_unless fun _ => stores_done fit

theorem cmdHprofWrite_stores : (cmdHprofWrite c s).Stores s
    { s with hprofs := Tbl.put s.hprofs c.a0 ((qwBytes c.d).take 18) } (ArgsFit c 0xF anyArg) :=
  stores_ckArgs fun fit => stores_unless fun _ => stores_done fit

theorem cmdTkeyWrite_stores : (cmdTkeyWrite c s).Stores s
    { s with tkeys := Tbl.put s.tkeys (ownerIx c.a0 (bit c.a0 31)) ((qwBytes c.d).take 40) }
    (ArgsFit c 0x80000FFF anyArg) :=
  stores_ckArgs fun fit => stores_done fit

theorem cmdPgrpWrite_stores : (cmdPgrpWrite c s).Stores s
    { s with pgrps := putHalves s.pgrps (c.a0 * 256 + 32 * c.a1) c.d } (ArgsFit c 0x3FF 0x7) :=
  stores_ckArgs fun fit => stores_unless fun _ => stores_done fit

theorem cmdStblWrite_stores : (cmdStblWrite c s).Stores s
    { s with stbls := putHalves s.stbls (stblBase c) c.d } (ArgsFit c 0x3FF 0xF) :=
  stores_ckArgs fun fit => stores_unless fun _ => stores_done fit

theorem cmdVportWrite_stores : (cmdVportWrite c s).Stores s
    { s with vports := Tbl.put s.vports (vportKey c.inst (c.a0 % 128) (bits c.a0 25 16)) (padQ c.d 2) }
    (ArgsFit c 0x03FF007F anyArg ∧ ¬ vportForeign c s = true) :=
  stores_ckArgs fun fit => stores_unless fun _ => stores_unless fun own => stores_done ⟨fit, own⟩

end

/-! ## What is stored is read back -/

@[simp] theorem getD_put_self {α : Type} (t : Tbl α) (k : Nat) (v d : α) : Tbl.getD (Tbl.put t k v) k d = v := by
  unfold Tbl.getD
  rw [Tbl.get?_put_self, Option.getD_some]

theorem length_padQ (d : List Dword) (n : Nat) : (padQ d n).length = n := by
  unfold padQ
  rw [List.length_map, List.length_range]

theorem padQ_of_length {d : List Dword} {n : Nat} (h : d.length = n) : padQ d n = d := h ▸ padQ_self d

/-- Cut or padded to `n` qwords, a list reads beyond them as if it ended there. -/
theorem getD_padQ (d : List Dword) (n i : Nat) : (padQ d n).getD i 0 = (d.take n).getD i 0 := by
  simp only [List.getD_eq_getElem?_getD, padQ, List.getElem?_map, List.getElem?_take]
  by_cases h : i < n
  · simp only [List.getElem?_range h, Option.map_some, Option.getD_some, if_pos h]
  · have past : (List.range n)[i]? = none := List.getElem?_eq_none (by rw [List.length_range]; omega)
    simp only [past, Option.map_none, if_neg h]

theorem padQ_padQ (d : List Dword) (n m : Nat) : padQ (padQ d n) m = padQ (d.take n) m :=
  List.map_congr_left fun i _ => getD_padQ d n i

section
variable {d old : List Dword} (hold : old.length = 16)
include hold

theorem length_templateWith (d : List Dword) (k : Nat) : (templateWith d old k).length = 16 := by
  unfold templateWith
  split
  · rw [List.length_append, length_padQ, List.length_drop, hold]
  · rw [List.length_append, length_padQ, List.length_take, hold]
    rfl

variable (hd : d.length = 8)
include hd

theorem templateChunk_with_same {k : Nat} (hk : k < 2) : templateChunk (templateWith d old k) k = d := by
  unfold templateChunk
  rw [padQ_of_length (length_templateWith hold d k)]
  unfold templateWith
  rw [padQ_of_length hd]
  split
  case isTrue first => rw [first, Nat.mul_zero, List.drop_zero, List.take_left' hd]
  case isFalse second =>
    have half : (old.take 8).length = 8 * k := by rw [List.length_take, hold]; omega
    rw [List.drop_left' half, List.take_of_length_le (Nat.le_of_eq hd)]

/-- A chunk written leaves the other chunk. -/
theorem templateChunk_with_other {j k : Nat} (hj : j < 2) (hk : k < 2) (h : j ≠ k) :
    templateChunk (templateWith d old k) j = (old.drop (8 * j)).take 8 := by
  unfold templateChunk
  rw [padQ_of_length (length_templateWith hold d k)]
  unfold templateWith
  rw [padQ_of_length hd]
  split
  case isTrue first =>
    have last : j = 1 := by omega
    rw [last, List.drop_left' (by omega)]
  case isFalse second =>
    have last : j = 0 := by omega
    have half : (old.take 8).length = 8 := by rw [List.length_take, hold]; rfl
    rw [last, Nat.mul_zero, List.drop_zero, List.drop_zero, List.take_left' half]

end

/-- An argument within a mask of one bit is 0 or 1, and conversely. -/
theorem and_one_eq_self (n : Nat) : n &&& 0x1 = n ↔ n < 2 := by
  rw [Nat.and_one_is_mod, Nat.mod_eq_iff_lt (by decide)]

theorem cmdTmplRead_fit {r : CmdCtx} (fit : ArgsFit r 0x3FFF 0x1) (s : State) :
    cmdTmplRead r s = .data s (templateChunk (Tbl.getD s.tmpls r.a0 []) r.a1) :=
  ckArgs_fit fit s _

section
variable {w r : CmdCtx} {s : State}

section
variable (h0 : r.a0 = w.a0) (h1 : r.a1 = w.a1)
include h0 h1

theorem keyprof_reads_back (hi : r.inst = w.inst) (ok : (cmdKeyprofWrite w s).res = 0) :
    cmdKeyprofRead r (cmdKeyprofWrite w s).st = .data (cmdKeyprofWrite w s).st (bytesQw ((qwBytes w.d).take 40) 8) := by
  obtain ⟨done, fit⟩ := (cmdKeyprofWrite_stores w s).of_ok ok
  rw [done, cmdKeyprofRead, ckArgs_fit (fit.of_same h0 h1), keySel, hi, h0]
  simp only [CmdRes.done, getD_put_self]

theorem range_reads_back (hi : r.inst = w.inst) (ok : (cmdRangeWrite w s).res = 0) :
    cmdRangeRead r (cmdRangeWrite w s).st = .data (cmdRangeWrite w s).st [w.d.getD 0 0] := by
  obtain ⟨done, fit⟩ := (cmdRangeWrite_stores w s).of_ok ok
  rw [done, cmdRangeRead, ckArgs_fit (fit.of_same h0 h1), hi, h0]
  simp only [CmdRes.done, getD_put_self]

theorem arec_reads_back (ok : (cmdArecWrite w s).res = 0) :
    cmdArecRead r (cmdArecWrite w s).st = .data (cmdArecWrite w s).st (padQ (w.d.take 4) 8) := by
  obtain ⟨done, fit, notZero⟩ := (cmdArecWrite_stores w s).of_ok ok
  rw [done, cmdArecRead, ckArgs_fit (fit.of_same h0 h1), h0, if_neg notZero]
  simp only [CmdRes.done, getD_put_self, padQ_padQ]

theorem tmpl_reads_back (hd : w.d.length = 8) (ok : (cmdTmplWrite w s).res = 0) :
    cmdTmplRead r (cmdTmplWrite w s).st = .data (cmdTmplWrite w s).st w.d := by
  obtain ⟨done, fit⟩ := (cmdTmplWrite_stores w s).of_ok ok
  rw [done, cmdTmplRead_fit (fit.of_same h0 h1), h0, h1]
  simp only [CmdRes.done, getD_put_self, templateChunk_with_same (length_padQ _ 16) hd ((and_one_eq_self _).1 fit.2)]

theorem hprof_reads_back (ok : (cmdHprofWrite w s).res = 0) :
    cmdHprofRead r (cmdHprofWrite w s).st = .data (cmdHprofWrite w s).st (bytesQw ((qwBytes w.d).take 18) 8) := by
  obtain ⟨done, fit⟩ := (cmdHprofWrite_stores w s).of_ok ok
  rw [done, cmdHprofRead, ckArgs_fit (fit.of_same h0 h1), h0]
  simp only [CmdRes.done, getD_put_self]

theorem tkey_reads_back (ok : (cmdTkeyWrite w s).res = 0) :
    cmdTkeyRead r (cmdTkeyWrite w s).st = .data (cmdTkeyWrite w s).st (bytesQw ((qwBytes w.d).take 40) 8) := by
  obtain ⟨done, fit⟩ := (cmdTkeyWrite_stores w s).of_ok ok
  rw [done, cmdTkeyRead, ckArgs_fit (fit.of_same h0 h1), h0]
  simp only [CmdRes.done, getD_put_self]

/-- The vport table says nothing of which pipeline owns a port, so the pipeline that may write an entry may read it. -/
theorem vport_reads_back (hi : r.inst = w.inst) (ok : (cmdVportWrite w s).res = 0) :
    cmdVportRead r (cmdVportWrite w s).st = .data (cmdVportWrite w s).st (padQ (w.d.take 2) 8) := by
  obtain ⟨done, fit, own⟩ := (cmdVportWrite_stores w s).of_ok ok
  have sameOwner (t : Tbl (List Dword)) : vportForeign r { s with vports := t } = vportForeign w s := by
    unfold vportForeign
    rw [h0, hi]
    rfl
  rw [done, cmdVportRead, ckArgs_fit (fit.of_same h0 h1), CmdRes.done, sameOwner, if_neg own, hi, h0]
  simp only [getD_put_self, padQ_padQ]

end

/-- A template write leaves what the other chunk of the template reads. -/
theorem tmpl_other_chunk_reads_same (hd : w.d.length = 8) (ok : (cmdTmplWrite w s).res = 0) (h0 : r.a0 = w.a0)
    (hr : r.a1 < 2) (h : r.a1 ≠ w.a1) : (cmdTmplRead r (cmdTmplWrite w s).st).ret = (cmdTmplRead r s).ret := by
  obtain ⟨done, fit0, fit1⟩ := (cmdTmplWrite_stores w s).of_ok ok
  have fit : ArgsFit r 0x3FFF 0x1 := ⟨h0 ▸ fit0, (and_one_eq_self _).2 hr⟩
  have kept := templateChunk_with_other (length_padQ (Tbl.getD s.tmpls w.a0 []) 16) hd hr ((and_one_eq_self _).1 fit1) h
  rw [done, cmdTmplRead_fit fit, cmdTmplRead_fit fit, h0]
  simp only [CmdRes.done, CmdRes.data, getD_put_self]
  exact congrArg some kept

end

/-- Settles O54, table by table. -/
theorem pipelineTablesReadBack : Obligations.PipelineTablesReadBack := by
  intro w r s hi h0 h1 hd
  exact ⟨keyprof_reads_back h0 h1 hi, range_reads_back h0 h1 hi, arec_reads_back h0 h1,
    fun ok => ⟨tmpl_reads_back h0 h1 hd ok, fun _ _ h0' hr h => tmpl_other_chunk_reads_same hd ok h0' hr h⟩,
    hprof_reads_back h0 h1, tkey_reads_back h0 h1, vport_reads_back h0 h1 hi⟩

/-! ## What a write leaves -/

/-- A page changes only its header and the tables of CLASS and SPREAD from one state to another. -/
def KeepsToPipeTables (blk inst : Nat) (s t : State) : Prop :=
  t.sansPipeTables = s.sansPipeTables ∧ SameRegs (OutsideHeader blk inst) s t

/-- A state without page registers and running commands determines the state without the pipeline tables too. -/
theorem sansPipeTables_of_sansPages {s t : State} (h : t.sansPages = s.sansPages) : t.sansPipeTables = s.sansPipeTables :=
  (congrArg State.sansPipeTables h : t.sansPages.sansPipeTables = s.sansPages.sansPipeTables)

/-- Stated for any table, so that no proof computes the 32 entries that PGRP_WRITE and STBL_WRITE put. -/
theorem sansPipeTables_setPgrps (s : State) (t : Tbl Nat) :
    ({ s with pgrps := t } : State).sansPipeTables = s.sansPipeTables := rfl

theorem sansPipeTables_setStbls (s : State) (t : Tbl Nat) :
    ({ s with stbls := t } : State).sansPipeTables = s.sansPipeTables := rfl

section
variable {blk inst : Nat} {s t u : State}

theorem KeepsToHeader.toPipeTables (h : KeepsToHeader blk inst s t) : KeepsToPipeTables blk inst s t :=
  ⟨sansPipeTables_of_sansPages h.1, h.2⟩

theorem KeepsToPipeTables.trans (h : KeepsToPipeTables blk inst s t) (k : KeepsToPipeTables blk inst t u) :
    KeepsToPipeTables blk inst s u :=
  ⟨k.1.trans h.1, fun a ha => (k.2 a ha).trans (h.2 a ha)⟩

theorem keepsToPipeTables_of_regs (rest : t.sansPipeTables = s.sansPipeTables) (regs : t.regs = s.regs) :
    KeepsToPipeTables blk inst s t :=
  ⟨rest, fun a _ => by unfold State.rdA; rw [regs]⟩

end

/-- A result that does not wait and leaves the state but for the tables of CLASS and SPREAD and the running commands. -/
def CmdRes.InPipeTables (o : CmdRes) (s : State) : Prop :=
  o.wait = false ∧ o.st.sansPipeTables = s.sansPipeTables ∧ o.st.regs = s.regs

theorem inPipeTables_fail (s : State) (code : Nat) : (CmdRes.fail s code).InPipeTables s := ⟨rfl, rfl, rfl⟩

theorem inPipeTables_ite {s : State} {p : Prop} [Decidable p] {x y : CmdRes} (hx : x.InPipeTables s)
    (hy : y.InPipeTables s) : (if p then x else y).InPipeTables s := by
  split <;> assumption

/-- An effect of a command that ends at once and writes no more than the tables of CLASS and SPREAD. -/
def WritesPipeTables (eff : CmdCtx → State → CmdRes) : Prop := ∀ c s, (eff c s).InPipeTables s

/-- A command whose stored state differs in those tables alone writes no more than them. -/
theorem writesPipeTables_of_stores {eff : CmdCtx → State → CmdRes} {x : CmdCtx → State → State} {P : CmdCtx → State → Prop}
    (stores : ∀ c s, (eff c s).Stores s (x c s) (P c s)) (rest : ∀ c s, (x c s).sansPipeTables = s.sansPipeTables)
    (regs : ∀ c s, (x c s).regs = s.regs) : WritesPipeTables eff := by
  intro c s
  rcases stores c s with ⟨done, -⟩ | ⟨code, -, refused⟩
  · rw [done]
    exact ⟨rfl, rest c s, regs c s⟩
  · rw [refused]
    exact inPipeTables_fail s code

theorem cmdKeyprofWrite_writes : WritesPipeTables cmdKeyprofWrite :=
  writesPipeTables_of_stores cmdKeyprofWrite_stores (fun _ _ => rfl) fun _ _ => rfl
theorem cmdRangeWrite_writes : WritesPipeTables cmdRangeWrite :=
  writesPipeTables_of_stores cmdRangeWrite_stores (fun _ _ => rfl) fun _ _ => rfl
theorem cmdArecWrite_writes : WritesPipeTables cmdArecWrite :=
  writesPipeTables_of_stores cmdArecWrite_stores (fun _ _ => rfl) fun _ _ => rfl
theorem cmdTmplWrite_writes : WritesPipeTables cmdTmplWrite :=
  writesPipeTables_of_stores cmdTmplWrite_stores (fun _ _ => rfl) fun _ _ => rfl
theorem cmdHprofWrite_writes : WritesPipeTables cmdHprofWrite :=
  writesPipeTables_of_stores cmdHprofWrite_stores (fun _ _ => rfl) fun _ _ => rfl
theorem cmdTkeyWrite_writes : WritesPipeTables cmdTkeyWrite :=
  writesPipeTables_of_stores cmdTkeyWrite_stores (fun _ _ => rfl) fun _ _ => rfl
theorem cmdPgrpWrite_writes : WritesPipeTables cmdPgrpWrite :=
  writesPipeTables_of_stores cmdPgrpWrite_stores (fun _ s => sansPipeTables_setPgrps s _) fun _ _ => rfl
theorem cmdStblWrite_writes : WritesPipeTables cmdStblWrite :=
  writesPipeTables_of_stores cmdStblWrite_stores (fun _ s => sansPipeTables_setStbls s _) fun _ _ => rfl
theorem cmdVportWrite_writes : WritesPipeTables cmdVportWrite :=
  writesPipeTables_of_stores cmdVportWrite_stores (fun _ _ => rfl) fun _ _ => rfl

section
variable {blk op : Nat} {eff : CmdCtx → State → CmdRes} (writes : WritesPipeTables eff)
include writes

/-- The judgement before such an effect refuses and leaves the state, or comes to the effect. -/
theorem judge_inPipeTables (r : Running) (blk inst : Nat) (s : State) : (judge r blk inst eff s).InPipeTables s :=
  inPipeTables_ite (inPipeTables_fail s 0x03) (inPipeTables_ite (inPipeTables_fail s 0x01)
    (inPipeTables_ite (inPipeTables_fail s 0x0A) (inPipeTables_ite (inPipeTables_fail s 0x04) (writes _ s))))

/-- On a page that takes it, such a command keeps to the page's header and the tables: it begins, stores, and ends. -/
theorem pageCommand_keepsToPipeTables {c : CmdIn} {s : State} (takes : TakesCommand s c.who blk c.inst.toNat) :
    KeepsToPipeTables blk c.inst.toNat s (pageCommand blk op eff c s) := by
  have began := (KeepsToHeader.begun c blk c.inst.toNat op s).toPipeTables
  rw [pageCommand_taken eff takes]
  split
  · exact began
  · obtain ⟨ends, rest, regs⟩ := judge_inPipeTables writes (begunCmd c blk c.inst.toNat op s) blk c.inst.toNat
      (begun c blk c.inst.toNat op s)
    have stored := began.trans (keepsToPipeTables_of_regs rest regs)
    unfold conclude
    rw [ends]
    exact stored.trans ((KeepsToHeader.refl blk c.inst.toNat _).endCommand c.inst.isLt _ _).toPipeTables

/-- However it ends, such a command changes page registers, running commands and the tables alone. -/
theorem pageCommand_sansPipeTables (c : CmdIn) (s : State) :
    (pageCommand blk op eff c s).sansPipeTables = s.sansPipeTables := by
  rcases pageCommand_cases blk op eff c s with ⟨p, -, e⟩ | e | e | e | e | takes
  · exact sansPipeTables_of_sansPages (by rw [e, State.sansPages_bumpErr])
  · exact sansPipeTables_of_sansPages (by rw [e, State.sansPages_bumpUnpop])
  · exact sansPipeTables_of_sansPages (by rw [e, State.sansPages_bumpErr])
  · exact sansPipeTables_of_sansPages
      (by rw [e, deniedCommand, State.sansPages_istat, State.sansPages_hdw, State.sansPages_bumpErr])
  · exact sansPipeTables_of_sansPages (by rw [e, State.sansPages_bumpErr])
  · exact (pageCommand_keepsToPipeTables writes takes).1

end

/-- What `Obligations.PipelineWritesFrame` says of one row. -/
def PipeWriteFrame (c : CmdIn) (s : State) (i : Instr) : Prop :=
  ∃ blk op u, pageRow s i = some (blk, op, c) ∧ exec i s = .next (settle u) ∧ u.sansPipeTables = s.sansPipeTables ∧
    (TakesCommand s c.who blk c.inst.toNat →
      ∀ a, a / 4096 ≠ State.pk blk c.inst.toNat ∨ 0x80 ≤ a % 4096 → u.rdA a = s.rdA a)

theorem pipeWriteFrame_of_writes {c : CmdIn} {s : State} {i : Instr} {blk op : Nat} {eff : CmdCtx → State → CmdRes}
    (writes : WritesPipeTables eff) (row : pageRow s i = some (blk, op, c))
    (run : exec i s = .next (settle (pageCommand blk op eff c s))) : PipeWriteFrame c s i :=
  ⟨blk, op, _, row, run, pageCommand_sansPipeTables writes c s, fun takes => (pageCommand_keepsToPipeTables writes takes).2⟩

/-- Settles O56: each of the rows is a page command whose effect stores in one of the tables or refuses. -/
theorem pipelineWritesFrame : Obligations.PipelineWritesFrame := by
  intro c s
  change ∀ i ∈ _, PipeWriteFrame c s i
  simp only [List.forall_mem_cons, List.not_mem_nil, false_imp_iff, implies_true, and_true]
  exact ⟨
    pipeWriteFrame_of_writes cmdKeyprofWrite_writes rfl rfl,
    pipeWriteFrame_of_writes cmdRangeWrite_writes rfl rfl,
    pipeWriteFrame_of_writes cmdArecWrite_writes rfl rfl,
    pipeWriteFrame_of_writes cmdTmplWrite_writes rfl rfl,
    pipeWriteFrame_of_writes cmdHprofWrite_writes rfl rfl,
    pipeWriteFrame_of_writes cmdTkeyWrite_writes rfl rfl,
    pipeWriteFrame_of_writes cmdPgrpWrite_writes rfl rfl,
    pipeWriteFrame_of_writes cmdStblWrite_writes rfl rfl,
    pipeWriteFrame_of_writes cmdVportWrite_writes rfl rfl⟩

end Sys2Proof.Machine
end

section
/-! PROOFS. Forwarding tables: repair from the shadow, pass deadlines and scan passes, queued removals, learning and its ring,
and the table commands (R191, R196, R201 to R215). -/

namespace Sys2Proof.Machine

/-! ## Repair from the shadow (R202) -/

/-- The entry that a shadow record brings back: its data, and what its side word holds besides BAD. -/
def entryOfShadow (d : List Dword) : Entry :=
  { data := listSet d 7 0, owner := ownerOfVal (qb d 7 31 0 % 8192), ageClass := bits (qb d 7 31 0) 19 16,
    old := bit (qb d 7 31 0) 29, hit := bit (qb d 7 31 0) 30, valid := bit (qb d 7 31 0) 31 }

/-- A BAD entry of a direct table is repaired from its shadow and counted when the shadow's CRC32C is right, else reported. -/
theorem scrubRepair_direct {s : State} {code pos : Nat} {e : Entry} {d : List Dword} (direct : code < 4)
    (found : entryAt s code pos = some e) (broken : e.bad = true) (on : bit (s.rd HTBL.SCRUB_CTRL) 0 = true)
    (hd : d = s.memGetQ (shadowAt s code pos) 8) :
    scrubRepair code pos s =
      if qb d 7 63 32 = (crc32c 0xFFFFFFFF ((qwBytes d).take 60)).toNat then
        (putEntry s code pos (entryOfShadow d)).bumpStat HTBL.SCRUBBED 0
      else raisePage ((s.bumpErr (tablePage code) 0 1).istat (tablePage code) 0 1) (tablePage code) 0 2 := by
  have noTcam : ¬ (code = 5 ∨ code = 6) := by omega
  have noHash : code ≠ 4 ∧ code ≠ 7 ∧ code ≠ 8 := by omega
  obtain ⟨noExact, noFlow, noMac⟩ := noHash
  subst hd
  unfold scrubRepair
  simp only [found, broken, on, noTcam, noExact, noFlow, noMac, decide_false, Bool.not_true, Bool.or_self,
    Bool.false_eq_true, if_false]
  rfl

/-! ## Pass deadlines and scan passes (R204 to R207, R215) -/

section
variable {s : State} {n : Nat} {e : CalEvent}

theorem passRow_scan (due : Due s blkFLOW 1 0 n e) : passRow false s = scanFire (s.fireEvent n e) e.deadline false := by
  unfold passRow
  simp only [Bool.false_eq_true, if_false, due]

theorem passRow_sweep (due : Due s blkLEARN 1 0 n e) : passRow true s = sweepFire (s.fireEvent n e) e.deadline false := by
  unfold passRow
  simp only [if_true, due]

end

theorem passRetry_waiting {s : State} {sweep : Bool} {t : Nat} (waits : Tbl.get? s.tableRetry (b2n sweep) = some t) :
    passRetry sweep s = schedulePass (s.reach t) sweep (s.reach t).ns := by
  unfold passRetry
  simp only [waits]

section
variable {s : State} (runs : s.scanning = true)
include runs

/-- With no flush begun before the pass, its end removes the expired flows alone. -/
theorem scanEnd_noFlush (noFlush : s.flushing.take s.scanPos = []) : scanEnd s = checkClose (passRemoves s []) := by
  unfold scanEnd
  simp only [runs, noFlush, List.isEmpty_nil, Bool.not_true, Bool.false_eq_true, if_false, if_true]

/-- The flushes begun before the pass end with it, and the page's interrupt tells so. -/
theorem scanEnd_flush (flushes : s.flushing.take s.scanPos ≠ []) :
    scanEnd s = checkClose ((passRemoves s (s.flushing.take s.scanPos)).istat blkFLOW 0 2) := by
  unfold scanEnd
  simp only [runs, List.isEmpty_eq_false_iff.2 flushes, Bool.not_true, Bool.false_eq_true, if_false]

end

/-- A removal that is queued deletes an entry that is still VALID and expired. -/
theorem queuedRemoval_expired {s u : State} {pos : Nat} {e : Entry} (queued : s.removeQ.contains pos = true)
    (hu : u = { s with removeQ := setDel s.removeQ pos }) (found : entryAt u 7 pos = some e) (valid : e.valid = true)
    (late : flowExpired u e u.ns = true) : queuedRemoval pos s = (delEntry u 7 pos).bumpStat FLOW.EXPIRED 0 := by
  subst hu
  unfold queuedRemoval
  simp only [queued, found, valid, late, Bool.not_true, Bool.and_self, Bool.false_eq_true, if_false, if_true]

/-! ## Learning and its notifications (R208, R210) -/

theorem execLearnRequest_front {s : State} {r : LearnReq} {t : List LearnReq} (front : s.learnQ = r :: t) :
    execLearnRequest s = ok (takeLearn r { s with learnQ := t }) := by
  unfold execLearnRequest
  simp only [front]

/-- NR_CONS is stored when it stays behind NR_PROD, and no entry follows without an overrun. -/
theorem nrCons_behind {s : State} {v : Word} (noOverrun : s.nrOvr = false)
    (behind : (v.toNat + 2 ^ 32 - s.rd LEARN.NR_CONS) % 2 ^ 32 ≤
      (s.rd LEARN.NR_PROD + 2 ^ 32 - s.rd LEARN.NR_CONS) % 2 ^ 32) : nrCons v s = s.wr LEARN.NR_CONS 0 v.toNat := by
  have kept : (s.wr LEARN.NR_CONS 0 v.toNat).nrOvr = false := (State.wr_nrOvr ..).trans noOverrun
  unfold nrCons
  simp only [Nat.not_lt.2 behind, kept, Bool.false_and, Bool.false_eq_true, if_false]

/-! ## The rows -/

/-- Settles O11, row by row: the entry, the event, the queue or the register selects the branch of the row's meaning. A pass
deadline's row finds its event on the calendar first, and its time reaches at least the deadline (log 9). -/
theorem tableRowsRun : Obligations.TableRowsRun := by
  refine ⟨?scan, ?scrub, ?pass, ?passEnd, ?removal, ?retry, ?learn, ?cons⟩
  case scan =>
    intro s u bad row hrow hu
    subst hrow hu
    rfl
  case scrub =>
    intro s code pos e d direct found broken on hd
    have run := congrArg ok (scrubRepair_direct direct found broken on hd)
    exact ⟨fun intact => run.trans (congrArg ok (if_pos intact)), fun corrupt => run.trans (congrArg ok (if_neg corrupt))⟩
  case pass => exact fun s n e => ⟨fun due => congrArg ok (passRow_scan due), fun due => congrArg ok (passRow_sweep due)⟩
  case passEnd =>
    exact fun s runs => ⟨fun noFlush => congrArg ok (scanEnd_noFlush runs noFlush),
      fun flushes => congrArg ok (scanEnd_flush runs flushes)⟩
  case removal =>
    exact fun s u pos e queued hu found valid late => congrArg ok (queuedRemoval_expired queued hu found valid late)
  case retry => exact fun s sweep t waits => congrArg ok (passRetry_waiting waits)
  case learn => exact fun s r t front => execLearnRequest_front front
  case cons =>
    intro s who v reaches noOverrun behind
    exact congrArg ok ((pageWrite_reaches _ reaches).trans (nrCons_behind noOverrun behind))

/-! ## Table commands -/

/-- Settles O28: on each of the four pages, each row is the page command of that page and its opcode. -/
theorem tableCommandsRun : Obligations.TableCommandsRun := by
  intro c s
  and_intros <;> exact fun page => commandRuns_of_exec rfl

end Sys2Proof.Machine
end

section
/-! PROOFS. RDMA transport: request packets, acknowledgements and NAKs, responses to READs and atomics, timers, atomics that
the host answers, and the commands of queue pairs, memory keys and contexts (R224 to R259, R272). -/

namespace Sys2Proof.Machine

/-! ## Request packets (R229, R236) -/

/-- A packet of its QP's port and function reaches the engine: a local one as it is, another with its ICRC and vport right. -/
theorem rdmaRequest_taken {s : State} {p : RdmaPkt} {q : Qp} (found : Tbl.get? s.qps p.qpn.toNat = some q)
    (port : p.port.val = Qp'.port q) (func : p.sel.toNat = Qp'.func q) (same : p.local_ = Qp'.islocal q)
    (passes : p.local_ = true ∨ p.icrcOk = true ∧ vportAgrees s q = true) (plain : p.opcode.toNat / 32 = 0) :
    rdmaRequest p s = enginePkt s p.qpn.toNat p := by
  have intact : (!p.local_ && !p.icrcOk) = false := by
    rcases passes with here | ⟨icrc, -⟩
    · rw [here]; rfl
    · rw [icrc]; exact Bool.and_false _
  have agrees : (!p.local_ && !vportAgrees s q) = false := by
    rcases passes with here | ⟨-, vport⟩
    · rw [here]; rfl
    · rw [vport]; exact Bool.and_false _
  have sameSide : (p.local_ != Qp'.islocal q) = false := by rw [same]; exact bne_self_eq_false _
  unfold rdmaRequest
  simp only [intact, found, port, func, sameSide, agrees, plain, ne_eq, not_true_eq_false, Bool.false_eq_true,
    Nat.reduceEqDiff, false_and, or_self, if_false]

/-! ## Acknowledgements and NAKs (R226, R241, R243) -/

/-- The status with which a NAK of a code other than PSN Sequence Error ends the request it names (log 31). -/
def nakStatus : Nat → Nat
  | 1 => 0x11
  | 2 => 0x10
  | _ => 0x15

section
variable {s u : State} {n psn : Nat} {q : Qp} (found : Tbl.get? s.qps n = some q) (ready : q.state = 3)
  (goBackN : q.srSend = false)
include found ready goBackN

/-- A QP that still sends go-back-N after the acknowledgement has no SACK blocks to look at. -/
theorem rdmaAck_goBackN (sr : Bool) (blocks : List (Nat × Nat)) {q' : Qp}
    (after : Tbl.get? (ackCum (s.bumpStat RDMA.RX (engOf n)) n psn).qps n = some q') (goBackN' : q'.srSend = false) :
    rdmaAck n psn sr blocks s = ackCum (s.bumpStat RDMA.RX (engOf n)) n psn := by
  unfold rdmaAck
  simp only [found, ready, goBackN, after, goBackN', ne_eq, not_true_eq_false, Bool.false_and, Bool.not_false, Bool.true_or,
    Bool.false_eq_true, if_false, if_true]

variable (hu : u = ackCum (s.bumpStat RDMA.RX (engOf n)) n (psn + 16777215))
include hu

/-- A NAK acknowledges what precedes it; one that is no PSN Sequence Error then takes the QP to ERROR. -/
theorem rdmaNak_error (sr : Bool) {code : Nat} (noSequence : code ≠ 0) :
    rdmaNak n psn code sr s = qpError u n (nakStatus code) (some psn) := by
  subst hu
  unfold rdmaNak
  simp only [found, ready, goBackN, ne_eq, not_true_eq_false, Bool.false_eq_true, if_false]
  match code with
  | 0 => exact absurd rfl noSequence
  | 1 | 2 | _ + 3 => rfl

variable (noWait : q.rnrWait = none)
include noWait

/-- One RNR NAK more than the QP's limit takes it to ERROR. -/
theorem rnrNak_exhausted (limited : qb q.attr 1 37 35 ≠ 7) (spent : qb q.attr 1 37 35 ≤ rnrCount s n q psn) :
    rnrNak n psn s = qpError u n 0x13 (some psn) := by
  subst hu
  unfold rnrNak
  simp only [found, ready, goBackN, noWait, limited, spent, ne_eq, not_true_eq_false, not_false_eq_true, and_self,
    Option.isSome_none, Bool.false_eq_true, if_false, if_true]

/-- Within the limit, or with none, the message that the NAK names waits for its RNR timer. -/
theorem rnrNak_waits {v : State} (within : qb q.attr 1 37 35 = 7 ∨ rnrCount s n q psn < qb q.attr 1 37 35)
    (scheduled : qpSchedule u n 2 (u.ns + qb q.attr 3 15 0 * 1000) = (v, true)) :
    rnrNak n psn s = updQp v n (fun x =>
      { x with rnr := rnrCount s n q psn + 1, rnrPsn := wrFirst s n psn,
               rnrWait := some (u.ns + qb q.attr 3 15 0 * 1000, psn) }) := by
  have goesOn : ¬ (qb q.attr 1 37 35 ≠ 7 ∧ qb q.attr 1 37 35 ≤ rnrCount s n q psn) :=
    fun ⟨limited, spent⟩ => within.elim limited (Nat.not_lt.2 spent)
  subst hu
  unfold rnrNak
  simp only [found, ready, goBackN, noWait, goesOn, scheduled, ne_eq, not_true_eq_false, Option.isSome_none,
    Bool.false_eq_true, if_false]

end

/-! ## Responses (R247) -/

section
variable {s : State} {n psn k : Nat} {q : Qp} {r : Queue} {it : WorkItem} (found : Tbl.get? s.qps n = some q)
  (ring : ringOf s n 2 = some k) (queue : Tbl.get? s.queues k = some r) (ready : q.state = 3)
include found ring queue ready

/-- Data of a READ that comes in order and leaves some missing is placed, charged and noted. -/
theorem readResponse_partial {u : State} {off : Nat} {bs : List Byte}
    (names : r.items.find? (fun i => wrOp i == 0x14 && i.fate.isNone && wrCovers psn i) = some it)
    (fresh : it.rgot.contains psn = false) (inOrder : it.placed = off) (more : it.placed + bs.length < wrLen it)
    (hu : u = placeBytes (s.bumpStat RDMA.RX (engOf n)) (Qp'.port q) (Qp'.func q) (scatter it.entries off bs)) :
    readResponse n psn off bs s = updItem (charge u (engOf n) (Qp'.owner q) 23 bs.length u.ns) k it.idx (fun _ =>
      { it with placed := it.placed + bs.length, rgot := it.rgot ++ [psn] }) := by
  have missing : ¬ wrLen { it with placed := it.placed + bs.length, rgot := it.rgot ++ [psn] } ≤ it.placed + bs.length :=
    Nat.not_le.2 more
  subst hu inOrder
  unfold readResponse
  simp only [found, ring, queue, names, ready, fresh, missing, Option.bind_some, ne_eq, not_true_eq_false,
    beq_self_eq_true, Bool.not_true, Bool.and_false, Bool.false_eq_true, or_self, if_false]

/-- The response of an atomic is placed whole, and the request is done. -/
theorem atomicAck_done (orig : Dword) (names : r.items.find? (fun i =>
      isRead i && wrOp i != 0x14 && i.fate.isNone && wrCovers psn i) = some it) :
    atomicAck n psn orig s = readWrDone (placeBytes (s.bumpStat RDMA.RX (engOf n)) (Qp'.port q) (Qp'.func q)
      [(qw (it.entries.headD []) 1, leBytes 8 orig.toNat)]) n k it := by
  unfold atomicAck
  simp only [found, ring, queue, names, ready, Option.bind_some, ne_eq, not_true_eq_false, if_false]

end

/-! ## Congestion notifications and timers (R230, R241, R243, R251) -/

theorem cnp_counts {s : State} {n : Nat} {q : Qp} (found : Tbl.get? s.qps n = some q) :
    cnp n s = (setQp s n { q with cnpRx := q.cnpRx + 1 }).bumpStat RDMA.CNP_RX (engOf n) := by
  unfold cnp
  rw [found]

theorem qpTimer_due {s : State} {kind n i : Nat} {e : CalEvent} (act : State → Nat → State)
    (due : Due s blkRDMA kind n i e) : qpTimer kind act n s = act (s.fireEvent i e) n := by
  unfold qpTimer
  rw [due]

/-- A retransmit timer whose schedule was refused is armed again, and sending goes on. -/
theorem timerAgain_retransmit {s : State} {n t : Nat} {q : Qp} (found : Tbl.get? s.qps n = some q)
    (refused : q.timerRetry = true) (again : q.timer = some t) (noWait : q.rnrWait = none) :
    timerAgain n s = runQp (armTimer (s.reach t) n) n := by
  unfold timerAgain
  simp only [found, refused, again, noWait]

/-! ## Atomics that the host answers (R244) -/

section
variable {s u : State} {n psn msg addr st : Nat} {q : Qp} {x y : Dword} (found : Tbl.get? s.qps n = some q)
  (runs : q.atoms.find? (fun a => a.1 == psn && decide (a.2.2.2.1 < 2)) = some (psn, msg, addr, st, x, y))
  (hu : u = setQp s n { q with atoms := q.atoms.filter (fun a => a.1 != psn) })
include found runs hu

/-- An atomic that the host fails is answered with a Remote Operational Error. -/
theorem hostAtomic_failed : hostAtomic n psn none s = atomNext (sendNak u n psn 3) (Qp'.port q) addr := by
  subst hu
  unfold hostAtomic
  simp only [found, runs]

/-- With AtomicOps the host has done the operation: the original value is kept and sent. -/
theorem hostAtomic_atomicOp (atomicOps : bit (qw q.attr 1) 31 = true) (o : Dword) :
    hostAtomic n psn (some o) s = atomNext (atomicResponse (touchQp (updQp u n (fun q =>
      { q with cache := (q.cache ++ [(psn, o)]).drop (q.cache.length + 1 - 16) })) n) n psn msg o) (Qp'.port q) addr := by
  subst hu
  unfold hostAtomic
  simp only [found, runs, atomicOps, if_true]

end

/-! ## The rows -/

/-- Settles O12, row by row: the QP, the work request that a PSN belongs to, or the event selects the branch of the row's
meaning. The status that a NAK's code stands for is the model's choice (log 31). A timer's row finds its event on the
calendar first, and its time reaches at least the deadline (log 9). -/
theorem rdmaRowsRun : Obligations.RdmaRowsRun := by
  refine ⟨?request, ?acks, ?read, ?atomic, ?congestion, ?timers, ?retry, ?host⟩
  case request =>
    exact fun s p q found port func same passes plain =>
      congrArg ok (rdmaRequest_taken found port func same passes plain)
  case acks =>
    intro s n psn q found ready goBackN
    have nak := fun (code : BitVec 2) (sr : Bool) (noSequence : code.toNat ≠ 0) =>
      congrArg ok (rdmaNak_error (psn := psn.toNat) found ready goBackN rfl sr noSequence)
    refine ⟨?ack, ?naks, ?exhausted, ?waits⟩
    case ack =>
      exact fun sr bl q' after goBackN' => congrArg ok (rdmaAck_goBackN found ready goBackN sr bl after goBackN')
    case naks => exact fun sr => ⟨nak 2 sr (by decide), nak 1 sr (by decide), nak 3 sr (by decide)⟩
    case exhausted =>
      exact fun noWait limited spent => congrArg ok (rnrNak_exhausted found ready goBackN rfl noWait limited spent)
    case waits =>
      exact fun u v hu noWait within scheduled =>
        congrArg ok (rnrNak_waits found ready goBackN hu noWait within scheduled)
  case read =>
    intro s u n psn off last bs q k r it found ring queue names ready fresh inOrder more hu
    subst hu
    exact congrArg ok (readResponse_partial found ring queue ready names fresh inOrder more rfl)
  case atomic =>
    exact fun s n psn orig q k r it found ring queue names ready =>
      congrArg ok (atomicAck_done found ring queue ready orig names)
  case congestion => exact fun s n q found => congrArg ok (cnp_counts found)
  case timers => exact fun s n i e => ⟨fun due => congrArg ok (qpTimer_due _ due), fun due => congrArg ok (qpTimer_due _ due)⟩
  case retry =>
    exact fun s n q t found refused again noWait => congrArg ok (timerAgain_retransmit found refused again noWait)
  case host =>
    intro s u n psn q msg addr x y st found runs hu
    exact ⟨congrArg ok (hostAtomic_failed found runs hu),
      fun atomicOps o => congrArg ok (hostAtomic_atomicOp found runs hu atomicOps o)⟩

/-! ## Commands of queue pairs, memory keys and contexts -/

/-- Settles O29: each row is the page command of its block and opcode; a QP_MODIFY row gives the target state itself. -/
theorem rdmaCommandsRun : Obligations.RdmaCommandsRun := by
  intro c s
  and_intros <;> exact commandRuns_of_exec rfl

end Sys2Proof.Machine
end

section
/-! PROOFS. The step of a queue with a command at its front. -/

namespace Sys2Proof.Machine

/-- Settles O35: the step's own case of a queue that is not empty (`step_front`). -/
theorem stepRunsFront : Obligations.StepRunsFront := fun _ _ _ front => step_front front

end Sys2Proof.Machine
end

section
/-! PROOFS. Context paging: demands, fetches and writebacks, host backing, parking deadlines and the store's occupancy (R260
to R271). -/

namespace Sys2Proof.Machine

/-! ## Demands and transfers (R260, R262, R264) -/

section
variable {s : State} {h : Nat} {c : Ctx} (found : Tbl.get? s.ctxs h = some c)
include found

theorem demand_resident (state : c.state = 3) (here : c.waitSlot = false) (free : c.lock = none) :
    (demand s h).1 = updCtx s h (fun c => { c with ref := true }) := by
  unfold demand
  simp only [found, state, here, free, Option.isSome_none, Bool.or_self, Bool.false_eq_true, if_false]

theorem demand_home (state : c.state = 1) (noWait : c.waitSlot = false) : (demand s h).1 = tryFetch s h false := by
  unfold demand
  simp only [found, state, noWait, Bool.false_eq_true, if_false]

theorem demand_leaving (state : c.state = 4) : (demand s h).1 = updCtx s h (fun c => { c with demand := true }) := by
  unfold demand
  simp only [found, state]

theorem demand_quarantined (state : c.state = 5) : (demand s h).1 = s.bumpErr blkLEVAIN 0 5 := by
  unfold demand
  simp only [found, state]

theorem fetchDone_data (state : c.state = 2) (bs : List Byte) :
    fetchDone h (.data bs) s = becomesResident (updCtx (s.raiseMax LEVAIN.FETCH_MAX 0 (s.ns - c.started)) h
      (fun c => { c with state := 3, ref := true, demand := false, dirty := false })) h := by
  unfold fetchDone
  simp only [found, state, ne_eq, not_true_eq_false, if_false]

/-- A store-held context whose destruction waited for its writeback is written and then freed, whatever the write met. -/
theorem writebackDone_destroy (state : c.state = 4) (due : c.destroyDue = true) (store : c.hb = false) (good : Bool) :
    writebackDone h good s = freeHandle (evictEnds (updCtx (storeWrite s h c) h
      (fun c => { c with state := 1, dirty := false })) h 0) h := by
  unfold writebackDone
  simp only [found, state, due, store, ne_eq, not_true_eq_false, Bool.not_false, Bool.or_true, if_false, if_true]

end

/-! ## Host backing (R265) -/

section
variable {s : State} {port : Nat}

theorem hbOn_accepted (off : (funcOf s port 0).hbValid = false) (enabled : hbEnabled s port = true)
    (aligned : (funcOf s port 0).hbBaseLo.toNat % 4096 = 0) (some_ : 1 ≤ (funcOf s port 0).hbPages.toNat)
    (within : (funcOf s port 0).hbPages.toNat ≤ 0x100000) :
    hbOn port s = setFunc s port 0 { funcOf s port 0 with hbValid := true } := by
  unfold hbOn
  simp only [off, enabled, aligned, some_, within, decide_true, beq_self_eq_true, Bool.and_self, Bool.false_eq_true,
    if_false, if_true]

/-- With nothing host-backed, writing VALID 0 only begins the drain. -/
theorem hbOff_empty (on : (funcOf s port 0).hbValid = true)
    (empty : (s.ctxs.filter (fun x => x.2.hb && x.2.port == port)) = []) :
    hbOff port s = setHport s port { hportOf s port with hbDrain := true } := by
  have same : (setHport s port { hportOf s port with hbDrain := true }).ctxs = s.ctxs := rfl
  unfold hbOff
  simp only [on, same, empty, List.foldl_nil, Bool.not_true, Bool.false_eq_true, if_false]

theorem drainDone_empty (drains : (hportOf s port).hbDrain = true)
    (empty : s.ctxs.any (fun x => x.2.hb && x.2.port == port) = false) {u : State}
    (hu : u = setFunc s port 0 { funcOf s port 0 with hbValid := false }) :
    drainDone s port = setHport u port { hportOf u port with hbDrain := false, hbSlots := [] } := by
  subst hu
  unfold drainDone
  simp only [drains, empty, Bool.not_false, Bool.and_self, if_true]

end

/-! ## Parking and occupancy (R269, R271) -/

/-- The deadline of a context's parked packets drops them all and counts each. -/
theorem parkFire_drops {s : State} {h : Nat} {c : Ctx} (found : Tbl.get? s.ctxs h = some c)
    (holds : c.parked.length + c.rparked.length ≠ 0) :
    parkFire s h false = (dropParked s h).bumpErr blkLEVAIN 0 1 (c.parked.length + c.rparked.length) := by
  unfold parkFire
  simp only [found, holds, Bool.false_and, Bool.false_eq_true, if_false]

theorem execParkTimeExpiry_due {s : State} {h : BitVec 25} {n : Nat} {e : CalEvent} (due : Due s blkLEVAIN 1 h.toNat n e) :
    execParkTimeExpiry h s = ok (parkFire (s.fireEvent n e) h.toNat false) := by
  unfold execParkTimeExpiry
  rw [due]

theorem storeTick_due {s : State} {e : CalEvent} (due : s.pendingEvent 34 blkLEVAIN 2 0 = some e) :
    storeTick s = chargeFire (s.fireEvent 34 e) := by
  unfold storeTick
  rw [due]

theorem execLevainSchedRetry_waiting {s : State} {t : Nat} (waits : s.chargeRetry = some t) :
    execLevainSchedRetry s = ok (scheduleCharge (s.reach t) (max t s.ns)) := by
  unfold execLevainSchedRetry
  rw [waits]

/-! ## The rows -/

/-- Settles O13, row by row: the context, the host-backing region or the event selects the branch of the row's meaning. A
deadline's row finds its event on the calendar, and its time reaches at least the deadline (log 9). -/
theorem contextRowsRun : Obligations.ContextRowsRun := by
  refine ⟨?transfers, ?region, ?drained, ?park, ?charge, ?retry⟩
  case transfers =>
    intro s h c found
    exact ⟨fun state here free => congrArg ok (demand_resident found state here free),
      fun state noWait => congrArg ok (demand_home found state noWait),
      fun state => congrArg ok (demand_leaving found state),
      fun state => congrArg ok (demand_quarantined found state),
      fun state bs => congrArg ok (fetchDone_data found state bs),
      fun state due store good => congrArg ok (writebackDone_destroy found state due store good)⟩
  case region =>
    intro s p v answers
    have run := fun k => congrArg ok (barWrite_answers k answers)
    exact ⟨fun off enabled aligned some_ within =>
        (run _).trans (congrArg ok (hbOn_accepted off enabled aligned some_ within)),
      fun on empty => (run _).trans (congrArg ok (hbOff_empty on empty))⟩
  case drained => exact fun s u p drains empty hu => congrArg ok (drainDone_empty drains empty hu)
  case park =>
    intro s u h n e c due hu found holds
    subst hu
    exact (execParkTimeExpiry_due due).trans (congrArg ok (parkFire_drops found holds))
  case charge => exact fun s e due => congrArg ok (storeTick_due due)
  case retry => exact fun s t waits => execLevainSchedRetry_waiting waits

end Sys2Proof.Machine
end

section
/-! PROOFS. The storage front end: controllers and doorbells, the fetch turn, a controller's commands, backings and their
deadlines, and the commands of the NVME and RLOCK pages (R131, R273 to R297). -/

namespace Sys2Proof.Machine

/-! ## Registers and doorbells (R131, R274) -/

section
variable {s : State} {port sel i y v : Nat} {c : NvCtl} {q : NvQ} (found : ctlOf s port sel = some (i, c))
include found

/-- A tail within the queue that takes back no entry is stored, and the queue's context is demanded. -/
theorem sqDoorbell_accepted (queue : c.sq? y = some q) (within : v < q.size)
    (onward : ringDist q.size q.head q.tail ≤ ringDist q.size q.head v) :
    sqDoorbell port sel y v s = (demand
      { updSq s i y (fun q => { q with tail := v }) with
        ctxs := Tbl.upd (updSq s i y (fun q => { q with tail := v })).ctxs q.handle (fun x => { x with dirty := true }) }
      q.handle).1 := by
  unfold sqDoorbell
  simp only [found, queue, Nat.not_le.2 within, Nat.not_lt.2 onward, or_self, if_false]

/-- A head that passes no entry yet to be written is stored, and completions held back follow. -/
theorem cqDoorbell_accepted (queue : c.cq? y = some q) (within : v < q.size)
    (behind : ringDist q.size q.head v ≤ ringDist q.size q.head q.tail) :
    cqDoorbell port sel y v s = drainCq i y (q.held.length + 1)
      (updCq { s with ctxs := Tbl.upd s.ctxs q.handle (fun x => { x with dirty := true }) } i y
        (fun q => { q with head := v })) := by
  unfold cqDoorbell
  simp only [found, queue, Nat.not_le.2 within, Nat.not_lt.2 behind, or_self, if_false]

end

/-! ## The fetch turn and its commands (R277, R280, R282, R292) -/

theorem fetchTurn_arbitrated {s : State} {i y : Nat} {c : NvCtl} (sqes : List (List Dword))
    (turn : (Tbl.get? s.ctls i).bind arbitrate = some (y, c)) :
    fetchTurn i sqes s = fetchAll i y (if (Tbl.getD c.feats 1 (0 : Word)).toNat % 8 = 7 then sqes
      else sqes.take (2 ^ ((Tbl.getD c.feats 1 (0 : Word)).toNat % 8))) (setCtl s i c) := by
  unfold fetchTurn
  rw [turn]

theorem ioCommand_ioSq (s : State) (ctl op : Nat) (e : List Dword) (ranges : Option (List (Nat × Nat))) {sq : Nat}
    (io : sq ≠ 0) : ioCommand ctl sq op e ranges s = oneCommand ctl sq op e ranges s := if_neg io

theorem adminCommand_adminSq (s : State) (ctl op : Nat) (e : List Dword) :
    adminCommand ctl 0 op e s = oneCommand ctl 0 op e none s := if_neg (not_not_intro rfl)

/-! ## Range locks and backings (R282 to R291) -/

section
variable {s : State} {t : Nat} {x : NvCmd} (found : s.nvCmds.find? (fun c => c.token == t) = some x)
include found

section
variable (waits : x.phase = 0) (free : blocked s x = false)
include waits free

/-- A command granted its ranges on a namespace that has lost its backing is held. -/
theorem lockGrant_held (lost : (Tbl.get? s.nss x.ns).map (fun n => n.state) = some 1) :
    lockGrant t s = updCmd s t (fun c => { c with phase := 2 }) := by
  unfold lockGrant
  simp only [found, waits, free, lost, ne_eq, not_true_eq_false, Bool.false_eq_true, or_self, beq_self_eq_true, if_false,
    if_true]

/-- On any other namespace it starts. -/
theorem lockGrant_starts (kept : (Tbl.get? s.nss x.ns).map (fun n => n.state) ≠ some 1) :
    lockGrant t s = startAtBacking s x := by
  unfold lockGrant
  simp only [found, waits, free, beq_false_of_ne kept, ne_eq, not_true_eq_false, Bool.false_eq_true, or_self, if_false]

end

/-- A piece that fails while others are outstanding leaves its status, if it is the first to fail. -/
theorem backingDone_failed (st : Nat) (runs : x.phase = 1) (more : 2 ≤ x.pieces) :
    backingDone t .failed st s = updCmd s t (fun _ =>
      { x with status := if x.status = 0 then 0x06 else x.status, pieces := x.pieces - 1 }) := by
  have left : x.pieces - 1 ≠ 0 := by omega
  unfold backingDone
  simp only [found, runs, left, ne_eq, not_true_eq_false, not_false_eq_true, Nat.reduceEqDiff, and_false, if_false, if_true]

theorem bkTimeoutFire_lost (runs : x.phase = 1) : bkTimeoutFire s t = nsLost s x.ns := by
  unfold bkTimeoutFire
  simp only [found, runs, if_true]

theorem bkRetry_timeout {r d : Nat} (refused : x.timeoutRetry = some r) (deadline : x.timeout = some d) :
    bkRetry false t s = bkTimeoutAt (s.reach r) t d := by
  unfold bkRetry
  simp only [found, refused, deadline, Bool.false_eq_true, if_false]

end

/-! ## Deadlines of the front end (R290, R294) -/

section
variable {s : State} {n : Nat} {e : CalEvent}

theorem execBkTimeoutExpiry_due {t : Nat} (due : Due s blkNVME 1 t n e) :
    execBkTimeoutExpiry t s = ok (bkTimeoutFire (s.fireEvent n e) t) := by
  unfold execBkTimeoutExpiry
  rw [due]

theorem execBkHoldExpiry_due {k : BitVec 13} (due : Due s blkNVME 2 k.toNat n e) :
    execBkHoldExpiry k s = ok (bkHoldFire (s.fireEvent n e) k.toNat) := by
  unfold execBkHoldExpiry
  rw [due]

theorem execCoalescingTimeExpiry_due {i : Fin 1024} (due : Due s blkNVME 3 i.val n e) :
    execCoalescingTimeExpiry i s = ok (coalFire (s.fireEvent n e) i.val) := by
  unfold execCoalescingTimeExpiry
  rw [due]

end

/-! ## The rows -/

/-- Settles O14, row by row: the controller, the queue, the command's token or the event selects the branch of the row's
meaning. That status 0x06 ends a failed piece and how CC.SHN is coded are the model's choice (log 40), as is that a command's
row brings and starts its one entry (log 41). -/
theorem nvmeRowsRun : Obligations.NvmeRowsRun := by
  refine ⟨?registers, ?turn, ?io, ?admin, ?grant, ?failed, ?timeout, ?hold, ?retry, ?coalescing⟩
  case registers =>
    intro s p sel answers
    have run := fun k => congrArg ok (barWrite_answers k answers)
    have stores := fun {m n : Nat} (h : m = n) => congrArg (fun n => ok (ccWrite s p.val sel.toNat n)) h
    refine ⟨fun v => ⟨run _, run _, fun named => (run _).trans (stores (if_neg named)),
      fun unnamed => (run _).trans (stores (if_pos unnamed))⟩, ?tail, ?head⟩
    case tail =>
      exact fun i y c q v found queue within onward =>
        (run _).trans (congrArg ok (sqDoorbell_accepted found queue within onward))
    case head =>
      exact fun i y c q v found queue within behind =>
        (run _).trans (congrArg ok (cqDoorbell_accepted found queue within behind))
  case turn => exact fun s i sqes y c turn => congrArg ok (fetchTurn_arbitrated sqes turn)
  case io =>
    intro s i sq e ioSq
    have run := fun op ranges => congrArg ok (ioCommand_ioSq s i.val op e ranges ioSq)
    exact ⟨run 0x00 none, run 0x01 none, run 0x02 none, run 0x08 none, fun rs => run 0x09 rs⟩
  case admin =>
    intro s i e
    have run := fun op => congrArg ok (adminCommand_adminSq s i.val op e)
    exact ⟨run 0x01, run 0x05, run 0x00, run 0x04, run 0x02, run 0x06, run 0x08, run 0x09, run 0x0A, run 0x0C⟩
  case grant =>
    exact fun s t x found waits free => ⟨fun lost => congrArg ok (lockGrant_held found waits free lost),
      fun kept => congrArg ok (lockGrant_starts found waits free kept)⟩
  case failed => exact fun s t x st found runs more => congrArg ok (backingDone_failed found st.toNat runs more)
  case timeout =>
    exact fun s t n e x due found runs =>
      (execBkTimeoutExpiry_due due).trans (congrArg ok (bkTimeoutFire_lost found runs))
  case hold => exact fun s k n e due => execBkHoldExpiry_due due
  case retry => exact fun s t d r x found refused deadline => congrArg ok (bkRetry_timeout found refused deadline)
  case coalescing => exact fun s i n e due => execCoalescingTimeExpiry_due due

/-! ## Commands of the NVME and RLOCK pages -/

/-- Settles O30: each row is the page command of its block and opcode; the management commands share MGMT_ADMIN's opcode. -/
theorem storageCommandsRun : Obligations.StorageCommandsRun := by
  intro c s
  and_intros <;> exact commandRuns_of_exec rfl

end Sys2Proof.Machine
end

section
/-! PROOFS. Cipher engines, keys and MACsec: the ends of jobs, slot fetches, the DRBG's health, and the commands of the CIPHER,
KEYS and MACSEC pages (R299 to R318). -/

namespace Sys2Proof.Machine

/-! ## The ends of jobs (R303 to R305) -/

section
variable {s u : State} {i : Nat} {j : Job} (runs : (engineOf s i).run = some j)
  (healthy : s.faulted.contains (State.pk blkCIPHER i) = false) (hu : u = setEngine s i { engineOf s i with run := none })
include runs healthy hu

theorem jobEnds_packet (packet : j.pipe.isSome = true) (reply : ReadEnd) :
    jobEnds i reply s = checkKeyWaits (runEngine (endPacketJob u i j) i) := by
  subst hu
  unfold jobEnds
  simp only [runs, healthy, packet, Bool.false_eq_true, if_false, if_true]

theorem jobEnds_provider (provider : j.pipe = none) (reply : ReadEnd) :
    jobEnds i reply s = checkKeyWaits (runEngine
      (endWaiting (endProviderJob u i j reply).1 blkCIPHER i 0x01 (endProviderJob u i j reply).2) i) := by
  subst hu
  unfold jobEnds
  simp only [runs, healthy, provider, Option.isSome_none, Bool.false_eq_true, if_false]

end

/-! ## Slot fetches and the DRBG (R306, R310) -/

/-- A good slot record that a job waits for comes into the cache, and FETCH_MAX takes a time that nothing fixes (log 59). -/
theorem slotFetched_good {s u : State} {n : Nat}
    (waits : s.engines.any (fun g => g.2.queue.any (fun j => j.fetching && j.slot == n)) = true)
    (hu : u = { s with engines := Tbl.mapV s.engines (fun _ g =>
      { g with queue := g.queue.map (fun (j : Job) => if j.slot = n then { j with fetching := false } else j) }) }) :
    slotFetched n true s = runEngines
      ((cacheSlot (u.fresh 32).2 n).raiseMax KEYS.FETCH_MAX 0 ((u.fresh 32).1.toNat % 501)) := by
  subst hu
  exact if_pos waits

/-- Without engine entries there is no queued job that the DRBG's failure ends. -/
theorem drbgFails_noEngines {s : State} (idle : s.engines = []) :
    drbgFails s = { s with dax := { s.dax with drbgOk := false } }.istat blkKEYS 0 2 := by
  have none : (({ s with dax := { s.dax with drbgOk := false } } : State).istat blkKEYS 0 2).engines = [] :=
    (State.istat_engines ..).trans idle
  unfold drbgFails
  simp only [none, List.foldl_nil]

/-! ## The rows -/

/-- Settles O15, row by row: the job that the engine runs, or a job that waits for the slot, selects the branch of the row's
meaning. -/
theorem cipherRowsRun : Obligations.CipherRowsRun := by
  refine ⟨?job, ?fetch, ?drbg⟩
  case job =>
    exact fun s u i j reply runs healthy hu =>
      ⟨fun packet => congrArg ok (jobEnds_packet runs healthy hu packet reply),
        fun provider => congrArg ok (jobEnds_provider runs healthy hu provider reply)⟩
  case fetch => exact fun s u n waits hu => congrArg ok (slotFetched_good waits hu)
  case drbg => exact fun s => ⟨rfl, fun idle => congrArg ok (drbgFails_noEngines idle)⟩

/-! ## Commands of the CIPHER, KEYS and MACSEC pages -/

/-- Settles O31: each row is the page command of its block and opcode. -/
theorem cipherCommandsRun : Obligations.CipherCommandsRun := by
  intro c s
  and_intros <;> exact commandRuns_of_exec rfl

end Sys2Proof.Machine
end

section
/-! PROOFS. Harts, tiles and clusters: the Kwegan instructions, the deadlines of harts, the release of the harts, self-tests
and canaries (R321 to R328, R339, R340). -/

namespace Sys2Proof.Machine

/-! ## The Kwegan instructions (R322 to R328) -/

section
variable {s u : State} {k : KwIn} (hu : u = kwBefore k s) (runs : (hartOf u k.hart.val).running = true)
  (coded : k.badEnc = false)
include hu runs coded

/-- An instruction that a hart's mode may use, rightly encoded, has its effect on the state before it. -/
theorem kwegan_runs {always : Bool} (f : State → State)
    (allowed : (always || k.mode.val == 0 || bit (hartOf u k.hart.val).kctrl.toNat (k.mode.val - 1)) = true) :
    kwegan always f k s = f u := by
  subst hu
  unfold kwegan
  simp only [runs, coded, allowed, Bool.not_true, Bool.or_self, Bool.false_eq_true, if_false]

/-- CRCC, TPLZ and the read of KRTIME are allowed in every mode. -/
theorem kwegan_always (f : State → State) : kwegan true f k s = f u := kwegan_runs hu runs coded f rfl

/-- The others are allowed in M mode and in a mode that KCTRL enables. -/
theorem kwegan_enabled (f : State → State)
    (mode : k.mode.val = 0 ∨ bit (hartOf u k.hart.val).kctrl.toNat (k.mode.val - 1) = true) :
    kwegan false f k s = f u := by
  refine kwegan_runs hu runs coded f ?_
  rcases mode with machine | enabled
  · rw [machine]; rfl
  · rw [enabled]; exact Bool.or_true _

end

section
variable {u t : State} {k : KwIn} {c : Nat}

section
variable (aligned : k.rs1.toNat % 32 = 0) (open_ : k.pmpNo = false)
include aligned open_

/-- A WGET that finds an item gets it. -/
theorem wgetGo_item (item : giveItem (chargeOut (endItem u k.hart.val) k.hart.val) k.hart.val k.rs1.toNat k.rd.val =
      (t, true)) : wgetGo k u = t := by
  unfold wgetGo
  simp only [aligned, open_, item, ne_eq, not_true_eq_false, Bool.false_eq_true, if_false]

theorem wputGo_submits (put : submitPut u k.hart.val (u.memGetQ k.rs1.toNat 4) = (t, c)) :
    wputGo k u = hartResult t k.hart.val k.rd.val (dw c) := by
  unfold wputGo
  simp only [aligned, open_, put, ne_eq, not_true_eq_false, Bool.false_eq_true, if_false]

end

theorem clockGo_answers (lock : lockCtx u k.hart.val (k.rs1.toNat % 2 ^ 25) = (t, c)) :
    clockGo k u = hartResult t k.hart.val k.rd.val (dw c) := by
  unfold clockGo
  rw [lock]

theorem callocGo_allocates (chain : allocCells u k.rs1.toNat = some (c, t)) :
    callocGo k u = hartResult t k.hart.val k.rd.val (dw c) := by
  unfold callocGo
  rw [chain]

theorem tsetGo_answers (timer : u.calSchedule (32 + tileOf k.hart.val)
      ⟨k.rs1.toNat, blkPROOFER, 1, k.rs2.toNat % 2 ^ 40⟩ = (t, c)) :
    tsetGo k u = hartResult t k.hart.val k.rd.val (dw c) := by
  unfold tsetGo
  rw [timer]

theorem tcancelGo_pending
    (pending : (u.pendingEvent (32 + tileOf k.hart.val) blkPROOFER 1 (k.rs1.toNat % 2 ^ 40)).isSome = true) :
    tcancelGo k u = hartResult (u.unschedule (32 + tileOf k.hart.val) blkPROOFER 1 (k.rs1.toNat % 2 ^ 40)) k.hart.val
      k.rd.val 0 := by
  refine if_neg ?_
  rw [← Option.not_isSome, pending]
  exact Bool.false_ne_true

end

/-! ## Deadlines of harts (R324, R325) -/

theorem wgetTimeout_waiting {s : State} {h a rd until_ : Nat} (waits : (hartOf s h).wait = some (a, rd, until_)) :
    wgetTimeout h s = hartResult (setHart (s.reach until_) h
      { hartOf (s.reach until_) h with wait := none, outSince := (s.reach until_).ns }) h rd 0 := by
  unfold wgetTimeout
  rw [waits]

/-- A lock that has been held for LOCK_LIMIT is reported, once. -/
theorem lockLimit_reports {s : State} {h by_ t : Nat} {c : Ctx} (found : Tbl.get? s.ctxs h = some c)
    (first : c.lockOver = false) (held : c.lock = some (by_, t)) :
    lockLimit h s = (updCtx ((s.reach (t + s.rd PROOFER.LOCK_LIMIT * 1000)).bumpErr blkPROOFER 0 2) h
      (fun c => { c with lockOver := true })).istat blkPROOFER 0 2 := by
  unfold lockLimit
  simp only [found, first, held, Option.bind_some, Bool.false_eq_true, if_false]

/-! ## Tiles (R321, R339, R340) -/

/-- The boot sequencer's last step releases the harts of every tile that is not FAULTED. -/
theorem hartRelease_stage3 {s : State} (loaded : s.boot.stage = 3) (up : s.flt.halt = false) :
    hartRelease s = (List.range 1024).foldl (fun (u : State) (h : Nat) =>
      if u.faulted.contains (State.pk blkTILE (tileOf h)) then u else startHart u h (stEntry s.boot.manifest 3) 0)
      (enterService s) := by
  refine if_neg ?_
  rw [loaded, up]
  exact fun h => h.elim (not_not_intro rfl) Bool.false_ne_true

theorem drainLimit_draining {s : State} {t : Nat} (draining : s.stateOf blkTILE t = 3) :
    drainLimit t s = startTest (redeliverAll (s.reach (Tbl.getD s.drainAt t s.ns)) (tileHarts t)) t :=
  if_neg (not_not_intro draining)

/-- The end of a TESTING tile's self-test with a result that R339 names. -/
theorem testDone_result {s u : State} {t r w : Nat} (testing : s.stateOf blkTILE t = 4) (low : 1 ≤ r) (high : r ≤ 3)
    (hu : u = (s.wr TILE.TEST_RESULT t (r + w * 256)).bumpStat TILE.TESTS t) :
    testDone t r w s = if r = 1 then tileServes u t
      else nextTest (raisePage (((u.setState blkTILE t 5).bumpErr blkTILE t 0).istat blkTILE t 2) blkTILE t 2) := by
  subst hu
  refine if_neg ?_
  omega

/-- A canary whose signature is the one its record holds clears its miss. -/
theorem runCanary_match {s u : State} {t : Nat} (on : bit (s.rd TILE.TILE_CTRL t) 8 = true)
    (hu : u = ({ s with canNext := Tbl.put s.canNext t ((Tbl.getD s.canNext t 0 + 1) % 4) } : State).bumpStat
      TILE.CANARY_RUN t)
    (same : (canarySig u t (canaryOf s t (Tbl.getD s.canNext t 0))).toNat =
      qb (canaryOf s t (Tbl.getD s.canNext t 0)) 24 63 32) :
    runCanary t s = { u with canMiss := Tbl.del u.canMiss (t * 4 + Tbl.getD s.canNext t 0) } := by
  subst hu
  unfold runCanary
  simp only [on, same, Bool.not_true, Bool.false_eq_true, if_false, if_true]

/-! ## The rows -/

/-- Settles O16, row by row: the operands, the lock, the chain or the timer selects the branch of an instruction's meaning. The
state `u` before an instruction is `kwBefore`'s: an interrupt has ended a WGET wait that is still open, and the hart's CSR
accesses that come with the row are made, both by the model's choice (log 61). -/
theorem kweganRowsRun : Obligations.KweganRowsRun := by
  refine ⟨?instructions, ?wait, ?limit⟩
  case instructions =>
    intro s u k hu runs coded
    have always := fun f => congrArg ok (kwegan_always hu runs coded f)
    refine ⟨always _, always _, always _, fun mode => ?_⟩
    have run := fun f => congrArg ok (kwegan_enabled hu runs coded f mode)
    exact ⟨fun aligned open_ =>
        ⟨fun t item => (run _).trans (congrArg ok (wgetGo_item aligned open_ item)),
          fun t c put => (run _).trans (congrArg ok (wputGo_submits aligned open_ put))⟩,
      run _,
      fun t c lock => (run _).trans (congrArg ok (clockGo_answers lock)),
      fun mine => (run _).trans (congrArg ok (if_pos mine)),
      fun t c chain => (run _).trans (congrArg ok (callocGo_allocates chain)),
      fun allocated => (run _).trans (congrArg ok (if_pos allocated)),
      fun t c timer => (run _).trans (congrArg ok (tsetGo_answers timer)),
      fun pending => (run _).trans (congrArg ok (tcancelGo_pending pending))⟩
  case wait => exact fun s h a rd until_ waits => congrArg ok (wgetTimeout_waiting waits)
  case limit => exact fun s h c by_ t found first held => congrArg ok (lockLimit_reports found first held)

/-- Settles O17, row by row: the boot stage, the tile's state, the test's result or the canary's signature selects the branch
of the row's meaning. -/
theorem coreRowsRun : Obligations.CoreRowsRun := by
  refine ⟨?release, ?drain, ?test, ?canary⟩
  case release => exact fun s loaded up => congrArg ok (hartRelease_stage3 loaded up)
  case drain => exact fun s t draining => congrArg ok (drainLimit_draining draining)
  case test =>
    intro s u t r w testing low high hu
    have ends := congrArg ok (testDone_result testing low high hu)
    exact ⟨fun pass => ends.trans (congrArg ok (if_pos pass)), fun fail => ends.trans (congrArg ok (if_neg fail))⟩
  case canary => exact fun s u t on hu same => congrArg ok (runCanary_match on hu same)

/-! ## Commands of the PROOFER, TILE, CLUSTER, MEMENC and memory controller pages -/

/-- Settles O32: each row is the page command of its block and opcode; those of a memory controller act on the HBM or the DDR5
page that the row names. -/
theorem coreCommandsRun : Obligations.CoreCommandsRun := by
  intro c s
  refine ⟨?qcfgWrite, ?qcfgRead, ?tweight, ?flush, ?selftest, ?canary, ?hartReset, ?regionWrite, ?regionRead,
    fun ddr => ?trainStart, fun ddr => ?dlyWrite, fun ddr => ?dlyRead, fun ddr => ?pattern, fun ddr => ?active,
    fun ddr => ?swap⟩ <;> exact commandRuns_of_exec rfl

end Sys2Proof.Machine
end

section
/-! PROOFS. The hash steps of a hart: CRCC and TPLZ bit by bit, and the CRC32C and Toeplitz hashes that they make up (R178,
R326). -/

namespace Sys2Proof.Machine

/-! ## Bits and bytes of numbers -/

theorem bit_eq_testBit (v i : Nat) : bit v i = v.testBit i := by
  rw [Nat.testBit_eq_decide_div_mod_eq]
  rfl

theorem setWidth_dw_toNat (c : Word) : (dw c.toNat).setWidth 32 = c := by
  apply BitVec.eq_of_toNat_eq
  rw [BitVec.toNat_setWidth, dw, BitVec.toNat_ofNat]
  omega

/-- Bit `i` of byte `k` of a number is its bit 8k + i. -/
theorem getLsbD_byte (v k : Nat) {i : Nat} (hi : i < 8) :
    (BitVec.ofNat 8 (v / 256 ^ k)).getLsbD i = v.testBit (8 * k + i) := by
  have bytes : 256 ^ k = 2 ^ (8 * k) := by rw [Nat.pow_mul]
  rw [BitVec.getLsbD_ofNat, bytes, Nat.testBit_div_two_pow, Nat.add_comm]
  simp only [hi, decide_true, Bool.true_and]

/-- Two folds over one list agree when their steps agree on its members. -/
theorem foldl_eq_of_mem {α β : Type} {f g : β → α → β} {l : List α} (a : β) (same : ∀ c, ∀ i ∈ l, f c i = g c i) :
    l.foldl f a = l.foldl g a :=
  List.foldl_rel (r := Eq) rfl (fun i hi c _ eq => eq ▸ same c i hi)

/-- A fold over 8n bits is one over n bytes, of the folds over their bits. -/
theorem foldl_range_octets {α : Type} (f : α → Nat → α) (a : α) (n : Nat) :
    (List.range (8 * n)).foldl f a =
      (List.range n).foldl (fun a k => (List.range 8).foldl (fun a i => f a (8 * k + i)) a) a := by
  induction n with
  | zero => rfl
  | succ n ih =>
    rw [Nat.mul_succ, List.range_add, List.foldl_append, ih, List.foldl_map, List.range_succ (n := n), List.foldl_append]
    rfl

/-! ## CRC32C (R326) -/

/-- The reflected CRC32C register `c` takes in one bit. -/
def crcFeed (c : Word) (b : Bool) : Word := if c.getLsbD 0 = b then c >>> 1 else (c >>> 1) ^^^ 0x82F63B78#32

/-- One bit step, by the lowest bit of the register. -/
theorem crcBit_eq (c : Word) : crcBit c = if c.getLsbD 0 then (c >>> 1) ^^^ 0x82F63B78#32 else c >>> 1 := by
  have odd : (c &&& 1 = 1) ↔ c.getLsbD 0 = true := by
    rw [show (1 : Word) = 1#32 from rfl, BitVec.and_one_eq_setWidth_ofBool_getLsbD]
    cases c.getLsbD 0 <;> decide
  unfold crcBit
  simp only [odd]
  rfl

/-- A register with data added takes in the data's lowest bit, and the rest of the data moves down. -/
theorem crcBit_xor (c d : Word) : crcBit (c ^^^ d) = crcFeed c (d.getLsbD 0) ^^^ (d >>> 1) := by
  have swap : ∀ x y z : Word, x ^^^ y ^^^ z = x ^^^ z ^^^ y := fun x y z => by ac_rfl
  rw [crcBit_eq, crcFeed, BitVec.getLsbD_xor, BitVec.ushiftRight_xor_distrib]
  cases c.getLsbD 0 <;> cases d.getLsbD 0
  case false.false => rfl
  case true.true => rfl
  case false.true => exact swap _ _ _
  case true.false => exact swap _ _ _

/-- After `n` bit steps the register has taken in the data's `n` lowest bits, and the rest of the data is still added. -/
theorem crcBit_repeat_xor (c d : Word) (n : Nat) :
    Nat.repeat crcBit n (c ^^^ d) = (List.range n).foldl (fun c i => crcFeed c (d.getLsbD i)) c ^^^ (d >>> n) := by
  induction n with
  | zero => rfl
  | succ n ih =>
    rw [Nat.repeat, ih, crcBit_xor, List.range_succ, List.foldl_append, List.foldl_cons, List.foldl_nil,
      BitVec.getLsbD_ushiftRight, Nat.add_zero, ← BitVec.shiftRight_add]

/-- A byte step takes in the byte's bits, lowest first. -/
theorem crcByte_eq (c : Word) (b : Byte) : crcByte c b = (List.range 8).foldl (fun c i => crcFeed c (b.getLsbD i)) c := by
  have gone : (b.setWidth 32 : Word) >>> 8 = 0#32 := by bv_omega
  have low : ∀ i ∈ List.range 8, (b.setWidth 32 : Word).getLsbD i = b.getLsbD i := by
    intro i hi
    have h : i < 32 := Nat.lt_trans (List.mem_range.1 hi) (by decide)
    rw [BitVec.getLsbD_setWidth, decide_eq_true h, Bool.true_and]
  calc crcByte c b = Nat.repeat crcBit 8 (c ^^^ b.setWidth 32) := rfl
    _ = (List.range 8).foldl (fun c i => crcFeed c ((b.setWidth 32 : Word).getLsbD i)) c := by
      rw [crcBit_repeat_xor, gone, BitVec.xor_zero]
    _ = _ := foldl_eq_of_mem c (fun a i hi => congrArg (crcFeed a) (low i hi))

/-- Byte steps over the bytes of a number, low byte first, take in its bits, lowest first. -/
theorem crcBytes_eq (c : Word) (n v : Nat) :
    (leBytes n v).foldl crcByte c = (List.range (8 * n)).foldl (fun c i => crcFeed c (v.testBit i)) c := by
  rw [foldl_range_octets, leBytes, List.foldl_map]
  refine foldl_eq_of_mem c (fun a k _ => ?_)
  rw [crcByte_eq]
  exact foldl_eq_of_mem a (fun a i hi => congrArg (crcFeed a) (getLsbD_byte v k (List.mem_range.1 hi)))

/-- CRCC feeds the 64 bits of rs2 into the register in rs1. -/
theorem crccValue_eq (rs1 rs2 : Dword) :
    crccValue rs1 rs2 = ((List.range 64).foldl (fun c i => crcFeed c (rs2.getLsbD i)) (rs1.setWidth 32)).setWidth 64 := by
  rw [crccValue, crcBytes_eq, dw, BitVec.ofNat_toNat]
  rfl

theorem crccValue_register (a w : Dword) : (crccValue a w).setWidth 32 = (leBytes 8 w.toNat).foldl crcByte (a.setWidth 32) :=
  setWidth_dw_toNat _

/-- CRCC steps over qwords are byte steps over their bytes. -/
theorem crcc_foldl (ws : List Dword) (a : Dword) :
    (ws.foldl crccValue a).setWidth 32 = (qwBytes ws).foldl crcByte (a.setWidth 32) := by
  rw [qwBytes, List.foldl_flatMap]
  exact (List.foldl_hom (BitVec.setWidth 32) (fun a w => (crccValue_register a w).symm)).symm

/-! ## Big-endian numbers -/

theorem beNat_cons (x : Byte) (bs : List Byte) :
    beNat (x :: bs) = bs.foldl (fun a b => a * 256 + b.toNat) x.toNat := by
  rw [beNat, List.foldl_cons, Nat.zero_mul, Nat.zero_add]

/-- A big-endian number read on from `n`. -/
theorem foldl_beNat (bs : List Byte) (n : Nat) :
    bs.foldl (fun a b => a * 256 + b.toNat) n = n * 256 ^ bs.length + beNat bs := by
  induction bs generalizing n with
  | nil => exact (Nat.mul_one n).symm
  | cons x bs ih =>
    rw [List.foldl_cons, ih, beNat_cons, ih, List.length_cons, Nat.pow_succ', Nat.add_mul, Nat.mul_assoc, Nat.add_assoc]

theorem beNat_append (a b : List Byte) : beNat (a ++ b) = beNat a * 256 ^ b.length + beNat b :=
  (List.foldl_append ..).trans (foldl_beNat b _)

theorem beNat_lt (bs : List Byte) : beNat bs < 256 ^ bs.length := by
  induction bs with
  | nil => exact Nat.one_pos
  | cons x bs ih =>
    have byte : x.toNat * 256 ^ bs.length ≤ 255 * 256 ^ bs.length := Nat.mul_le_mul_right _ (Nat.le_of_lt_succ x.isLt)
    rw [beNat_cons, foldl_beNat, List.length_cons, Nat.pow_succ]
    omega

/-- The bits of a number in a frame are those of the whole frame, read as one number. -/
theorem testBit_be {bs : List Byte} {off n : Nat} (within : off + n ≤ bs.length) (i : Nat) :
    (be bs off n).testBit i = (decide (i < 8 * n) && (beNat bs).testBit (8 * (bs.length - (off + n)) + i)) := by
  have octets : ∀ k, 256 ^ k = 2 ^ (8 * k) := fun k => by rw [Nat.pow_mul]
  have cutLength : (cut bs off n).length = n := by
    rw [cut, List.length_take, List.length_drop]
    omega
  have restLength : (bs.drop (off + n)).length = bs.length - (off + n) := List.length_drop
  have parts : bs = bs.take off ++ cut bs off n ++ bs.drop (off + n) := by
    rw [cut, ← List.drop_drop, List.append_assoc, List.take_append_drop, List.take_append_drop]
  have here := beNat_lt (cut bs off n)
  have rest := beNat_lt (bs.drop (off + n))
  have whole : beNat bs / 256 ^ (bs.length - (off + n)) % 256 ^ n = be bs off n := by
    rw [cutLength] at here
    rw [restLength] at rest
    conv => lhs; rw [parts]
    rw [beNat_append, beNat_append, restLength, cutLength, ← parts, Nat.add_comm (_ * _),
      Nat.add_mul_div_right _ _ (Nat.pow_pos (by decide)), Nat.div_eq_of_lt rest, Nat.zero_add, Nat.add_comm (_ * _),
      Nat.add_mul_mod_self_right, Nat.mod_eq_of_lt here]
    rfl
  rw [← whole, octets, octets, Nat.testBit_mod_two_pow, Nat.testBit_div_two_pow, Nat.add_comm i]

/-! ## Toeplitz (R178, R326) -/

/-- The Toeplitz register `h` takes in one bit with its window of 32 key bits. -/
def tplzFeed (h : Word) (b : Bool) (window : Word) : Word := if b then h ^^^ window else h

/-- TPLZ takes in the byte's bits, highest first, each with the window from its place on. -/
theorem tplzValue_eq (rs1 rs2 : Dword) :
    tplzValue rs1 rs2 = ((List.range 8).foldl (fun h j => tplzFeed h (rs2.getLsbD (7 - j)) (rs2.extractLsb' (16 - j) 32))
      (rs1.setWidth 32)).setWidth 64 := by
  rw [tplzValue, dw, BitVec.ofNat_toNat]
  refine congrArg _ (foldl_eq_of_mem _ (fun h j hj => ?_))
  have hj : j < 8 := List.mem_range.1 hj
  have inByte : bit (rs2.toNat % 256) (7 - j) = rs2.getLsbD (7 - j) := by
    rw [bit_eq_testBit, show 256 = 2 ^ 8 from rfl, Nat.testBit_mod_two_pow]
    simp only [show 7 - j < 8 by omega, decide_true, Bool.true_and]
    rfl
  have window : w32 (bits rs2.toNat (47 - j) (16 - j)) = rs2.extractLsb' (16 - j) 32 := by
    apply BitVec.eq_of_toNat_eq
    rw [w32, bits, BitVec.toNat_ofNat, BitVec.extractLsb'_toNat, Nat.shiftRight_eq_div_pow,
      show 47 - j + 1 - (16 - j) = 32 by omega, Nat.mod_mod]
  rw [inByte, window, tplzFeed]

/-- The operand of the TPLZ step for byte `i`: the byte, and above it the 40 key bits from bit 8i on. -/
def tplzOperand (key input : List Byte) (i : Nat) : Dword := dw (be input i 1 + 256 * be key i 5)

section
variable {key input : List Byte} {i : Nat} (key40 : key.length = 40) (inside : i < input.length) (short : input.length ≤ 36)
include key40 inside short

theorem tplzOperand_getLsbD {n : Nat} (hn : n < 48) : (tplzOperand key input i).getLsbD n =
    if n < 8 then bit (be input i 1) n else (beNat key).testBit (8 * (35 - i) + (n - 8)) := by
  have byte : be input i 1 < 2 ^ 8 := Nat.lt_pow_two_of_testBit _ (fun k hk => by
    rw [testBit_be (by omega), decide_eq_false (by omega), Bool.false_and])
  rw [tplzOperand, dw, BitVec.getLsbD_ofNat, decide_eq_true (by omega), Bool.true_and, Nat.add_comm,
    show 256 = 2 ^ 8 from rfl, Nat.testBit_two_pow_mul_add _ byte]
  split
  · rw [bit_eq_testBit]
  · rw [testBit_be (by omega), decide_eq_true (by omega), Bool.true_and, key40, show 40 - (i + 5) = 35 - i by omega]

/-- The window for bit `j` of the byte begins at key bit 8i + j. -/
theorem tplzOperand_window {j : Nat} (hj : j < 8) :
    (tplzOperand key input i).extractLsb' (16 - j) 32 = w32 (beNat key / 2 ^ (288 - (8 * i + j))) := by
  apply BitVec.eq_of_getLsbD_eq
  intro m hm
  rw [BitVec.getLsbD_extractLsb', tplzOperand_getLsbD key40 inside short (by omega), if_neg (by omega), w32,
    BitVec.getLsbD_ofNat, Nat.testBit_div_two_pow,
    show 8 * (35 - i) + (16 - j + m - 8) = m + (288 - (8 * i + j)) by omega]

end

/-- The Toeplitz hash takes in the input's bits one by one, the window moving along the key. -/
theorem toeplitz_eq {key : List Byte} (key40 : key.length = 40) (input : List Byte) :
    toeplitz key input = (List.range (8 * input.length)).foldl (fun h n =>
      tplzFeed h (bit (be input (n / 8) 1) (7 - n % 8)) (w32 (beNat key / 2 ^ (288 - n)))) 0 := by
  unfold toeplitz
  simp only [key40, Nat.sub_self, Nat.mul_zero, Nat.pow_zero, Nat.mul_one]
  rfl

/-- The Toeplitz hash is made of TPLZ steps, byte by byte. -/
theorem toeplitz_foldl {key input : List Byte} (key40 : key.length = 40) (short : input.length ≤ 36) :
    toeplitz key input =
      ((List.range input.length).foldl (fun a i => tplzValue a (tplzOperand key input i)) 0).setWidth 32 := by
  have step : ∀ (a : Dword), ∀ i ∈ List.range input.length,
      (List.range 8).foldl (fun h j => tplzFeed h (bit (be input ((8 * i + j) / 8) 1) (7 - (8 * i + j) % 8))
        (w32 (beNat key / 2 ^ (288 - (8 * i + j))))) (a.setWidth 32) =
      (tplzValue a (tplzOperand key input i)).setWidth 32 := by
    intro a i hi
    have inside : i < input.length := List.mem_range.1 hi
    rw [tplzValue_eq, BitVec.setWidth_setWidth_of_le _ (by decide), BitVec.setWidth_eq]
    refine foldl_eq_of_mem _ (fun h j hj => ?_)
    have hj : j < 8 := List.mem_range.1 hj
    rw [tplzOperand_window key40 inside short hj, tplzOperand_getLsbD key40 inside short (by omega), if_pos (by omega),
      show (8 * i + j) / 8 = i by omega, show (8 * i + j) % 8 = j by omega]
  rw [toeplitz_eq key40, foldl_range_octets]
  exact List.foldl_rel (r := fun h (a : Dword) => h = a.setWidth 32) rfl
    (fun i hi h a same => same ▸ step a i hi)

/-! ## The hash steps -/

/-- Settles O57: CRCC and TPLZ bit by bit, then the hashes that their steps make up. The state before the instruction is
`kwBefore`'s, which ends an open WGET wait and makes the row's CSR accesses by the model's choice (log 61). -/
theorem hashSteps : Obligations.HashSteps := by
  refine ⟨?instructions, ?crc32c, ?toeplitz⟩
  case instructions =>
    intro s u k hu runs coded
    have result := fun {v w : Dword} (h : v = w) => congrArg (fun v => ok (hartResult u k.hart.val k.rd.val v)) h
    have run := fun f => congrArg ok (kwegan_always hu runs coded f)
    exact ⟨(run _).trans (result (crccValue_eq k.rs1 k.rs2)), (run _).trans (result (tplzValue_eq k.rs1 k.rs2))⟩
  case crc32c => exact fun ws => congrArg (· ^^^ 0xFFFFFFFF) (crcc_foldl ws 0xFFFFFFFF)
  case toeplitz => exact fun key input key40 short => toeplitz_foldl key40 short

end Sys2Proof.Machine
end

section
/-! PROOFS. Memory controllers: requests to their memory, ranks under a swap, the patrol scrub (R349, R354, R355). -/

namespace Sys2Proof.Machine

/-! ## Requests (R349) -/

/-- The row of a controller's memory, looked up by the kind of its page. -/
theorem controllerRow {s : State} {ddr : Bool} {r : Nat × Nat} (row : spaceRow s (if ddr then 0x81 else 0x80) = some r) :
    (if ddr then spaceRow s 0x81 else spaceRow s 0x80) = some r :=
  (apply_ite (spaceRow s) ..).symm.trans row

section
variable {s u : State} {port a len level i : Nat} {ddr : Bool} {r : Nat × Nat} (hu : u = portLevel s port level)
  (noWindow : windowCtx u port a = none) (noBuffer : ¬ (0x100000000 ≤ a ∧ a + len ≤ 0x10A000000))
  (noSram : hubSram u port a len = false) (serves : controllerOf u a = some (ddr, i))
  (row : spaceRow u (if ddr then 0x81 else 0x80) = some r) (within : a + len ≤ r.2)
  (noSecure : touchesSecure u a len = false) (ready : 3 ≤ u.stateOf (ctlBlk ddr) i)
include hu noWindow noBuffer noSram serves row within noSecure ready

/-- A read of memory that is open to it gets the bytes; an error that the ECC corrects counts. -/
theorem memRequest_read (corrected : Bool) : memRequest port a len none level (b2n corrected) s =
    serveBytes (if corrected then correctedError u ddr i else u) port a len none := by
  have up : ¬ u.stateOf (ctlBlk ddr) i ≤ 2 := by omega
  subst hu
  unfold memRequest
  simp only [noWindow, noBuffer, noSram, serves, controllerRow row, decide_eq_false (Nat.not_lt.2 within), noSecure, up,
    Bool.false_and, Option.isSome_none, Bool.false_eq_true, if_false]
  cases corrected <;> rfl

/-- A write of good bytes to memory that is open to it stores them. -/
theorem memRequest_write {bs : List Byte} (length : bs.length = len) :
    memRequest port a len (some bs) level 0 s = serveBytes u port a len (some bs) := by
  have up : ¬ u.stateOf (ctlBlk ddr) i ≤ 2 := by omega
  subst hu
  unfold memRequest
  simp only [length, noWindow, noBuffer, noSram, serves, controllerRow row, decide_eq_false (Nat.not_lt.2 within),
    noSecure, up, Bool.false_and, Bool.false_eq_true, ite_self, if_false]

end

/-! ## Swaps (R354) -/

/-- The first refresh of a rank at or after the swap's deadline exchanges it; with the last rank the swap is done. -/
theorem swapRank_exchanges {s u : State} {ddr : Bool} {i rank d : Nat} (swap : (memCtlOf s ddr i).swap = some d)
    (swaps : s.stateOf (ctlBlk ddr) i = 4) (waits : (memCtlOf s ddr i).ranks.contains rank = true)
    (hu : u = setMemCtl (s.reach d) ddr i { memCtlOf s ddr i with ranks := setDel (memCtlOf s ddr i).ranks rank }) :
    swapRank ddr i rank s = if (setDel (memCtlOf s ddr i).ranks rank).isEmpty then swapDone u ddr i else u := by
  subst hu
  unfold swapRank
  simp only [swap, swaps, waits, ne_eq, not_true_eq_false, Bool.not_true, Bool.false_eq_true, or_self, if_false]

/-! ## The rows -/

/-- Settles O18, row by row: where the address lies, the ranks that wait, and what the ECC found select the branch of the row's
meaning; the last is an operand of the row (log 65). -/
theorem memoryRowsRun : Obligations.MemoryRowsRun := by
  refine ⟨?request, ?swap, ?ddr, ?hbm⟩
  case request =>
    intro s u p a len hint lv ddr i r hu noWindow noBuffer noSram serves row within noSecure ready
    have read := fun corrected => congrArg ok
      (memRequest_read hu noWindow noBuffer noSram serves row within noSecure ready corrected)
    exact ⟨read false, read true, fun bs length => congrArg ok
      (memRequest_write hu noWindow noBuffer noSram serves row within noSecure ready length)⟩
  case swap =>
    intro s u ddr i rank d swap swaps waits hu
    have exchanges := congrArg ok (swapRank_exchanges swap swaps waits hu)
    exact ⟨fun last => exchanges.trans (congrArg ok (if_pos last)),
      fun more => exchanges.trans (congrArg ok (if_neg (Bool.eq_false_iff.1 more)))⟩
  case ddr =>
    intro s i a ready period
    have runs : ¬ (s.stateOf (ctlBlk true) i.val < 3 ∨ s.rd DDRC.SCRUB_PERIOD i.val = 0) :=
      fun h => h.elim (Nat.not_lt.2 ready) period
    exact ⟨congrArg ok (if_neg runs), congrArg ok (if_neg runs), congrArg ok (if_neg runs), congrArg ok (if_neg runs)⟩
  case hbm =>
    intro s i a ready period
    have runs : ¬ (s.stateOf (ctlBlk false) i.val < 3 ∨ s.rd HBMC.SCRUB_PERIOD i.val = 0) :=
      fun h => h.elim (Nat.not_lt.2 ready) period
    exact congrArg ok (if_neg runs)

end Sys2Proof.Machine
end

section
/-! PROOFS. Tenants and meters: refills, seals, signatures and the slice ring, and the commands of the TENANT, METER and TWIN
pages (R359 to R377, R398, R401). -/

namespace Sys2Proof.Machine

/-! ## Refills (R367) -/

theorem refillRow_due {s : State} {p : Nat} {e : CalEvent} (due : s.pendingEvent (32 + p) blkMETER 1 0 = some e) :
    refillRow p s = refillFire (s.fireEvent (32 + p) e) p e.deadline false := by
  unfold refillRow
  rw [due]

theorem refillAgain_waiting {s : State} {p d : Nat} (waits : Tbl.get? s.met.refillRetry p = some d) :
    refillAgain p s = scheduleRefill (s.reach d) p (s.reach d).ns := by
  unfold refillAgain
  rw [waits]

/-! ## Seals (R368 to R373) -/

theorem execSealGraceExpiry_due {s : State} {d : SealDue} {ds : List SealDue} (due : s.met.due = d :: ds) :
    execSealGraceExpiry s = ok (sealMinute d s) := by
  unfold execSealGraceExpiry
  rw [due]

theorem signSeal_attested {s : State} (r t : BitVec 384) (attested : s.dax.debug = false) :
    signSeal r t s = finishSeal (some (r, t)) s := by
  refine if_neg ?_
  rw [attested]
  exact Bool.false_ne_true

/-- The oldest minute not signed 50 ms after its step 2 goes without a signature. -/
theorem signLate_unsigned {s : State} {m : Staged} (oldest : s.met.staged.find? (fun m => !m.signed) = some m) :
    signLate s = finishSeal none (((s.reach (qw m.sealRec 5 + 50000000)).bumpErr blkSLICE 0 1).istat blkSLICE 0 3) := by
  unfold signLate
  rw [oldest]

/-! ## The rows -/

/-- Settles O19, row by row: the event, the seal due or the minute staged selects the branch of the row's meaning. A deadline's
row finds its event on the calendar, and its time reaches at least the deadline (log 9). -/
theorem meterRowsRun : Obligations.MeterRowsRun := by
  refine ⟨?flush, ?refill, ?again, ?grace, ?sign, ?late, ?cons⟩
  case flush => exact fun s t => rfl
  case refill => exact fun s t e due => congrArg ok (refillRow_due due)
  case again => exact fun s t d waits => congrArg ok (refillAgain_waiting waits)
  case grace => exact fun s d ds due => execSealGraceExpiry_due due
  case sign => exact fun s r t attested => congrArg ok (signSeal_attested r t attested)
  case late => exact fun s m oldest => congrArg ok (signLate_unsigned oldest)
  case cons =>
    intro s who v reaches behind
    exact congrArg ok ((pageWrite_reaches _ reaches).trans (if_neg (Nat.not_lt.2 behind)))

/-! ## Commands of the TENANT, METER and TWIN pages -/

/-- Settles O33: each row is the page command of its block and opcode. -/
theorem tenantCommandsRun : Obligations.TenantCommandsRun := by
  intro c s
  and_intros <;> exact commandRuns_of_exec rfl

end Sys2Proof.Machine
end

section
/-! PROOFS. The twin pair: links and flits, mirrored records, heartbeats and time, losses, and the ends of a copy and of a
drain (R379 to R398). -/

namespace Sys2Proof.Machine

/-! ## Links (R379, R385, R386) -/

/-- A register of 32 bits is a 32-bit word's number. -/
theorem w32_rd_toNat (s : State) (r : RegId) (i k : Nat) : (w32 (s.rd r i k)).toNat = s.rd r i k :=
  (BitVec.toNat_ofNat ..).trans (Nat.mod_eq_of_lt (s.rdA _).isLt)

/-- An IDENT of the pair's other end on its own link brings the link into service, and what was held for it is sent. -/
theorem identRx_accepted {s u : State} {l num : Nat} {peerRank : Bool} {credits : List Nat} (active : pairState s ≠ 0)
    (waits : (linkOf s l).stat = 2 ∨ (linkOf s l).stat = 4) (number : num = l) (other : b2n peerRank ≠ rank s)
    (hu : u = tryJoin (setTwin (setLink s l { ({} : Link) with
      stat := 3
      heard := true
      credits := (List.range 8).map (fun c => if sequenced c then credits.getD c 0 else 0) })
        (fun t => { t with lastHeard := s.bref }))) :
    identRx l (s.rd TWIN.PAIR_ID) peerRank num credits s = pumpLink l
      ((linkOf (sendHeld (u.twin.unacked.length + 1) u) l).queued.length + 1) (sendHeld (u.twin.unacked.length + 1) u) := by
  have locked : ¬ (pairState s = 0 ∨ ((linkOf s l).stat ≠ 2 ∧ (linkOf s l).stat ≠ 4)) := by
    rintro (inactive | ⟨not2, not4⟩)
    · exact active inactive
    · exact waits.elim not2 not4
  have right : ¬ (s.rd TWIN.PAIR_ID ≠ s.rd TWIN.PAIR_ID ∨ num ≠ l ∨ b2n peerRank = rank s) := by
    rintro (id | num_ | same)
    · exact id rfl
    · exact num_ number
    · exact other same
  subst hu
  unfold identRx
  simp only [if_neg locked, if_neg right]

section
variable {s u : State} {f : Flit}

/-- A good flit of a credited channel, next in its link's series, is taken, acknowledged, and its credit returned. -/
theorem acceptFlit_next (locked : (linkOf s f.link.val).stat ≠ 0) (good : flitGood f = true) (hu : u = takeHeader s f)
    (credited : sequenced f.channel.toNat = true) (up : (linkOf u f.link.val).stat = 3)
    (next : f.seq = (linkOf u f.link.val).rxSeq) :
    (acceptFlit s f).1 = sendLinkFlit ((setLink u f.link.val { linkOf u f.link.val with
      rxSeq := (linkOf u f.link.val).rxSeq + 1
      nakSent := false }).bumpStat TWIN.FLITS_RX f.link.val) f.link.val false f.channel.toNat 1 := by
  subst hu
  unfold acceptFlit
  simp only [locked, good, credited, up, next, ne_eq, not_true_eq_false, Bool.not_true, Bool.false_eq_true, if_false, if_true]

/-! ## Records (R389, R390) -/

variable (taken : acceptFlit s f = (u, true)) (mirrors : pairState u = 2 ∨ pairState u = 3)
include taken mirrors

theorem bulkRx_taken : bulkRx f s = (recordsOf 30 f.payload).foldl (applyRecord true) u := by
  have pair : ¬ (pairState u ≠ 2 ∧ pairState u ≠ 3) := fun ⟨not2, not3⟩ => mirrors.elim not2 not3
  unfold bulkRx
  simp only [taken, pair, Bool.not_true, Bool.false_eq_true, or_self, if_false]

/-- Records that let the series go on are acknowledged. -/
theorem mirrorRx_applied {v : State} (hv : v = applyTurn ((recordsOf 30 f.payload).foldl takeRecord u).twin.early.length
      ((recordsOf 30 f.payload).foldl takeRecord u)) (applied : v.twin.mseqRx ≠ u.twin.mseqRx) :
    mirrorRx f s = sendMack v := by
  have pair : ¬ (pairState u ≠ 2 ∧ pairState u ≠ 3) := fun ⟨not2, not3⟩ => mirrors.elim not2 not3
  subst hv
  unfold mirrorRx
  simp only [taken, pair, applied, Bool.not_true, Bool.false_eq_true, or_self, if_false]

end

/-! ## Copies and handbacks (R380, R398) -/

/-- The last record of this twin's copy has left: BULK_DONE goes out. -/
theorem bulkSent_done {s : State} (joining : pairState s = 2) (open_ : s.twin.bulkMine = false)
    (drained : s.twin.links.any (fun k => k.2.queued.any (fun q => q.1 == 5)) = false) :
    bulkSent s = bulkMet (setTwin (sendMessage s 1 0) (fun t => { t with bulkMine := true })) := by
  unfold bulkSent
  simp only [joining, open_, drained, ne_eq, not_true_eq_false, Bool.or_self, Bool.false_eq_true, or_self, if_false]

/-- The objects that the peer hands back on a port are adopted and go on, and the port's functions learn of it. -/
theorem handbackRx_paired {s u v : State} {port p : Nat} {hs : List Nat} (local_ : localPort s port = some p)
    (paired : pairState s = 3) (which : hs = s.twin.handed.filter (fun h => qb (shadowOf s h) 0 27 21 == port))
    (hu : u = hs.foldl (adoptOne false) s)
    (hv : v = setTwin u (fun t => { t with handed := t.handed.filter (fun h => !hs.contains h) })) :
    handbackRx port s = pairChange
      (resumeTaken v ((v.ctxs.map Prod.fst).filter (fun h => !(s.ctxs.map Prod.fst).contains h))) p 0x2 := by
  subst hv hu which
  unfold handbackRx
  simp only [local_, paired, ne_eq, not_true_eq_false, if_false]

/-- With no work of the port in flight, its taken objects go over BULK and leave this device, and HANDBACK ends. -/
theorem handbackDrained_quiet {s u : State} {port : Nat} {r : Running} (waits : waitingCmd s blkTWIN 0 0x02 = some r)
    (same : r.arg0.toNat % 128 = port) (paired : pairState s = 3) (still : quiet s (takenOf s port) = true)
    (hu : u = pairChange (sendMessage (bulkObjects s (· == port) (fun h => (takenOf s port).contains h)) 3 port) port 0x2) :
    handbackDrained port s = endWaiting (setTwin (forget u (takenOf s port))
      (fun t => { t with handing := setDel t.handing port })) blkTWIN 0 0x02 0 := by
  subst hu
  unfold handbackDrained
  simp only [waits, same, paired, still, ne_eq, not_true_eq_false, Bool.not_true, Bool.false_eq_true, if_false]

/-! ## Time and heartbeats (R387, R388) -/

section
variable {s u : State} {l dt : Nat} (up : (linkOf (s.pass dt) l).stat = 3) (hu : u = hear (s.pass dt) l)
include up hu

/-- A reply that comes back to the rank 0 end completes its exchange. -/
theorem timeRx_rank0 (t1 t2 t3 : Nat) (first : rank u = 0) : timeRx l t1 t2 t3 0 dt s =
    useExchange (sendTime u l t1 t2 t3 u.now) l (exchangeOffset u l t1 t2 t3 u.now) := by
  subst hu
  unfold timeRx
  simp only [up, first, ne_eq, not_true_eq_false, if_false, if_true]

/-- A request at the rank 1 end is answered. -/
theorem timeRx_rank1 (t1 t2 t3 : Nat) (second : rank u ≠ 0) :
    timeRx l t1 t2 t3 0 dt s = sendTime u l t1 u.now u.now 0 := by
  subst hu
  unfold timeRx
  simp only [up, second, ne_eq, not_true_eq_false, if_false, if_true]

end

/-- The peer is fit to give time: locked or in holdover, and not on the twin itself (R16, R18, R387). -/
abbrev GivesTime (q0 : Dword) : Prop := (bits q0.toNat 7 4 = 2 ∨ bits q0.toNat 7 4 = 3) ∧ bits q0.toNat 11 8 ≠ 3

/-- A heartbeat gives the peer's state and its MACK; whether the peer is fit to give time decides on the twin source. -/
theorem heartbeatRx_up {s u : State} {l dt : Nat} {q0 q1 q2 : Dword} (up : (linkOf (s.pass dt) l).stat = 3)
    (hu : u = takeMack ((setTwin (hear (s.pass dt) l) (fun t => { t with peerQ0 := q0 })).wr TWIN.PEER_STATE 0
      (bits q0.toNat 12 0)) (bits q2.toNat 39 0)) :
    heartbeatRx l q0 q1 q2 dt s =
      tryJoin (if GivesTime q0 then reselect (gainSource u .twin) else loseSource u .twin) := by
  subst hu
  unfold heartbeatRx
  simp only [up, ne_eq, not_true_eq_false, if_false]

/-! ## Losses (R387, R393) -/

/-- A TAKEOVER flit that crosses none of this twin's own makes it take over. -/
theorem takeoverRx_paired {s u : State} {l : Nat} (locked : (linkOf s l).stat ≠ 0) (hu : u = hear s l)
    (paired : pairState u = 3) (first : u.twin.sentTake = false) (slots : List (List Dword)) :
    takeoverRx l slots s = takeOver slots u := by
  subst hu
  unfold takeoverRx
  simp only [locked, paired, first, ne_eq, not_true_eq_false, Bool.not_false, if_false, if_true]

/-- HB_LOSS after the last valid flit, every link has fallen silent. -/
theorem hbLoss_silent {s u : State} (watched : pairState s = 3 ∨ s.twin.links.any (fun k => k.2.heard) = true)
    (hu : u = setTwin (reachBref s (s.twin.lastHeard + s.rd TWIN.HB_LOSS))
      (fun t => { t with links := Tbl.mapV t.links (fun _ k => { k with heard := false }) })) (slots : List (List Dword)) :
    hbLoss slots s = if pairState u ≠ 3 then u
      else if u.twin.liveStopped then takeOver slots u
      else if rank u = 0 then pairChangeAll (takeOver slots (u.bumpErr blkTWIN 0 5)) 0x3
      else fence (u.bumpErr blkTWIN 0 5) := by
  subst hu
  refine if_neg ?_
  rintro ⟨alone, silent⟩
  rw [← List.not_any_eq_all_not, Bool.not_eq_true'] at silent
  exact watched.elim alone (fun heard => Bool.false_ne_true (silent.symm.trans heard))

theorem liveLoss_first {s : State} (alive : s.twin.liveStopped = false) :
    liveLoss s = (setTwin (reachBref s (s.twin.liveLast + s.rd TWIN.LIVE_LOSS))
      (fun t => { t with liveStopped := true })).istat blkMGMT 0 2 := by
  refine if_neg ?_
  rw [alive]
  exact Bool.false_ne_true

theorem liveToggle_powered {s : State} (good : s.pwr.pwrgood = true) (free : s.pwr.held = false) :
    liveToggle s = (setTwin s (fun t => { t with liveOut := !t.liveOut })).emit (.pin 2 0 (b2n (!s.twin.liveOut))) := by
  refine if_pos ?_
  rw [good, free]
  rfl

/-! ## The rows -/

/-- Settles O20, row by row: the link's state, the pair's, the flit or the waiting command selects the branch of the row's
meaning. The codes of COMMAND messages (1 BULK_DONE, 3 HANDBACK) are the model's choice (log 35), and so are what becomes of
objects taken over (log 73) and how flits of a pair are read (log 74). -/
theorem twinRowsRun : Obligations.TwinRowsRun := by
  refine ⟨?ident, ?identAgain, ?flit, ?records, ?mack, ?bulkDone, ?leave, ?handback, ?takeoverDone, ?time, ?beat, ?takeover,
    ?sent, ?loss, ?liveLoss, ?liveEdge, ?liveOut, ?copied, ?drained⟩
  case ident =>
    intro s u l rk num cr active waits number other hu
    refine Eq.trans ?_ (congrArg ok (identRx_accepted active waits number other hu))
    exact congrArg (fun id => ok (identRx l.val id rk num.toNat cr s)) (w32_rd_toNat ..)
  case identAgain => exact fun s l refused => congrArg ok (if_pos refused)
  case flit =>
    exact fun s u f locked good hu credited up next => congrArg ok (acceptFlit_next locked good hu credited up next)
  case records =>
    exact fun s u f taken mirrors => ⟨congrArg ok (bulkRx_taken taken mirrors),
      fun v hv applied => congrArg ok (mirrorRx_applied taken mirrors hv applied)⟩
  case mack => exact fun s m => rfl
  case bulkDone => exact fun s joining => congrArg ok (if_pos joining)
  case leave => exact fun s paired => congrArg ok (if_pos paired)
  case handback =>
    exact fun s u v port p hs local_ paired which hu hv => congrArg ok (handbackRx_paired local_ paired which hu hv)
  case takeoverDone => exact fun s => rfl
  case time =>
    exact fun s u l t1 t2 t3 dt up hu => ⟨fun first => congrArg ok (timeRx_rank0 up hu t1 t2 t3 first),
      fun second => congrArg ok (timeRx_rank1 up hu t1 t2 t3 second)⟩
  case beat =>
    intro s u l q0 q1 q2 dt up hu
    have beats := congrArg ok (heartbeatRx_up (q1 := q1) up hu)
    exact ⟨fun fit => beats.trans (congrArg (fun v => ok (tryJoin v)) (if_pos fit)),
      fun unfit => beats.trans (congrArg (fun v => ok (tryJoin v)) (if_neg unfit))⟩
  case takeover =>
    exact fun s u l code sl locked hu paired first => congrArg ok (takeoverRx_paired locked hu paired first sl)
  case sent => exact fun s => ⟨rfl, fun first => congrArg ok (if_pos first), rfl⟩
  case loss =>
    intro s u sl watched hu
    have silent := hbLoss_silent watched hu sl
    refine ⟨fun alone => congrArg ok (silent.trans (if_pos alone)), fun paired stopped => congrArg ok (silent.trans ?_),
      fun paired alive second => congrArg ok (silent.trans ?_)⟩
    · simp only [paired, stopped, ne_eq, not_true_eq_false, if_false, if_true]
    · simp only [paired, alive, second, ne_eq, not_true_eq_false, Bool.false_eq_true, if_false]
  case liveLoss => exact fun s alive => congrArg ok (liveLoss_first alive)
  case liveEdge => exact fun s dt => rfl
  case liveOut => exact fun s good free => congrArg ok (liveToggle_powered good free)
  case copied => exact fun s joining open_ drained => congrArg ok (bulkSent_done joining open_ drained)
  case drained =>
    exact fun s u port r waits same paired still hu => congrArg ok (handbackDrained_quiet waits same paired still hu)

end Sys2Proof.Machine
end

section
/-! PROOFS. Power, boot and trust: the supply, the loader and its waits, fuses and tamper sensors, SPDM, the boundary scan, and
the commands of the BOOT, DAXLIA, FAULT and MGMT pages (R402 to R426, R430, R442, R449, R466). -/

namespace Sys2Proof.Machine

/-! ## The supply (R449) -/

/-- PWRGOOD rises on a device that is not halted: boot starts, or the dies stay held while a rail is low. -/
theorem pwrgoodRise_notHalted {s u : State} {bootSel : Nat} {testMode : Bool} (down : s.pwr.pwrgood = false)
    (live : s.flt.haltSealed = false) (noCycle : s.pwr.cycled = false)
    (hu : u = { s with pwr := { s.pwr with
      pwrgood := true, cycled := false, straps := BitVec.ofNat 4 (bootSel + 8 * b2n testMode) } }) :
    pwrgoodRise bootSel testMode s = if railsLow u then
      ({ u with pwr := { u.pwr with held := true, clearAt := none } } : State).emit (.pin 4 0 0) else powerStart u := by
  subst hu
  unfold pwrgoodRise
  simp only [down, live, noCycle, Bool.false_eq_true, if_false]

theorem pwrgoodRelease_held {s : State} {t : Nat} (clear : s.pwr.clearAt = some t) (held : s.pwr.held = true) :
    pwrgoodRelease s = powerStart (s.reach (t + 1000000)) := by
  unfold pwrgoodRelease
  simp only [clear, held, if_true]

theorem pwrgoodFall_powered {s : State} (up : s.pwr.pwrgood = true) : ∃ u, pwrgoodFall s = u ∧ u.pwr.pwrgood = false ∧
    u.flt.started = false ∧ u.flt.pulseEnd = none := by
  refine ⟨_, if_neg ?_, rfl, rfl, rfl⟩
  rw [up]
  exact Bool.false_ne_true

/-! ## Fuses and tamper sensors (R402, R420) -/

section
variable {s : State} (on : powered s = true)
include on

theorem fuseRecheck_differs : fuseRecheck false s = raiseFault (tamperStat s 3) 0x004 := by
  refine if_neg ?_
  rw [on]
  exact Bool.false_ne_true

theorem tamper_powered (cause : Nat) : tamper cause s = raiseFault (tamperStat (zeroize s) cause) (0x001 + cause) := by
  refine if_neg ?_
  rw [on]
  exact Bool.false_ne_true

end

/-! ## The loader (R407, R409) -/

/-- A block of the source in use, from its flash slot, is the manifest (stage 0) or a stage's block. -/
theorem loaderBlock_taken {s : State} {source : Nat} {slotB : Bool} (stage i : Nat) (bytes : List Byte)
    (boots : booting s = true) (same : source = s.boot.source) (noPush : s.boot.pushOpen = false)
    (not3 : source ≠ 3) (not4 : source ≠ 4) (slot : source ≤ 2 → slotB = (s.boot.slot % 2 == 1)) :
    loaderBlock source slotB stage i bytes s = if stage = 0 then takeManifest bytes s else takeBlock stage i bytes s := by
  have given : ¬ (source ≤ 2 ∧ slotB ≠ (s.boot.slot % 2 == 1)) := fun ⟨flash, other⟩ => other (slot flash)
  unfold loaderBlock
  rw [if_neg ?_, if_neg given]
  simp only [boots, same.symm, noPush, beq_false_of_ne not3, beq_false_of_ne not4, bne_self_eq_false, Bool.not_true,
    Bool.or_self, Bool.false_eq_true, not_false_eq_true]

/-- A push that has not ended within RECOV_WAIT fails. -/
theorem recovWait_open {s u : State} (waits : s.boot.pushOpen = true) (live : s.flt.halt = false)
    (started : s.flt.started = true) (hu : u = s.reach (s.boot.srcAt + 60000000000)) : recovWait s =
      bootFail { u with boot := { u.boot with pushOpen := false } } (if 1 ≤ u.boot.stage then 0x30 else 0x01) := by
  subst hu
  unfold recovWait
  simp only [waits, live, started, Bool.not_true, Bool.false_eq_true, or_self, if_false]

theorem twinWait_silent {s : State} (boots : booting s = true) (twin : s.boot.source = 5) (nothing : s.boot.manifest = []) :
    twinWait s = bootFail (s.reach (s.boot.srcAt + 5000000000)) 0x01 := by
  unfold twinWait
  simp only [boots, twin, nothing, ne_eq, not_true_eq_false, Bool.not_true, Bool.false_eq_true, or_self, if_false]

/-! ## SPDM (R418) -/

/-- How far a port's negotiation is, noted. -/
def atSpdm (s : State) (p n : Nat) : State := { s with dax := { s.dax with spdm := Tbl.put s.dax.spdm p n } }

section
variable {s : State} {p : Nat} (up : doeUp s p = true)
include up

/-- A request in its turn is answered. -/
theorem spdmReq_inTurn {need : Nat} (turn : need ≤ spdmAt s p) (leave : Nat) (answer : State → State) :
    spdmReq p need leave answer s = answer (atSpdm s p leave) := by
  unfold spdmReq
  simp only [up, Nat.not_lt.2 turn, Bool.not_true, Bool.false_eq_true, if_false]
  rfl

variable (agreed : 3 ≤ spdmAt s p)
include agreed

theorem getCertificate_slot0 (off len : Nat) : getCertificate p 0 off len s =
    if Config.certChain.length ≤ off then spdmError (atSpdm s p (spdmAt s p)) p 0x01
    else (atSpdm s p (spdmAt s p)).emit (.spdm p 0x02 (leBytes 2 (cut Config.certChain off len).length ++
      leBytes 2 (Config.certChain.length - off - (cut Config.certChain off len).length) ++ cut Config.certChain off len)) := by
  rw [getCertificate, spdmReq_inTurn up agreed]
  simp only [ne_eq, not_true_eq_false, false_or]

theorem spdmChallenge_attested {u : State} (hu : u = atSpdm s p (spdmAt s p)) {nonce : List Byte} (length : nonce.length = 32)
    (attested : u.dax.attested = true) : spdmChallenge p 0 nonce s =
      ((u.fresh 256).2.fresh 768).2.emit (.spdm p 0x03 (certDigest ++ leBytes 32 (u.fresh 256).1.toNat ++
        leBytes 96 ((u.fresh 256).2.fresh 768).1.toNat)) := by
  rw [spdmChallenge, spdmReq_inTurn up agreed, ← hu]
  simp only [length, attested, ne_eq, not_true_eq_false, or_self, Bool.not_true, Bool.false_eq_true, if_false]
  rfl

/-- A single measurement without a nonce is sent unsigned. -/
theorem spdmMeasurements_one {i : Nat} (low : 1 ≤ i) (high : i ≤ 7) : spdmMeasurements p i [] s =
    (atSpdm s p (spdmAt s p)).emit (.spdm p 0x60 (measureBlock (atSpdm s p (spdmAt s p)) i)) := by
  have known : ¬ (7 < i ∧ i ≠ 0xFF) := by omega
  have one : i ≠ 0 ∧ i ≠ 0xFF := by omega
  obtain ⟨notCount, notAll⟩ := one
  rw [spdmMeasurements, spdmReq_inTurn up agreed]
  simp only [known, notCount, notAll, if_false, if_true]

end

/-! ## The rows -/

/-- Settles O21, row by row: the supply, the boot source or the port's negotiation selects the branch of the row's meaning.
SPDM's codes and payloads follow DSP0274 (log 38); that a power cycle leaves device memory reading 0 is the model's choice
(log 2). -/
theorem bootRowsRun : Obligations.BootRowsRun := by
  refine ⟨?rise, ?release, ?fall, ?cycle, ?fuses, ?loader, ?push, ?twin, ?spdm, ?scan⟩
  case rise =>
    intro s u b tm down live noCycle hu
    have rises := congrArg ok (pwrgoodRise_notHalted down live noCycle hu)
    exact ⟨fun high => rises.trans (congrArg ok (if_neg (Bool.eq_false_iff.1 high))),
      fun low => rises.trans (congrArg ok (if_pos low))⟩
  case release => exact fun s t clear held => congrArg ok (pwrgoodRelease_held clear held)
  case fall =>
    intro s up
    obtain ⟨u, falls, good, started, pulse⟩ := pwrgoodFall_powered up
    exact ⟨u, congrArg ok falls, good, started, pulse⟩
  case cycle => exact fun s => ⟨powerCycle s, rfl, rfl, rfl, rfl, rfl, rfl, rfl, rfl, rfl⟩
  case fuses =>
    exact fun s on => ⟨congrArg ok (fuseRecheck_differs on), congrArg ok (if_pos (Bool.or_true _)),
      fun c => congrArg ok (tamper_powered on c.val)⟩
  case loader =>
    intro s src st b i bs boots same noPush not3 not4 slot
    have taken := congrArg ok (loaderBlock_taken st.toNat i bs boots same noPush not3 not4 slot)
    exact ⟨fun manifest => taken.trans (congrArg ok (if_pos manifest)),
      fun block => taken.trans (congrArg ok (if_neg block))⟩
  case push => exact fun s u waits live started hu => congrArg ok (recovWait_open waits live started hu)
  case twin => exact fun s boots twin nothing => congrArg ok (twinWait_silent boots twin nothing)
  case spdm =>
    intro s p up
    refine ⟨congrArg ok (spdmReq_inTurn up (Nat.zero_le _) 1 _), fun turn => congrArg ok (spdmReq_inTurn up turn 2 _),
      fun turn => congrArg ok (spdmReq_inTurn up turn 3 _), fun u hu agreed => ?_⟩
    subst hu
    exact ⟨congrArg ok (spdmReq_inTurn up agreed _ _),
      fun off len => congrArg ok (getCertificate_slot0 up agreed off.toNat len.toNat),
      fun nonce length attested => congrArg ok (spdmChallenge_attested up agreed rfl length attested),
      fun i low high => congrArg ok (spdmMeasurements_one up agreed low high)⟩
  case scan => exact fun s => ⟨rfl, rfl, rfl, rfl, rfl, rfl⟩

/-! ## Commands of the BOOT, DAXLIA, FAULT and MGMT pages -/

/-- Settles O34: each row is the page command of its block and opcode. -/
theorem trustCommandsRun : Obligations.TrustCommandsRun := by
  intro c s
  and_intros <;> exact commandRuns_of_exec rfl

end Sys2Proof.Machine
end

section
/-! PROOFS. Faults and recovery: unit resets, quiet periods, the escalator, FAULT_N, the fault log and injection (R427 to R436,
R442). -/

namespace Sys2Proof.Machine

/-! ## Recovery of a unit (R430) -/

/-- A unit's reset is complete: restored by hand it serves at once, else its quiet period begins. -/
theorem resetComplete_recovering {s : State} {p : Nat} (resets : (unitOf s p).state = 1) (noWait : (unitOf s p).waitQ = false)
    (noOctet : State.pkBlk p ≠ blkOCTET) : resetComplete p s =
      if (unitOf s p).direct then inService (clearDegraded (unitEffects s p) p) p
      else toQuiet (clearDegraded (unitEffects s p) p) p := by
  unfold resetComplete
  simp only [resets, noWait, noOctet, ne_eq, not_true_eq_false, Bool.false_eq_true, or_self, false_and, if_false]

/-- A quiet period in which nothing has merged ends the recovery. -/
theorem quietExpires_noMerge {s : State} {p d : Nat} (quiet : (unitOf s p).quiet = some d)
    (noMerge : (openRec (s.reach d) p).bind (fun r => r.after) = none) :
    quietExpires p s = wakeQuiet (inService (closeRec (s.reach d) p) p) := by
  unfold quietExpires
  simp only [quiet, noMerge]

/-! ## The escalator (R435) -/

section
variable {s : State} (cause : Nat)

/-- On a device that is already halted the escalator only shows its cause. -/
theorem escalate_halted (halted : s.flt.haltSealed = true) : escalate cause s = escWrite s cause := if_pos halted

/-- A second fire while RECENT is set halts the device; that the record of FSN 6 is OPEN is the model's choice (log 80). -/
theorem escalate_recent (live : s.flt.haltSealed = false) (recent : bit (s.rd FAULT.ESC_STAT) 0 = true) :
    escalate cause s = haltWith (ownRec (sendTakeover (driveFault s true) 0xFD) 0x006 5 1) 0xFD true := by
  unfold escalate
  simp only [live, recent, Bool.false_eq_true, if_false, if_true]

end

/-! ## FAULT_N, the log and injection (R434, R436, R442) -/

section
variable {s : State} {v : Word}

theorem pinCtrl_noPulse (idle : s.flt.pulseEnd = none) : pinCtrl v s = takeMode (s.wr FAULT.PIN_CTRL 0 (v.toNat % 4)) := by
  unfold pinCtrl
  simp only [State.wr_flt, idle, Option.isSome_none, Bool.false_eq_true, if_false]

/-- During a pulse PIN_CTRL is only stored. -/
theorem pinCtrl_pulse (pulse : s.flt.pulseEnd.isSome = true) : pinCtrl v s = s.wr FAULT.PIN_CTRL 0 (v.toNat % 4) := by
  unfold pinCtrl
  simp only [State.wr_flt, pulse, if_true]

theorem pulseEnds_pulse {t : Nat} (pulse : s.flt.pulseEnd = some t) :
    pulseEnds s = takeMode { s.reach t with flt := { (s.reach t).flt with pulseEnd := none } } := by
  unfold pulseEnds
  rw [pulse]

/-- In factory test mode an armed injection raises the source that INJ_CTRL names. -/
theorem injCtrl_armed (factory : testMode s = true) (armed : bit v.toNat 31 = true)
    (source : fsnValid (v.toNat % 4096) = true) : injCtrl v s =
      raiseFault (s.wr FAULT.INJ_CTRL 0 (v.toNat % 4096)) (v.toNat % 4096)
        (w32 (s.rd FAULT.INJ_INFO / 65536)) (BitVec.ofNat 16 (s.rd FAULT.INJ_INFO)) true := by
  unfold injCtrl
  simp only [factory, armed, source, Bool.not_true, Bool.false_eq_true, if_false]

end

/-! ## The rows -/

/-- Settles O22, row by row: the unit, the escalator's RECENT, the pin's pulse or the register's value selects the branch of
the row's meaning. -/
theorem faultRowsRun : Obligations.FaultRowsRun := by
  refine ⟨?raise, ?reset, ?quiet, ?halted, ?again, ?recent, ?writes, ?pulse⟩
  case raise => exact fun s fsn cause info => rfl
  case reset =>
    intro s pg populated noOctet resets noWait
    have blk : State.pkBlk (State.pk pg.blk.toNat pg.inst.toNat) ≠ blkOCTET := by
      rw [State.pkBlk_pk _ pg.inst.isLt]
      exact noOctet
    have complete := congrArg ok ((onPage_populated resetComplete s populated).trans
      (resetComplete_recovering resets noWait blk))
    exact ⟨fun direct => complete.trans (congrArg ok (if_pos direct)),
      fun indirect => complete.trans (congrArg ok (if_neg (Bool.eq_false_iff.1 indirect)))⟩
  case quiet =>
    exact fun s pg d populated quiet noMerge => congrArg ok (withResets_congr
      ((onPage_populated quietExpires s populated).trans (quietExpires_noMerge quiet noMerge)))
  case halted =>
    exact fun s halted => ⟨congrArg ok (escalate_halted 1 halted), congrArg ok (escalate_halted 2 halted)⟩
  case again =>
    exact fun s live recent => ⟨congrArg ok (escalate_recent 1 live recent), congrArg ok (escalate_recent 2 live recent)⟩
  case recent => exact fun s recent => congrArg ok (if_pos recent)
  case writes =>
    intro s who reaches
    have run := fun k => pageWrite_reaches k reaches
    exact ⟨fun v idle => congrArg ok ((run _).trans (pinCtrl_noPulse idle)),
      fun v pulse => congrArg ok ((run _).trans (pinCtrl_pulse pulse)),
      fun v clear => congrArg ok ((run _).trans (if_pos clear)),
      fun v behind => congrArg ok ((run _).trans (if_neg (Nat.not_lt.2 behind))),
      fun v factory armed source =>
        congrArg ok (withResets_congr ((run _).trans (injCtrl_armed factory armed source)))⟩
  case pulse => exact fun s t pulse => congrArg ok (pulseEnds_pulse pulse)

end Sys2Proof.Machine
end

section
/-! PROOFS. Supplies, temperatures and the management interface's pins (R437 to R440, R456, R465). -/

namespace Sys2Proof.Machine

/-! ## Rails (R437, R438, R443) -/

section
variable {s u : State} {ch mv : Nat} (hu : u = railRead s ch mv) (up : u.pwr.pwrgood = true) (free : u.pwr.held = false)
include hu up free

/-- A rail that crosses its warning level begins a brown-out, with FSN 0x00B. -/
theorem railBelow_crosses {v : State} (low : railLow u ch = true) (first : railLow s ch = false)
    (serves : (u.bumpErr blkPWR 0 0).stateOf blkPWR 0 ≠ 2)
    (hv : v = (((u.bumpErr blkPWR 0 0).setState blkPWR 0 2).istat blkPWR 0 0).bumpStat PWR.BO_COUNT 0) :
    railBelow ch mv s = raiseFault { v with pwr := { v.pwr with holdSince := v.ns, holdEnd := none } } 0x00B := by
  subst hu hv
  unfold railBelow
  simp only [up, free, low, first, serves, Bool.not_true, Bool.false_eq_true, or_self, if_false]

/-- The last rail to recover during a brown-out starts the hold's end, unless it runs. -/
theorem railAbove_recovers (high : railsLow u = false) (brownOut : u.stateOf blkPWR 0 = 2) :
    railAbove ch mv s = { u with pwr := { u.pwr with holdEnd := some (u.pwr.holdEnd.getD (u.ns + 1000000)) } } := by
  subst hu
  unfold railAbove
  simp only [up, free, high, brownOut, Bool.not_true, Bool.false_eq_true, or_self, if_false, if_true]

theorem railReset_running : railReset ch mv s = raiseFault u 0x007 := by
  subst hu
  unfold railReset
  simp only [up, free, Bool.not_true, Bool.false_eq_true, if_false]

end

/-- The brown-out ends, its length is noted, and waiting work goes on. -/
theorem holdEnds_due {s u : State} {t : Nat} (due : s.pwr.holdEnd = some t)
    (hu : u = ((s.reach t).setState blkPWR 0 1).wr PWR.BO_LAST 0 (((s.reach t).ns - (s.reach t).pwr.holdSince) / 1000)) :
    holdEnds s = dispatchWaiting (({ u with pwr := { u.pwr with holdEnd := none } } : State).istat blkPWR 0 1) := by
  subst hu
  unfold holdEnds
  rw [due]

/-! ## The rows -/

/-- Settles O23, row by row: the rails' readings, the brown-out's state or the pin's level selects the branch of the row's
meaning. -/
theorem supplyRowsRun : Obligations.SupplyRowsRun := by
  refine ⟨?rails, ?hold, ?sample, ?trip, ?gpio, ?management⟩
  case rails =>
    intro s u ch mv hu up free
    exact ⟨fun low first serves v hv =>
        congrArg ok (withResets_congr (railBelow_crosses hu up free low first serves hv)),
      fun high brownOut => congrArg ok (railAbove_recovers hu up free high brownOut),
      congrArg ok (railReset_running hu up free)⟩
  case hold => exact fun s u t due hu => congrArg ok (holdEnds_due due hu)
  case sample => exact fun s temps => rfl
  case trip => exact fun s n => rfl
  case gpio => exact fun s lv changed => congrArg ok (if_neg changed)
  case management => exact fun s a v => ⟨rfl, rfl⟩

end Sys2Proof.Machine
end
